-- ==== Sys2Proof/Word.lean ====
section
/-! DEFINITION. The machine's word types (R145, R130) and the sparse table type the state is built from. -/

namespace Sys2Proof

/-- A general register's 128 bits (R145). -/
abbrev Word := BitVec 128

/-- One byte (R32). -/
abbrev Byte := BitVec 8

/-- A table keyed by a number, sorted by key: a key that is not listed reads as the default of the reader. -/
abbrev AList (α : Type) := List (Nat × α)

end Sys2Proof
end

