-- ==== Sys2Proof/Machine/Bits.lean ====
section
/-! DEFINITION. Sparse tables, bit slices, sign extension, byte order (R31, R32) and the canonical memory (entry 2). -/

namespace Sys2Proof.Machine

/-! ## Sparse tables -/

/-- The entry at a key, or the default where none is listed. -/
def tget {α : Type} : AList α → Nat → α → α
  | [], _, d => d
  | (k, v) :: t, i, d => if k = i then v else tget t i d

/-- The entry at a key, if one is listed. -/
def tfind {α : Type} : AList α → Nat → Option α
  | [], _ => none
  | (k, v) :: t, i => if k = i then some v else tfind t i

/-- Lists `v` at key `i`, keys rising. -/
def tset {α : Type} : AList α → Nat → α → AList α
  | [], i, v => [(i, v)]
  | (k, w) :: t, i, v =>
    if k = i then (i, v) :: t else if i < k then (i, v) :: (k, w) :: t else (k, w) :: tset t i v

/-- Takes key `i` out of the table. -/
def tdel {α : Type} : AList α → Nat → AList α
  | [], _ => []
  | (k, w) :: t, i => if k = i then tdel t i else (k, w) :: tdel t i

/-! ## Bits and numbers (R31) -/

/-- Bits `hi` down to `lo` of a number (R31). -/
def bits (x hi lo : Nat) : Nat := (x / 2 ^ lo) % 2 ^ (hi + 1 - lo)

/-- Bit `i` of a number. -/
def bitAt (x i : Nat) : Bool := (x / 2 ^ i) % 2 == 1

/-- A Bool as a number. -/
def b2n (b : Bool) : Nat := if b then 1 else 0

/-- The low `w` bits of `x` read as two's complement. -/
def signed (w x : Nat) : Int :=
  let y := x % 2 ^ w
  if y < 2 ^ (w - 1) then (y : Int) else (y : Int) - (2 ^ w : Nat)

/-- An integer modulo 2^w. -/
def wrap (w : Nat) (i : Int) : Nat := (i % ((2 ^ w : Nat) : Int)).toNat

/-- An integer as a 128-bit pattern. -/
def toWord (i : Int) : Word := BitVec.ofNat 128 (wrap 128 i)

/-- The low `w` bits of `x`, sign-extended to 128 bits (SignExtend, R31). -/
def sext (w x : Nat) : Word := toWord (signed w x)

/-- The low `w` bits of `x`, zero-extended (ZeroExtend, R31). -/
def zext (w x : Nat) : Word := BitVec.ofNat 128 (x % 2 ^ w)

/-- Bits `hi` down to `lo` of a register's value. -/
def wbits (x : Word) (hi lo : Nat) : Nat := bits x.toNat hi lo

/-- The least number that is at least x / d. -/
def ceilDiv (x d : Nat) : Nat := (x + d - 1) / d

/-- Puts field `v` at bit `lo`. -/
def fld (v lo : Nat) : Nat := v * 2 ^ lo

/-- `x` with bits hi:lo replaced by `v`. -/
def setBits (x hi lo v : Nat) : Nat :=
  x - fld (bits x hi lo) lo + fld (v % 2 ^ (hi + 1 - lo)) lo

/-! ## Bytes (R32: little-endian) -/

/-- The `n` bytes of a value, least significant first. -/
def toBytes : Nat → Nat → List Byte
  | 0, _ => []
  | n + 1, v => BitVec.ofNat 8 v :: toBytes n (v / 256)

/-- The value of bytes, least significant first. -/
def ofBytes : List Byte → Nat
  | [] => 0
  | b :: t => b.toNat + 256 * ofBytes t

/-- The value of bytes, most significant first. -/
def ofBytesBE (l : List Byte) : Nat := ofBytes l.reverse

/-! ## Memory in its canonical form -/

/-- The byte at an address: an address not listed reads as zero (entry 2). -/
def memGet : List Host.Cell → Nat → Byte
  | [], _ => 0
  | (k, v) :: t, a => if k = a then v else memGet t a

/-- Writes one byte, keeping the canonical form: addresses rising, no byte listed that equals what an unlisted address reads as. -/
def memSet : List Host.Cell → Nat → Byte → List Host.Cell
  | [], a, b => if b = 0 then [] else [(a, b)]
  | (k, v) :: t, a, b =>
    if k = a then (if b = 0 then t else (a, b) :: t)
    else if a < k then (if b = 0 then (k, v) :: t else (a, b) :: (k, v) :: t)
    else (k, v) :: memSet t a b

/-- The `n` bytes from an address on. -/
def memBytes (m : List Host.Cell) (a : Nat) : Nat → List Byte
  | 0 => []
  | n + 1 => memGet m a :: memBytes m (a + 1) n

/-- Writes bytes from an address on. -/
def memPut (m : List Host.Cell) (a : Nat) : List Byte → List Host.Cell
  | [] => m
  | b :: t => memPut (memSet m a b) (a + 1) t

/-- The `n`-byte value at an address. -/
def memRead (m : List Host.Cell) (a n : Nat) : Nat := ofBytes (memBytes m a n)

/-- Writes an `n`-byte value. -/
def memWrite (m : List Host.Cell) (a n v : Nat) : List Host.Cell := memPut m a (toBytes n v)

/-- Every listed address is at least `lo`, addresses rise strictly, and no listed byte is zero. -/
def Memory.wfFrom : Nat → List Host.Cell → Bool
  | _, [] => true
  | lo, (k, v) :: t => decide (lo ≤ k) && decide (v ≠ 0) && Memory.wfFrom (k + 1) t

/-- The canonical form of a memory: equal memories are equal lists. -/
def Memory.wf (m : List Host.Cell) : Bool := Memory.wfFrom 0 m

/-- Takes a number out of a rising list. -/
def sortedDel : List Nat → Nat → List Nat
  | [], _ => []
  | k :: t, i => if k = i then t else k :: sortedDel t i

/-- Puts a number into a rising list, once. -/
def sortedAdd : List Nat → Nat → List Nat
  | [], i => [i]
  | k :: t, i => if k = i then k :: t else if i < k then i :: k :: t else k :: sortedAdd t i

end Sys2Proof.Machine
end

