-- ==== Sys2Proof/Config.lean ====
section
/-! DEFINITION. What a device fixes and what the spec leaves open: opaque constants, so that no proof can rest on a value of them. -/

namespace Sys2Proof.Config

/-- Free value: the further cycles that pass with the step whose tick is given (entry 3): the latencies that are not modelled. -/
opaque stallCycles : Nat → Nat

/-- Free value: which of the events that may happen at a tick happens next, and which core moves next (entry 4). -/
opaque pick : Nat → Nat

/-- Free value: which of the values that a word of the store has had since the last fetch fence a fetch returns (R123). -/
opaque fetchWhich : Nat → Nat

/-- Free value: whether a word fetched before the IFENCE decodes by the old table (R140). -/
opaque fetchOld : Nat → Bool

/-- Free value: the launch identifier from which the launch numbered looks for one that no live launch has (R103, entry 94). -/
opaque launchId : Nat → Nat

/-- Free value: the hold-list entry from which a bank held at the tick given looks for a free one (R204, entry 94). -/
opaque holdEntry : Nat → Nat

/-- Free value: the place, among the free areas, of those that a pre-emption at the tick given takes (R346, entry 94). -/
opaque areaPlace : Nat → Nat

/-- Free value: the 256-bit nonce of the draw numbered (R387). -/
opaque nonce : Nat → BitVec 256

/-- The device identifier in the fuses (R387). -/
opaque devid : BitVec 64

/-- The device identity private key of slot 0 (R388), derived from the fuses. -/
opaque identityKey : BitVec 512

/-- The vendor's SM2 public key of slot 1 (R388), from the fuses: x in the low 32 bytes as the key slot stores it, then y. -/
opaque vendorKey : BitVec 512

/-- The firmware image that Nolorn's boot code hashes (R390). -/
opaque firmwareImage : List Byte

/-- The signature that comes with the firmware image, r then s (R390), 32 big-endian bytes each. -/
opaque firmwareSignature : List Byte

/-- Free value: the destination of a leaf choice inside a broken 64 KiB group: which entry of the group a translation uses (R223). -/
opaque contEntry : Nat → Nat

/-- Free value: whether a walk at the tick given uses the walk cache at a level, where it holds the entry (R225). -/
opaque walkCached : Nat → Nat → Bool

/-- Free value: whether an invalidation that completes at the tick given drops every entry of its function (R375). -/
opaque invalAll : Nat → Bool

/-- Free value: the source core and kind that a bank's write trace gives for Saffron's bankdata writes (R117, R302). -/
opaque saffronSource : Nat × Nat

/-- The channels of a die that training at bring-up finds failed (R120). -/
opaque failedChannels : Nat → List Nat

/-- The banks of a die that the self-test of bring-up finds failed (R120). -/
opaque failedBanks : Nat → List Nat

/-- The cores of a die that the self-test of bring-up finds failed (R120). -/
opaque failedCores : Nat → List Nat

/-- The links of a die of which the self-test of bring-up finds a lane failed (R120), a link once for each lane. -/
opaque failedLanes : Nat → List Nat

/-- Free value: how the VAL of a receive-cycle record lists the participants, cores and addresses (R313). -/
opaque cycleVal : List (Nat × Nat) → Word

/-- Free value: what a read of %dbgopen returns (R387): the spec names no field of it. -/
opaque dbgopen : Nat → BitVec 128

/-- Free value: whether the snapshot before is still being written at the pulse of a tick (R374). -/
opaque duskBusy : Nat → Bool

/-- Free value: the lines, by address, that the copying of a retired channel cannot read (R383), at the tick given. -/
opaque unreadableLines : Nat → List Nat

/-- The areas of the save store that firmware reserves in a die's memory (R346), in units of 1 MiB. -/
opaque saveStore : Nat → List Nat

/-- The capacity that the device behind a CXL port decodes (R381), in bytes. -/
opaque cxlCapacity : Nat → Nat

/-- Free value: the cause code of a retirement's record in the management log (R355), which the spec does not give. -/
opaque retirementCause : BitVec 8

/-- Free value: the cause code of a thermal record (R385), which the spec does not give. -/
opaque thermalCause : BitVec 8

end Sys2Proof.Config
end

