-- ==== Sys2Proof/Payload.lean ====
section
/-! DEFINITION. The plain data that the events of the machine carry: requests, answers and messages under way. Cores are numbered
0 to 4,095 by the CORE layout (R106), Clove cores 4,096 + 28 x die + 4 x link + core (R326), the Nolorn core 4,208. Banks are
numbered 512 x cluster + identifier (R187), clusters 16 x die + cluster. Functions: 0 and 1 the physical functions, 1 + v the
virtual function v (R100, R377). -/

namespace Sys2Proof

/-- An instance of a launch: die, launch identifier, node index and instance number (R72, R110). -/
structure InstRef where
  die : Nat
  launch : Nat
  node : Nat
  n : Nat
deriving DecidableEq, Repr

/-- A hand-over under way (R200), made by HAND, by an heir policy (R203) or by REVK (R204). `origin`: 0 HAND, 1 heir of a kill, 2 REVK of a
slot, 3 REVK of a hold entry, 4 heir of a killed context that stood saved. `tenant`: the issuer's TENANT and TMASK, none for a context with
no region (R77). -/
structure HandReq where
  origin : Nat
  core : Nat
  sup : Bool
  slot : Nat
  bank : Nat
  target : Nat
  tslot : Nat
  reg : Nat
  tenant : Option (Nat × Nat)
  cls : Nat
  perm : Nat
  rpol : Nat := 0
  rcb : Option Nat
deriving DecidableEq, Repr

/-- The answer of a hand-over on its way back (R200 step 5). -/
structure HandAns where
  req : HandReq
  status : Nat
deriving DecidableEq, Repr

/-- A message of SEND on its way (R306, R307, R311). `reg`: the register its status goes to; 64 where no context awaits it;
65 + 64 x place + register where the sender has moved: to another core, or to a save area (8,418 + its address). `sent`: the step that sent
it, for its place in a die link's queue (R292). -/
structure Msg where
  src : Nat
  sup : Bool
  target : Nat
  payload : Word
  tag : Nat
  reg : Nat
  tenant : Option (Nat × Nat)
  clock : List Nat
  sent : Nat := 0
deriving DecidableEq, Repr

/-- A decrement on its way to the counter slice (R110, R320). `reg`: none for a decrement of a TDONE commit. -/
structure DecReq where
  target : InstRef
  byNode : Nat
  core : Nat
  pc : Nat
  reg : Option Nat
deriving DecidableEq, Repr

/-- A TSPAWN request on its way to the counter slice (R319). `asked`: the page that its expansion waits for (R71). -/
structure SpawnReq where
  core : Nat
  sup : Bool
  reg : Nat
  tpl : Nat
  dst : Nat
  rcs : Nat
  node : Nat
  cnt : Nat
  asked : Option Nat := none
deriving DecidableEq, Repr

/-- A re-demand on its way to the counter slice (R96, R325): the consumer, its rank, the input and the code. -/
structure RedemandReq where
  consumer : InstRef
  rank : Nat
  input : Nat
  code : Nat
deriving DecidableEq, Repr

/-- One line of a forwarding chain (R317): the members still to be served, and what the leader learns at the end. -/
structure ChainLine where
  lead : Nat
  sup : Bool
  reg : Nat
  tag : Nat
  len : Nat
  off : Nat
  bytes : List Byte
  members : List Nat
  index : Nat
  failed : Option Nat
  last : Bool
deriving DecidableEq, Repr

/-- A remote matrix command (R284): the command word and the two registers that stand in for its operands. `pc`: of the MSND; 65,536
where the sender's context has ended; `grd`: the guard that the MSND is bound to; `clock`: of its die when it was sent (R295). -/
structure MsndReq where
  src : Nat
  sup : Bool
  target : Nat
  word : BitVec 32
  k1 : Word
  t1 : Bool
  k2 : Word
  t2 : Bool
  tenant : Option (Nat × Nat)
  pc : Nat
  grd : Option Nat := none
  clock : List Nat := [0, 0, 0, 0]
deriving DecidableEq, Repr

/-- A contribution to a collective, delivered as a block notice (R326). -/
structure BlockNotice where
  die : Nat
  link : Nat
  rank : Nat
  block : Nat
  bytes : List Byte
deriving DecidableEq, Repr

/-- What the outside world does to the module by a way that the spec describes and the opcode table has no row for. -/
inductive Input where
  /-- A function's posted write of up to 128 bytes to device memory (R244). -/
  | hostWrite (fn pa : Nat) (bytes : List Byte)
  /-- A debugger writes a register of a halted context (R363). -/
  | portReg (c n : Nat) (v : Word)
  /-- A debugger writes a special register of a halted context (R363). -/
  | portSpecial (c h : Nat) (v : Word)
  /-- A debugger writes an entry of a halted context's attach table (R363). -/
  | portEntry (c slot : Nat) (w : BitVec 32)
deriving DecidableEq, Repr

end Sys2Proof
end

