-- ==== Sys2Proof/Event.lean ====
section
/-! DEFINITION. The events of the device that have no encoding, as the machine keeps those under way: one constructor for each such
row of the opcode table, with the row's own arguments. `Instr` (Syntax.lean) has the same constructors beside the words; a compiled
Lean program can build a value of at most 245 constructors with arguments of one type, so that the machine's lists hold this type. -/

namespace Sys2Proof

/-- One event of the device. -/
inductive Event where
  /-- An engine discards a guarded command whose resolution is FALSE at its queue head. (R151) -/
  | guardFalseDiscard (c eng : Nat)
  /-- A user trap records its cause and starts the supervisor at the vector, or kills the context when traps are off. (R333) -/
  | trapEntry (c : Nat) (cause : BitVec 8) (pc : BitVec 16) (val : Word)
  /-- A waiting imprecise cause is taken at the user context's next instruction boundary. (R335) -/
  | impreciseTrapTake (c : Nat)
  /-- A trap raised by the supervisor enters its own vector, or becomes a double trap. (R336) -/
  | supervisorTrap (c : Nat) (cause : BitVec 8) (pc : BitVec 16) (val : Word)
  /-- A user context is killed: group aborted, engines stopped, banks revoked, accounts committed and a record written. (R340) -/
  | contextKill (c : Nat) (cause : BitVec 8) (pc : BitVec 16) (val : Word)
  /-- A pre-emption request stops, drains and saves a resident user context. (R343) -/
  | preemption (c : Nat)
  /-- A suspended context is reloaded from its save area and resumes. (R343) -/
  | contextRestore (c area : Nat)
  /-- A resident counter reaching 2^47 forces an accounting commit. (R155) -/
  | accountCounterLimit (c : Nat)
  /-- At the counter slice, the task parks or disposes of banks, decrements successors, records retention and commits accounts. (R321) -/
  | tdoneCommit (c : Nat)
  /-- A decrement reaches the counter slice and makes the instance READY at zero, or records an underflow. (R110) -/
  | dependenceDecrement (r : DecReq)
  /-- The counter slice reads tile records and creates the spawned launch's instances. (R109) -/
  | tspawnExpansion (r : SpawnReq)
  /-- A re-demand is taken at the counter slice and re-arms or refuses the producer. (R96) -/
  | redemand (r : RedemandReq)
  /-- The counter slice commits or aborts a transaction group in one step. (R352) -/
  | txCommit (c : Nat)
  /-- A group open for 65,536 cycles of %ctime aborts. (R353) -/
  | txTimeout (c : Nat)
  /-- Active message that checks and accepts a template launch. (R103) -/
  | launch (die fn : Nat) (msg : BitVec 512)
  /-- Saffron computes and writes the demand words of a launch's instances. (R87) -/
  | demandSweep (die id : Nat)
  /-- Active message that starts a core's supervisor context directly. (R106) -/
  | corestart (die fn : Nat) (msg : BitVec 512)
  /-- Active message that ends a launch's instances at the counter slice. (R107) -/
  | cancel (die fn : Nat) (msg : BitVec 512)
  /-- Active message that registers or replaces a code image. (R108) -/
  | imgreg (die fn : Nat) (msg : BitVec 512)
  /-- Active message that removes a registered image. (R108) -/
  | imgdrop (die fn : Nat) (msg : BitVec 512)
  /-- A 64-byte host write enters a die's message queue, or is dropped when full. (R376) -/
  | activeMessageEnqueue (die fn : Nat) (msg : BitVec 512)
  /-- A held completion record is written to the function's ring when space appears. (R376) -/
  | completionRecordWrite (fn : Nat)
  /-- Saffron selects one task per cycle, applying fairness refill, and reserves its placement. (R112) -/
  | taskSelect (die : Nat)
  /-- Saffron wakes, loads, attaches banks and writes bankdata for a placed instance. (R117) -/
  | instanceStart (r : InstRef)
  /-- The start message arrives after its stores and starts the context. (R123) -/
  | startMessage (c : Nat)
  /-- A task waiting 524,288 cycles enters the starved queue. (R112) -/
  | starvation (r : InstRef)
  /-- A waiting task rises one priority level per 65,536 cycles. (R114) -/
  | priorityAging (r : InstRef)
  /-- After 4,096 cycles without placement, Saffron requests pre-emption of a lower task. (R118) -/
  | preemptDecision (die : Nat)
  /-- Saffron starts the fault-domain handler when WR passes what it last covered. (R342) -/
  | faultHandlerStart (die flog : Nat)
  /-- A core without residency for 16,384 cycles begins gating. (R119) -/
  | coreGatingStart (c : Nat)
  /-- A core's gating reaches its commit point at g + 32. (R119) -/
  | coreGatingCommit (c : Nat)
  /-- A gated core powers off at g + 64. (R119) -/
  | corePowerOff (c : Nat)
  /-- A cluster idle for 65,536 cycles begins gating. (R119) -/
  | clusterGatingStart (cl : Nat)
  /-- A cluster's gating reaches its commit point at g + 256. (R119) -/
  | clusterGatingCommit (cl : Nat)
  /-- A gated cluster powers off at g + 512, clearing image residency. (R119) -/
  | clusterPowerOff (cl : Nat)
  /-- A placement, message, store, start or debug access wakes a gating or gated target. (R119) -/
  | wake (cluster : Bool) (ix : Nat)
  /-- A woken core or cluster finishes powering up and held traffic is delivered. (R119) -/
  | powerUpDone (cluster : Bool) (ix : Nat)
  /-- A function's write of ACQ takes a free semaphore. (R101) -/
  | semAcquire (fn sem : Nat)
  /-- The owner's write of REL frees a semaphore. (R101) -/
  | semRelease (fn sem : Nat)
  /-- Resets a function, cancelling its launches, dropping its images and releasing its semaphores. (R100) -/
  | functionLevelReset (fn : Nat)
  /-- Invalidates every entry of the selected stage for the function. (R375) -/
  | invalFunction (fn : Nat) (stage2 : Bool)
  /-- Invalidates the entries of one 4 KiB page. (R375) -/
  | invalPage (fn : Nat) (stage2 : Bool) (addr : Nat)
  /-- Invalidates the entries of one 1 GiB region. (R375) -/
  | invalRegion (fn : Nat) (stage2 : Bool) (addr : Nat)
  /-- An invalidation completes once every buffer and walk cache has dropped its entries. (R225) -/
  | invalComplete (fn : Nat)
  /-- Sets a function's NumVFs, ignored if the sum would exceed 62. (R377) -/
  | numvfsWrite (fn n : Nat) (enable : Bool)
  /-- A remote store writes one word of an instruction store. (R122) -/
  | istoreHostWrite (fn c addr : Nat) (w : BitVec 32)
  /-- Writes a cluster's pool configuration, dropped with WERR when banks are in use. (R188) -/
  | cpoolWrite (cl : Nat) (v : BitVec 64)
  /-- Holds or releases a die in reset under semaphore 1. (R378) -/
  | dieResetHold (fn die : Nat) (hold : Bool)
  /-- Resets the whole module. (R378) -/
  | moduleReset (fn : Nat)
  /-- Stops the core clock of every die under semaphore 2. (R378) -/
  | clockStop (fn : Nat) (stop : Bool)
  /-- Stages a firmware image address for Nolorn, refused when retired. (R380) -/
  | fwupdWrite (fn : Nat) (v : BitVec 64)
  /-- Places one inbox message in the Nolorn core's inbox after earlier mailbox writes. (R380) -/
  | nmboxDoorbell (fn : Nat) (v : BitVec 32)
  /-- The host writes the Nolorn mailbox under semaphore 0. (R380) -/
  | mailboxWrite (fn off : Nat) (bytes : List Byte)
  /-- Creates a tagged core-space capability at a module address. (R379) -/
  | capgenWrite (fn : Nat) (v : BitVec 256)
  /-- Configures a Clove block queue, dropped while notices are undelivered. (R378) -/
  | bqcfgWrite (fn link : Nat) (v : BitVec 256)
  /-- Writes a device register that has no row of its own. (R378) -/
  | registerWrite (fn off : Nat) (v : BitVec 64)
  /-- Every core latches its state in one cycle and a snapshot record is written. (R373) -/
  | duskPulse
  /-- The Dusk period expires and raises a pulse. (R373) -/
  | duskPeriodExpiry
  /-- Module power good starts bring-up in its fixed order. (R120) -/
  | powerGood
  /-- A die at 100 °C sets THERMAL and makes its gated clusters infeasible. (R385) -/
  | thermalWarning (die : Nat)
  /-- A die falling below 95 °C makes its gated clusters feasible again. (R385) -/
  | thermalClear (die : Nat)
  /-- A die at 110 °C logs and resets the module. (R385) -/
  | thermalTrip (die : Nat)
  /-- A buffered global access enters its network-interface lane. (R293) -/
  | accessForward (id : Nat)
  /-- An interface lane sends its oldest access to its slice or die link. (R293) -/
  | accessSend (id : Nat)
  /-- A die-link entry reaches its slice, bank port or message target. (R293) -/
  | linkCross (id : Nat)
  /-- A bank port performs its oldest access after the table check. (R293) -/
  | bankPerform (id : Nat)
  /-- A home slice applies a write or serves a read that the causal rule permits. (R295) -/
  | homeApply (id : Nat)
  /-- A served read's value returns and merges its clock into the die clock. (R293) -/
  | readReturn (id : Nat)
  /-- A walk ends translated, not present, permission or malformed. (R226) -/
  | translationWalk (id : Nat)
  /-- A response restarts or fails the waiting accesses after earlier host writes. (R244) -/
  | pageRequestResponse (fn group code : Nat)
  /-- A request unanswered for 2^26 cycles is treated as Response Failure. (R227) -/
  | pageRequestTimeout (fn group : Nat)
  /-- A hand-over request reaches the target table and is accepted or refused. (R200) -/
  | handoverRequest (r : HandReq)
  /-- The answer returns to the issuer, writing kD or restoring the source entry. (R200) -/
  | handoverAnswer (a : HandAns)
  /-- A message reaches a target context's inbox or is refused. (R306) -/
  | messageArrival (m : Msg)
  /-- A tagged message matches a posted receive or enters the overflow queue. (R311) -/
  | taggedMessageArrival (m : Msg)
  /-- A neighbour port word becomes readable two cycles after its write. (R309) -/
  | portWordArrival (c port : Nat) (w : Word)
  /-- Participants leave a released barrier episode after the scope latency. (R314) -/
  | barrierLeave (key : Nat)
  /-- A chain line is performed at a member's reservation and passed on. (R317) -/
  | chainLineArrival (l : ChainLine)
  /-- A RECV wait expires with KIND 0xFE. (R308) -/
  | recvTimeout (c : Nat)
  /-- A PROBE wait expires with TIMEOUT. (R312) -/
  | probeTimeout (c : Nat)
  /-- A wait lasting 2^16 cycles sends probes along its wait-for edges. (R313) -/
  | waitForProbe (c : Nat)
  /-- A returning probe proves a cycle and one receive-cycle record is written. (R313) -/
  | receiveCycle (cores : List Nat)
  /-- An attached follower issues a word the leader forwarded. (R126) -/
  | forwardedWordIssue (c : Nat)
  /-- The vector engine takes its head command once its guard has resolved. (R250) -/
  | vectorCommandTake (c : Nat)
  /-- The vector engine issues one element group. (R250) -/
  | vectorGroup (c : Nat)
  /-- A vector command completes, ORing its flags and writing any register result. (R250) -/
  | vectorCommandComplete (c : Nat)
  /-- A tile fill finishes and its group becomes FULL or FAULTED. (R273) -/
  | mldFillComplete (c slot : Nat)
  /-- An MMA's cells are written 4 cycles after its last cycle. (R278) -/
  | accumulatorWriteback (c ac : Nat)
  /-- An MDRN, flush or MSPL completes when its writes have been performed. (R281) -/
  | matrixStoreComplete (c : Nat)
  /-- A remote matrix command enters the target's queue or is refused. (R284) -/
  | msndAccept (r : MsndReq)
  /-- The copy engine starts its head command, up to 64 in flight. (R234) -/
  | copyStart (c : Nat)
  /-- A copy completes, releasing if asked, and decrements its counter. (R234) -/
  | copyComplete (c id : Nat)
  /-- A returned bank finishes its 256-cycle scrub and becomes free. (R196) -/
  | bankScrubDone (bank : Nat)
  /-- A correctable error is corrected and counted. (R354) -/
  | eccCorrected (cls ix : Nat)
  /-- An uncorrectable bank line is zeroed and a data-loss record written. (R215) -/
  | bankLineLoss (bank line : Nat)
  /-- An uncorrectable instruction-store word is zeroed and logged. (R121) -/
  | istoreWordLoss (c addr : Nat)
  /-- An uncorrectable home, LPDDR or CXL line is zeroed with tags 0 and logged. (R220) -/
  | homeLineLoss (addr kind key : Nat)
  /-- A lost operand row, accumulator cell, register or queue entry is zeroed or dropped and logged. (R354) -/
  | deviceStateLoss (c unit ix : Nat)
  /-- A resource whose error counts pass the threshold is marked for retirement. (R355) -/
  | retirementMark (kind ix : Nat)
  /-- A marked resource is taken out of service at its next idle moment. (R355) -/
  | resourceRetire (kind ix : Nat)
  /-- A retired channel's data is spread over the spare parts of the die. (R383) -/
  | channelRetire (die ch : Nat)
  /-- A failing Gwesko lane is replaced by the spare and the link retrains. (R382) -/
  | laneSpareSwap (link lane : Nat)
  /-- A link resumes full rate after 4,096 cycles of retraining. (R382) -/
  | laneRetrainDone (link : Nat)
  /-- A link without a spare loses a lane and runs on 7 lanes. (R382) -/
  | laneLost (link lane : Nat)
  /-- A CXL port's link goes down and accesses to its range fail as uncorrectable. (R381) -/
  | cxlLinkDown (port : Nat)
  /-- A CXL link retrains and its range is usable again. (R381) -/
  | cxlLinkRetrain (port : Nat)
  /-- A port request halts the user context at an instruction boundary. (R362) -/
  | debugHaltRequest (c : Nat)
  /-- The debugger releases a halted context, acting as an IFENCE. (R363) -/
  | debugRelease (c : Nat)
  /-- The debugger releases a halted context to issue one instruction and halt again. (R363) -/
  | debugStep (c : Nat)
  /-- A debug-port write patches one or a masked set of instruction stores. (R366) -/
  | debugPatchWrite (cores : List Nat) (addr : Nat) (w : BitVec 32)
  /-- The encoder writes a trace record to its buffer or drops it. (R371) -/
  | traceRecordWrite (c : Nat) (r : BitVec 64)
  /-- Writes a decode-table entry and advances %dtidx. (R139) -/
  | dtentWrite (v : Word)
  /-- Writes the stochastic generator after earlier rsto draws, storing 1 for 0. (R150) -/
  | rseedWrite (v : Word)
  /-- Writes the trace controls, clearing CAP when EN is set. (R369) -/
  | trctlWrite (v : Word)
  /-- Selects a slot's bank write trace ring and turns it on or off. (R372) -/
  | bwtcWrite (v : Word)
  /-- Removes and returns the oldest record of the selected write trace ring. (R372) -/
  | bwtrRead (d : BitVec 6)
  /-- A read of %nonce0 draws a fresh 256-bit nonce. (R387) -/
  | nonceDraw (d : BitVec 6)
  /-- Opens the debug port and sets UNLK when FUSE, WIPED and EXT allow. (R387) -/
  | dbgopenWrite (v : Word)
  /-- A write of a higher FUSE starts blowing the lifecycle fuses. (R386) -/
  | fuseWrite (v : Word)
  /-- The fuse write completes after 100,000 cycles. (R386) -/
  | fuseBlowDone
  /-- At the end of each 1,024-cycle window, each router compares its link flit counts with the die mean and switches two-phase routing on
  or off for the next window. (R318) -/
  | twoPhaseRoutingWindow (die : Nat) (counts : List Nat)
  /-- A collective contribution arrives over a link, and the link's block queue delivers it to Clove core b mod 4 as a block notice in rank
  order. (R326) -/
  | blockNoticeArrival (b : BlockNotice)
  /-- The PCI Express link finishes training, both physical functions set their ready status, and the messages held in their windows are
  processed in queue order. (R120) -/
  | functionReady
deriving DecidableEq, Repr

end Sys2Proof
end

