-- ==== Sys2Proof/Syntax.lean ====
section
/-! DEFINITION. The operations of the machine: one constructor for each row of the opcode table. The first 251 are instruction
words (R130, R144), their fields as the word holds them: `d`, `a`, `b` general registers, `x`, `y`, `z` the E-format fields, `g` the
guard (R131: none when GE = 0). The others are the events of the device that have no encoding. -/

namespace Sys2Proof

/-- One row of the opcode table: an instruction word, or an event of the device. -/
inductive Instr where
  /-- Wide-immediate hint word that carries 22 immediate bits for a following LDI or ADDL. (R133) -/
  | hx (p : BitVec 22)
  /-- Vector-extras hint word that carries the mask, policy, rounding, tolerance and fourth-operand items for the instruction after it. (R134) -/
  | hv (t : Bool) (o : BitVec 8) (e : Bool) (m : BitVec 3) (p : BitVec 2) (r : BitVec 3) (f : Bool) (s : BitVec 3)
  /-- Loads the sign-extended wide immediate into kD and clears its tag. (R161) -/
  | ldi (d : BitVec 6) (i : BitVec 16)
  /-- Adds the wide immediate to kD modulo 2^128. (R161) -/
  | addl (d : BitVec 6) (i : BitVec 16)
  /-- Copies a special register into a general register with tag 0. (R150) -/
  | srd (d : BitVec 6) (h : BitVec 16)
  /-- Writes a special register from a general register, trapping on reserved bits or missing write access. (R150) -/
  | swr (d : BitVec 6) (h : BitVec 16)
  /-- Raises software trap cause 0x80 + n precisely, with %tval := K[a]. (R337) -/
  | trap (a : BitVec 6) (i : BitVec 7)
  /-- Supervisor saves the loaded, non-dispatched user context to a save area. (R348) -/
  | ctxsv (d : BitVec 6) (a : BitVec 6)
  /-- Supervisor checks a save area and loads a user context from it. (R349) -/
  | ctxld (d : BitVec 6) (a : BitVec 6)
  /-- Pushes a range label onto the label stack. (R368) -/
  | lblpush (i : BitVec 16)
  /-- Integer add at width 128, 64 or 32. (R162) -/
  | add (d : BitVec 6) (a : BitVec 6) (b : BitVec 6) (n : BitVec 2)
  /-- Integer subtract. (R162) -/
  | sub (d : BitVec 6) (a : BitVec 6) (b : BitVec 6) (n : BitVec 2)
  /-- Integer multiply, low part. (R162) -/
  | mul (d : BitVec 6) (a : BitVec 6) (b : BitVec 6) (n : BitVec 2)
  /-- Signed multiply, high part. (R162) -/
  | mulh (d : BitVec 6) (a : BitVec 6) (b : BitVec 6) (n : BitVec 2)
  /-- Unsigned multiply, high part. (R162) -/
  | mulhu (d : BitVec 6) (a : BitVec 6) (b : BitVec 6) (n : BitVec 2)
  /-- Signed divide; a zero divisor traps under DZT or gives -1. (R163) -/
  | div (d : BitVec 6) (a : BitVec 6) (b : BitVec 6) (n : BitVec 2)
  /-- Unsigned divide, with the zero-divisor rule. (R163) -/
  | divu (d : BitVec 6) (a : BitVec 6) (b : BitVec 6) (n : BitVec 2)
  /-- Signed remainder, with the zero-divisor rule. (R163) -/
  | rem (d : BitVec 6) (a : BitVec 6) (b : BitVec 6) (n : BitVec 2)
  /-- Unsigned remainder, with the zero-divisor rule. (R163) -/
  | remu (d : BitVec 6) (a : BitVec 6) (b : BitVec 6) (n : BitVec 2)
  /-- Bitwise and. (R162) -/
  | and (d : BitVec 6) (a : BitVec 6) (b : BitVec 6) (n : BitVec 2)
  /-- Bitwise or. (R162) -/
  | or (d : BitVec 6) (a : BitVec 6) (b : BitVec 6) (n : BitVec 2)
  /-- Bitwise exclusive or. (R162) -/
  | xor (d : BitVec 6) (a : BitVec 6) (b : BitVec 6) (n : BitVec 2)
  /-- Shift left logical by a register amount. (R162) -/
  | sll (d : BitVec 6) (a : BitVec 6) (b : BitVec 6) (n : BitVec 2)
  /-- Shift right logical by a register amount. (R162) -/
  | srl (d : BitVec 6) (a : BitVec 6) (b : BitVec 6) (n : BitVec 2)
  /-- Shift right arithmetic by a register amount. (R162) -/
  | sra (d : BitVec 6) (a : BitVec 6) (b : BitVec 6) (n : BitVec 2)
  /-- Rotate left. (R162) -/
  | rol (d : BitVec 6) (a : BitVec 6) (b : BitVec 6) (n : BitVec 2)
  /-- Rotate right. (R162) -/
  | ror (d : BitVec 6) (a : BitVec 6) (b : BitVec 6) (n : BitVec 2)
  /-- Counts leading zero bits. (R162) -/
  | clz (d : BitVec 6) (a : BitVec 6) (n : BitVec 2)
  /-- Counts trailing zero bits. (R162) -/
  | ctz (d : BitVec 6) (a : BitVec 6) (n : BitVec 2)
  /-- Counts one bits. (R162) -/
  | popc (d : BitVec 6) (a : BitVec 6) (n : BitVec 2)
  /-- Signed minimum. (R162) -/
  | min (d : BitVec 6) (a : BitVec 6) (b : BitVec 6) (n : BitVec 2)
  /-- Signed maximum. (R162) -/
  | max (d : BitVec 6) (a : BitVec 6) (b : BitVec 6) (n : BitVec 2)
  /-- Unsigned minimum. (R162) -/
  | minu (d : BitVec 6) (a : BitVec 6) (b : BitVec 6) (n : BitVec 2)
  /-- Unsigned maximum. (R162) -/
  | maxu (d : BitVec 6) (a : BitVec 6) (b : BitVec 6) (n : BitVec 2)
  /-- Sets 1 when signed kA < kB. (R162) -/
  | slt (d : BitVec 6) (a : BitVec 6) (b : BitVec 6) (n : BitVec 2)
  /-- Sets 1 when unsigned kA < kB. (R162) -/
  | sltu (d : BitVec 6) (a : BitVec 6) (b : BitVec 6) (n : BitVec 2)
  /-- Selects kA when the old kD is nonzero, else kB. (R164) -/
  | sel (d : BitVec 6) (a : BitVec 6) (b : BitVec 6)
  /-- Sign-extends the low 8, 16, 32 or 64 bits. (R164) -/
  | sext (d : BitVec 6) (a : BitVec 6) (n : BitVec 2)
  /-- Zero-extends the low 8, 16, 32 or 64 bits. (R164) -/
  | zext (d : BitVec 6) (a : BitVec 6) (n : BitVec 2)
  /-- Extracts a bit field described by kB, zero- or sign-extended. (R165) -/
  | bfx (d : BitVec 6) (a : BitVec 6) (b : BitVec 6) (n : Bool)
  /-- Inserts a bit field of kA into kD. (R165) -/
  | bfi (d : BitVec 6) (a : BitVec 6) (b : BitVec 6)
  /-- Adds a signed 10-bit immediate. (R166) -/
  | addi (d : BitVec 6) (a : BitVec 6) (i : BitVec 10)
  /-- Bitwise and with an immediate. (R166) -/
  | andi (d : BitVec 6) (a : BitVec 6) (i : BitVec 10)
  /-- Bitwise or with an immediate. (R166) -/
  | ori (d : BitVec 6) (a : BitVec 6) (i : BitVec 10)
  /-- Bitwise exclusive or with an immediate. (R166) -/
  | xori (d : BitVec 6) (a : BitVec 6) (i : BitVec 10)
  /-- Shifts left by an immediate amount at a coded width. (R166) -/
  | slli (d : BitVec 6) (a : BitVec 6) (w : BitVec 2) (m : BitVec 7)
  /-- Shifts right logically by an immediate amount. (R166) -/
  | srli (d : BitVec 6) (a : BitVec 6) (w : BitVec 2) (m : BitVec 7)
  /-- Shifts right arithmetically by an immediate amount. (R166) -/
  | srai (d : BitVec 6) (a : BitVec 6) (w : BitVec 2) (m : BitVec 7)
  /-- Sets 1 when signed kA is below the immediate. (R166) -/
  | slti (d : BitVec 6) (a : BitVec 6) (i : BitVec 10)
  /-- Sets 1 when unsigned kA is below the extended immediate. (R166) -/
  | sltiu (d : BitVec 6) (a : BitVec 6) (i : BitVec 10)
  /-- Multiplies by a signed immediate. (R166) -/
  | muli (d : BitVec 6) (a : BitVec 6) (i : BitVec 10)
  /-- Narrows a capability's bounds, clearing the tag when the result is not valid. (R173) -/
  | csetb (d : BitVec 6) (a : BitVec 6) (b : BitVec 6) (x : Bool)
  /-- Masks a capability's permission bits. (R174) -/
  | cperm (d : BitVec 6) (a : BitVec 6) (b : BitVec 6)
  /-- Moves a capability's address by a signed offset. (R174) -/
  | coff (d : BitVec 6) (a : BitVec 6) (b : BitVec 6)
  /-- Reads a capability's address. (R175) -/
  | cgadr (d : BitVec 6) (a : BitVec 6)
  /-- Reads a capability's base. (R175) -/
  | cgbas (d : BitVec 6) (a : BitVec 6)
  /-- Reads a capability's length. (R175) -/
  | cglen (d : BitVec 6) (a : BitVec 6)
  /-- Reads a capability's permissions, seal and tag. (R175) -/
  | cgprm (d : BitVec 6) (a : BitVec 6)
  /-- Copies a register with its tag cleared. (R175) -/
  | cclrt (d : BitVec 6) (a : BitVec 6)
  /-- Copies a register with its tag. (R175) -/
  | capmv (d : BitVec 6) (a : BitVec 6)
  /-- Seals a capability for use by operand records. (R174) -/
  | cseal (d : BitVec 6) (a : BitVec 6)
  /-- Branches when kA = kB. (R176) -/
  | beq (a : BitVec 6) (b : BitVec 6) (o : BitVec 10)
  /-- Branches when kA != kB. (R176) -/
  | bne (a : BitVec 6) (b : BitVec 6) (o : BitVec 10)
  /-- Branches on signed less than. (R176) -/
  | blt (a : BitVec 6) (b : BitVec 6) (o : BitVec 10)
  /-- Branches on signed greater or equal. (R176) -/
  | bge (a : BitVec 6) (b : BitVec 6) (o : BitVec 10)
  /-- Branches on unsigned less than. (R176) -/
  | bltu (a : BitVec 6) (b : BitVec 6) (o : BitVec 10)
  /-- Branches on unsigned greater or equal. (R176) -/
  | bgeu (a : BitVec 6) (b : BitVec 6) (o : BitVec 10)
  /-- Branches when a sampled state condition is true. (R177) -/
  | bc (c : BitVec 6) (s : BitVec 6) (o : BitVec 10)
  /-- Branches when a sampled state condition is false. (R177) -/
  | bnc (c : BitVec 6) (s : BitVec 6) (o : BitVec 10)
  /-- Jumps by a 22-bit word offset. (R178) -/
  | j (o : BitVec 22)
  /-- Jumps and links the return address into k63. (R178) -/
  | jal (o : BitVec 22)
  /-- Jumps to the address in kA, linking into kD, trapping on a misaligned target. (R178) -/
  | jr (d : BitVec 6) (a : BitVec 6)
  /-- Repeats the following body of n words count times with register staggering. (R180) -/
  | rep (d : BitVec 6) (c : BitVec 8) (t : BitVec 4) (n : BitVec 4)
  /-- Scalar float add, rounded once. (R168) -/
  | fadd (d : BitVec 6) (a : BitVec 6) (b : BitVec 6) (f : BitVec 2)
  /-- Scalar float subtract. (R168) -/
  | fsub (d : BitVec 6) (a : BitVec 6) (b : BitVec 6) (f : BitVec 2)
  /-- Scalar float multiply. (R168) -/
  | fmul (d : BitVec 6) (a : BitVec 6) (b : BitVec 6) (f : BitVec 2)
  /-- Scalar fused multiply-add into kD. (R168) -/
  | ffma (d : BitVec 6) (a : BitVec 6) (b : BitVec 6) (f : BitVec 2)
  /-- Scalar float minimum. (R169) -/
  | fmin (d : BitVec 6) (a : BitVec 6) (b : BitVec 6) (f : BitVec 2)
  /-- Scalar float maximum. (R169) -/
  | fmax (d : BitVec 6) (a : BitVec 6) (b : BitVec 6) (f : BitVec 2)
  /-- Float compare equal. (R169) -/
  | feq (d : BitVec 6) (a : BitVec 6) (b : BitVec 6) (f : BitVec 2)
  /-- Float compare less than. (R169) -/
  | flt (d : BitVec 6) (a : BitVec 6) (b : BitVec 6) (f : BitVec 2)
  /-- Float compare less or equal. (R169) -/
  | fle (d : BitVec 6) (a : BitVec 6) (b : BitVec 6) (f : BitVec 2)
  /-- Converts a scalar between formats 0 to 13. (R171) -/
  | fcvt (d : BitVec 6) (a : BitVec 6) (s : BitVec 5) (t : BitVec 5)
  /-- Classifies a float value into one of ten classes. (R170) -/
  | fclas (d : BitVec 6) (a : BitVec 6) (f : BitVec 4)
  /-- Sign injection on float bit patterns. (R170) -/
  | fsgnj (d : BitVec 6) (a : BitVec 6) (b : BitVec 6) (v : BitVec 2) (f : BitVec 2)
  /-- Local load of a signed byte. (R208) -/
  | ldBS (d : BitVec 6) (a : BitVec 6) (i : BitVec 10)
  /-- Local load of an unsigned byte. (R208) -/
  | ldBZ (d : BitVec 6) (a : BitVec 6) (i : BitVec 10)
  /-- Local load of a signed halfword. (R208) -/
  | ldHS (d : BitVec 6) (a : BitVec 6) (i : BitVec 10)
  /-- Local load of an unsigned halfword. (R208) -/
  | ldHZ (d : BitVec 6) (a : BitVec 6) (i : BitVec 10)
  /-- Local load of a signed word. (R208) -/
  | ldWS (d : BitVec 6) (a : BitVec 6) (i : BitVec 10)
  /-- Local load of an unsigned word. (R208) -/
  | ldWZ (d : BitVec 6) (a : BitVec 6) (i : BitVec 10)
  /-- Local load of a signed doubleword. (R208) -/
  | ldDS (d : BitVec 6) (a : BitVec 6) (i : BitVec 10)
  /-- Local load of an unsigned doubleword. (R208) -/
  | ldDZ (d : BitVec 6) (a : BitVec 6) (i : BitVec 10)
  /-- Local load of 16 bytes with tag 0. (R208) -/
  | ldQ (d : BitVec 6) (a : BitVec 6) (i : BitVec 10)
  /-- Local store of a byte. (R208) -/
  | stB (d : BitVec 6) (a : BitVec 6) (i : BitVec 10)
  /-- Local store of a halfword. (R208) -/
  | stH (d : BitVec 6) (a : BitVec 6) (i : BitVec 10)
  /-- Local store of a word. (R208) -/
  | stW (d : BitVec 6) (a : BitVec 6) (i : BitVec 10)
  /-- Local store of a doubleword. (R208) -/
  | stD (d : BitVec 6) (a : BitVec 6) (i : BitVec 10)
  /-- Local store of 16 bytes, dropping the tag. (R208) -/
  | stQ (d : BitVec 6) (a : BitVec 6) (i : BitVec 10)
  /-- Local load at kA + kB with size and extension in fn. (R208) -/
  | ldIndexed (d : BitVec 6) (a : BitVec 6) (b : BitVec 6) (n : BitVec 4)
  /-- Local store at kA + kB with size in fn. (R208) -/
  | stIndexed (d : BitVec 6) (a : BitVec 6) (b : BitVec 6) (n : BitVec 4)
  /-- Capability-checked global load of a signed byte. (R228) -/
  | ldxBS (d : BitVec 6) (a : BitVec 6) (i : BitVec 10)
  /-- Global load of an unsigned byte. (R228) -/
  | ldxBZ (d : BitVec 6) (a : BitVec 6) (i : BitVec 10)
  /-- Global load of a signed halfword. (R228) -/
  | ldxHS (d : BitVec 6) (a : BitVec 6) (i : BitVec 10)
  /-- Global load of an unsigned halfword. (R228) -/
  | ldxHZ (d : BitVec 6) (a : BitVec 6) (i : BitVec 10)
  /-- Global load of a signed word. (R228) -/
  | ldxWS (d : BitVec 6) (a : BitVec 6) (i : BitVec 10)
  /-- Global load of an unsigned word. (R228) -/
  | ldxWZ (d : BitVec 6) (a : BitVec 6) (i : BitVec 10)
  /-- Global load of a signed doubleword. (R228) -/
  | ldxDS (d : BitVec 6) (a : BitVec 6) (i : BitVec 10)
  /-- Global load of an unsigned doubleword. (R228) -/
  | ldxDZ (d : BitVec 6) (a : BitVec 6) (i : BitVec 10)
  /-- Global load of 16 bytes, keeping the unit tag with LC. (R228) -/
  | ldxQ (d : BitVec 6) (a : BitVec 6) (i : BitVec 10)
  /-- Global store of a byte. (R228) -/
  | stxB (d : BitVec 6) (a : BitVec 6) (i : BitVec 10)
  /-- Global store of a halfword. (R228) -/
  | stxH (d : BitVec 6) (a : BitVec 6) (i : BitVec 10)
  /-- Global store of a word. (R228) -/
  | stxW (d : BitVec 6) (a : BitVec 6) (i : BitVec 10)
  /-- Global store of a doubleword. (R228) -/
  | stxD (d : BitVec 6) (a : BitVec 6) (i : BitVec 10)
  /-- Global store of 16 bytes, setting the unit tag with SC. (R228) -/
  | stxQ (d : BitVec 6) (a : BitVec 6) (i : BitVec 10)
  /-- Global load at capability plus kB. (R228) -/
  | ldxIndexed (d : BitVec 6) (a : BitVec 6) (b : BitVec 6) (n : BitVec 4)
  /-- Global store at capability plus kB. (R228) -/
  | stxIndexed (d : BitVec 6) (a : BitVec 6) (b : BitVec 6) (n : BitVec 4)
  /-- Atomic add at the home, returning the old value. (R230) -/
  | aadd (d : BitVec 6) (a : BitVec 6) (b : BitVec 6) (s : BitVec 2)
  /-- Atomic minimum, signed or unsigned. (R230) -/
  | amin (d : BitVec 6) (a : BitVec 6) (b : BitVec 6) (u : Bool) (s : BitVec 2)
  /-- Atomic maximum, signed or unsigned. (R230) -/
  | amax (d : BitVec 6) (a : BitVec 6) (b : BitVec 6) (u : Bool) (s : BitVec 2)
  /-- Atomic and. (R230) -/
  | aand (d : BitVec 6) (a : BitVec 6) (b : BitVec 6) (s : BitVec 2)
  /-- Atomic or. (R230) -/
  | aor (d : BitVec 6) (a : BitVec 6) (b : BitVec 6) (s : BitVec 2)
  /-- Atomic exclusive or. (R230) -/
  | axor (d : BitVec 6) (a : BitVec 6) (b : BitVec 6) (s : BitVec 2)
  /-- Atomic swap. (R230) -/
  | aswp (d : BitVec 6) (a : BitVec 6) (b : BitVec 6) (s : BitVec 2)
  /-- Atomic compare and swap. (R230) -/
  | acas (d : BitVec 6) (a : BitVec 6) (b : BitVec 6) (s : BitVec 2)
  /-- Posted integer reduce-add at the home, mergeable in the network. (R232) -/
  | radd (a : BitVec 6) (b : BitVec 6) (s : BitVec 2)
  /-- Posted FP32 reduce-add, rounded at the home, never merged. (R231) -/
  | fradd (a : BitVec 6) (b : BitVec 6)
  /-- Attaches a fresh bank, joins a shared bank, expects a bank or narrows an entry. (R197) -/
  | att (d : BitVec 6) (a : BitVec 6) (b : BitVec 6)
  /-- Drains and detaches the bank at a slot or clears an expectation. (R198) -/
  | det (d : BitVec 6) (a : BitVec 6)
  /-- Drains and hands a bank to a slot of another core's user context. (R200) -/
  | hand (d : BitVec 6) (a : BitVec 6) (b : BitVec 6)
  /-- Reads an attach entry, the pool state or a hold entry. (R205) -/
  | bqry (d : BitVec 6) (a : BitVec 6)
  /-- Sets up or dissolves a ring on an attached bank. (R206) -/
  | ring (d : BitVec 6) (a : BitVec 6) (b : BitVec 6)
  /-- Reads a stream's count, position, binding or format. (R213) -/
  | sqry (d : BitVec 6) (a : BitVec 6) (n : BitVec 4)
  /-- Supervisor revokes a user-table bank or disposes of a hold-list entry. (R204) -/
  | revk (d : BitVec 6) (a : BitVec 6) (b : BitVec 6)
  /-- Copy command that moves a byte extent between global, local, core-space or instruction-store operands. (R235) -/
  | cpy (g : Option (BitVec 3)) (x : BitVec 3) (y : BitVec 3) (z : BitVec 3) (b : BitVec 2) (p : BitVec 3) (r : Bool) (q : Bool) (n : BitVec 2)
  /-- Copy command that gathers indexed elements. (R236) -/
  | cgth (g : Option (BitVec 3)) (x : BitVec 3) (y : BitVec 3) (z : BitVec 3) (p : BitVec 3) (r : Bool) (q : Bool) (n : BitVec 2)
  /-- Copy command that scatters elements to indexed positions. (R236) -/
  | csct (g : Option (BitVec 3)) (x : BitVec 3) (y : BitVec 3) (z : BitVec 3) (p : BitVec 3) (r : Bool) (q : Bool) (n : BitVec 2)
  /-- Copy command that distributes blocks round-robin over up to 16 cores. (R237) -/
  | cdst (g : Option (BitVec 3)) (x : BitVec 3) (y : BitVec 3) (z : BitVec 3) (b : BitVec 2) (p : BitVec 3) (r : Bool) (q : Bool) (n : BitVec 2)
  /-- Copy command that multicasts one source to cores across clusters and dies. (R238) -/
  | cmcst (g : Option (BitVec 3)) (x : BitVec 3) (y : BitVec 3) (z : BitVec 3) (b : BitVec 2) (p : BitVec 3) (r : Bool) (q : Bool) (n : BitVec 2)
  /-- Waits on a completion counter or byte barrier and returns its fault word or count. (R240) -/
  | cwcnt (d : BitVec 6) (a : BitVec 6) (b : BitVec 6)
  /-- Reads a counter, byte barrier, fault word or copy occupancy, optionally clearing it. (R241) -/
  | cqry (d : BitVec 6) (a : BitVec 6)
  /-- Copy-queue fence that completes after all earlier copies. (R239) -/
  | cfnc (g : Option (BitVec 3)) (p : BitVec 3) (r : Bool) (q : Bool) (n : BitVec 2)
  /-- Vector add of streams. (R254) -/
  | vadd (g : Option (BitVec 3)) (x : BitVec 3) (y : BitVec 3) (z : BitVec 3) (w : Bool)
  /-- Vector subtract. (R254) -/
  | vsub (g : Option (BitVec 3)) (x : BitVec 3) (y : BitVec 3) (z : BitVec 3) (w : Bool)
  /-- Vector multiply. (R254) -/
  | vmul (g : Option (BitVec 3)) (x : BitVec 3) (y : BitVec 3) (z : BitVec 3) (w : Bool)
  /-- Vector fused multiply-add with the fourth stream from HV. (R254) -/
  | vfma (g : Option (BitVec 3)) (x : BitVec 3) (y : BitVec 3) (z : BitVec 3) (w : Bool)
  /-- Vector minimum. (R254) -/
  | vmin (g : Option (BitVec 3)) (x : BitVec 3) (y : BitVec 3) (z : BitVec 3)
  /-- Vector maximum. (R254) -/
  | vmax (g : Option (BitVec 3)) (x : BitVec 3) (y : BitVec 3) (z : BitVec 3)
  /-- Vector absolute value. (R254) -/
  | vabs (g : Option (BitVec 3)) (x : BitVec 3) (y : BitVec 3) (w : Bool)
  /-- Vector negate. (R254) -/
  | vneg (g : Option (BitVec 3)) (x : BitVec 3) (y : BitVec 3) (w : Bool)
  /-- Vector compare writing a mask stream. (R255) -/
  | vcmp (g : Option (BitVec 3)) (x : BitVec 3) (y : BitVec 3) (z : BitVec 3) (c : BitVec 3)
  /-- Vector select under a selector mask. (R255) -/
  | vsel (g : Option (BitVec 3)) (x : BitVec 3) (y : BitVec 3) (z : BitVec 3) (m : BitVec 3)
  /-- Vector bitwise and. (R256) -/
  | vand (g : Option (BitVec 3)) (x : BitVec 3) (y : BitVec 3) (z : BitVec 3)
  /-- Vector bitwise or. (R256) -/
  | vor (g : Option (BitVec 3)) (x : BitVec 3) (y : BitVec 3) (z : BitVec 3)
  /-- Vector bitwise exclusive or. (R256) -/
  | vxor (g : Option (BitVec 3)) (x : BitVec 3) (y : BitVec 3) (z : BitVec 3)
  /-- Vector shift left. (R256) -/
  | vsll (g : Option (BitVec 3)) (x : BitVec 3) (y : BitVec 3) (z : BitVec 3)
  /-- Vector logical shift right. (R256) -/
  | vsrl (g : Option (BitVec 3)) (x : BitVec 3) (y : BitVec 3) (z : BitVec 3)
  /-- Vector arithmetic shift right. (R256) -/
  | vsra (g : Option (BitVec 3)) (x : BitVec 3) (y : BitVec 3) (z : BitVec 3)
  /-- Vector format conversion. (R257) -/
  | vcvt (g : Option (BitVec 3)) (x : BitVec 3) (y : BitVec 3)
  /-- Quantises a stream into BX or FP16 segments chosen by the share. (R261) -/
  | vqnt (g : Option (BitVec 3)) (x : BitVec 3) (y : BitVec 3) (w : Bool) (f : Bool)
  /-- Decodes segments into a stream, with an optional summary. (R262) -/
  | vdqnt (g : Option (BitVec 3)) (x : BitVec 3) (y : BitVec 3) (z : BitVec 3) (w : Bool) (u : Bool)
  /-- Reduces a stream into a general register in fixed order. (R258) -/
  | vred (g : Option (BitVec 3)) (x : BitVec 3) (y : BitVec 3) (o : BitVec 3) (f : BitVec 5)
  /-- Writes running inclusive or exclusive reduction values. (R258) -/
  | vscan (g : Option (BitVec 3)) (x : BitVec 3) (y : BitVec 3) (o : BitVec 3) (e : Bool)
  /-- Permutes lanes within a group by an index stream. (R257) -/
  | vperm (g : Option (BitVec 3)) (x : BitVec 3) (y : BitVec 3) (z : BitVec 3)
  /-- Broadcasts a register value to a stream. (R257) -/
  | vbcst (g : Option (BitVec 3)) (x : BitVec 3) (y : BitVec 3) (f : BitVec 5)
  /-- Copies bit patterns between streams. (R257) -/
  | vmov (g : Option (BitVec 3)) (x : BitVec 3) (y : BitVec 3)
  /-- Mask-stream and. (R259) -/
  | mand (g : Option (BitVec 3)) (x : BitVec 3) (y : BitVec 3) (z : BitVec 3)
  /-- Mask-stream or. (R259) -/
  | mor (g : Option (BitVec 3)) (x : BitVec 3) (y : BitVec 3) (z : BitVec 3)
  /-- Mask-stream exclusive or. (R259) -/
  | mxor (g : Option (BitVec 3)) (x : BitVec 3) (y : BitVec 3) (z : BitVec 3)
  /-- Mask-stream not. (R259) -/
  | mnot (g : Option (BitVec 3)) (x : BitVec 3) (y : BitVec 3)
  /-- Counts the remaining elements and set bits of a mask stream. (R259) -/
  | mcnt (d : BitVec 6) (a : BitVec 6)
  /-- Binds a mask stream to a base and count. (R259) -/
  | mset (g : Option (BitVec 3)) (x : BitVec 3) (y : BitVec 3) (z : BitVec 3)
  /-- Unbinds a mask stream. (R259) -/
  | msetU (g : Option (BitVec 3)) (x : BitVec 3)
  /-- Reciprocal with an iteration count set by the tolerance. (R265) -/
  | vrcp (g : Option (BitVec 3)) (x : BitVec 3) (y : BitVec 3) (z : BitVec 3) (t : Bool)
  /-- Reciprocal square root. (R265) -/
  | vrsq (g : Option (BitVec 3)) (x : BitVec 3) (y : BitVec 3) (z : BitVec 3) (t : Bool)
  /-- Base-2 exponential. (R265) -/
  | vexp2 (g : Option (BitVec 3)) (x : BitVec 3) (y : BitVec 3) (z : BitVec 3) (t : Bool)
  /-- Base-2 logarithm. (R265) -/
  | vlog2 (g : Option (BitVec 3)) (x : BitVec 3) (y : BitVec 3) (z : BitVec 3) (t : Bool)
  /-- Hyperbolic tangent. (R265) -/
  | vtanh (g : Option (BitVec 3)) (x : BitVec 3) (y : BitVec 3) (z : BitVec 3) (t : Bool)
  /-- Logistic function. (R265) -/
  | vsigm (g : Option (BitVec 3)) (x : BitVec 3) (y : BitVec 3) (z : BitVec 3) (t : Bool)
  /-- Sine. (R265) -/
  | vsin (g : Option (BitVec 3)) (x : BitVec 3) (y : BitVec 3) (z : BitVec 3) (t : Bool)
  /-- Cosine. (R265) -/
  | vcos (g : Option (BitVec 3)) (x : BitVec 3) (y : BitVec 3) (z : BitVec 3) (t : Bool)
  /-- Computes an input share, an own share or a demand merge. (R323) -/
  | tdem (d : BitVec 6) (a : BitVec 6) (b : BitVec 6) (n : BitVec 4)
  /-- Re-demands an input at a tighter code through the counter slice. (R325) -/
  | tred (d : BitVec 6) (a : BitVec 6) (b : BitVec 6)
  /-- Reads a segment's header and tail bytes, trapping on a malformed header. (R324) -/
  | tqry (d : BitVec 6) (a : BitVec 6) (w : Bool)
  /-- Tests a code against a requirement or measures an error code. (R323) -/
  | terr (d : BitVec 6) (a : BitVec 6) (b : BitVec 6) (n : BitVec 4)
  /-- Resolves a guard TRUE or FALSE. (R185) -/
  | gset (d : BitVec 6) (a : BitVec 6)
  /-- Opens a pending resolution of a guard. (R185) -/
  | gclr (d : BitVec 6)
  /-- Waits until no command is bound to a guard, then frees it. (R185) -/
  | gwait (d : BitVec 6)
  /-- Packed subword add. (R264) -/
  | padd (d : BitVec 6) (a : BitVec 6) (b : BitVec 6) (w : Bool)
  /-- Packed subword subtract. (R264) -/
  | psub (d : BitVec 6) (a : BitVec 6) (b : BitVec 6) (w : Bool)
  /-- Packed subword multiply. (R264) -/
  | pmul (d : BitVec 6) (a : BitVec 6) (b : BitVec 6) (w : Bool)
  /-- Packed fused multiply-add. (R264) -/
  | pfma (d : BitVec 6) (a : BitVec 6) (b : BitVec 6) (w : Bool)
  /-- Packed minimum. (R264) -/
  | pmin (d : BitVec 6) (a : BitVec 6) (b : BitVec 6)
  /-- Packed maximum. (R264) -/
  | pmax (d : BitVec 6) (a : BitVec 6) (b : BitVec 6)
  /-- Packed dot product into one FP32 or modular integer. (R264) -/
  | pdot (d : BitVec 6) (a : BitVec 6) (b : BitVec 6) (e : Bool) (c : BitVec 2)
  /-- Converts packed lanes to the PW format. (R264) -/
  | pcvt (d : BitVec 6) (a : BitVec 6) (f : BitVec 6) (w : Bool) (p : BitVec 2)
  /-- Scales packed lanes by an E8M0 exponent. (R264) -/
  | pscl (d : BitVec 6) (a : BitVec 6) (b : BitVec 6) (w : Bool)
  /-- Quantises packed lanes to PW with a chosen companion scale. (R264) -/
  | pqnt (d : BitVec 6) (a : BitVec 6) (f : BitVec 6) (c : BitVec 2) (p : BitVec 2)
  /-- Claims a slot group of span 1, 2 or 4. (R270) -/
  | mclm (g : Option (BitVec 3)) (x : BitVec 3) (p : BitVec 2)
  /-- Releases a claimed slot group. (R270) -/
  | mrel (g : Option (BitVec 3)) (x : BitVec 3)
  /-- Checks the group and record and starts filling a tile. (R272) -/
  | mld (g : Option (BitVec 3)) (x : BitVec 3) (y : BitVec 3) (z : BitVec 3) (p : BitVec 3) (r : Bool) (q : Bool)
  /-- Multiplies two tiles into an accumulator. (R275) -/
  | mma (g : Option (BitVec 3)) (x : BitVec 3) (y : BitVec 3) (z : BitVec 3) (i : Bool) (c : Bool) (r : Bool) (e : Bool) (n : BitVec 2)
  /-- Drains an accumulator through a record, directly or by staging. (R279) -/
  | mdrn (g : Option (BitVec 3)) (x : BitVec 3) (y : BitVec 3) (z : BitVec 3) (l : Bool) (f : Bool) (p : BitVec 3) (r : Bool) (q : Bool) (i : Bool) (t : Bool)
  /-- Spills an accumulator to local memory. (R283) -/
  | mspl (g : Option (BitVec 3)) (x : BitVec 3) (y : BitVec 3) (p : BitVec 3) (r : Bool) (q : Bool)
  /-- Restores an accumulator from local memory. (R283) -/
  | mrst (g : Option (BitVec 3)) (x : BitVec 3) (y : BitVec 3) (p : BitVec 3) (r : Bool) (q : Bool)
  /-- Sends one matrix command to another core's matrix queue. (R284) -/
  | msnd (g : Option (BitVec 3)) (x : BitVec 3) (y : BitVec 3) (z : BitVec 3)
  /-- Zeroes every cell of an accumulator. (R277) -/
  | mzacc (g : Option (BitVec 3)) (x : BitVec 3)
  /-- Copies the cells of one accumulator to another. (R277) -/
  | mmov (g : Option (BitVec 3)) (x : BitVec 3) (y : BitVec 3)
  /-- Sets an accumulator's decay factor. (R277) -/
  | mmovG (g : Option (BitVec 3)) (x : BitVec 3) (z : BitVec 3)
  /-- Copies an accumulator transposed. (R277) -/
  | mmovT (g : Option (BitVec 3)) (x : BitVec 3) (y : BitVec 3)
  /-- Reads slot states, group details, the fault word, γ or queue occupancy. (R286) -/
  | mqry (d : BitVec 6) (a : BitVec 6)
  /-- Waits for all earlier matrix commands and returns the fault word. (R287) -/
  | mwait (d : BitVec 6)
  /-- Releases, arrives at a counting barrier and waits for the episode. (R314) -/
  | bar (d : BitVec 6) (a : BitVec 6)
  /-- Sends a tile down a forwarding chain. (R317) -/
  | lead (d : BitVec 6) (a : BitVec 6) (b : BitVec 6)
  /-- Posts a chain reservation. (R316) -/
  | follow (d : BitVec 6) (a : BitVec 6) (b : BitVec 6)
  /-- Releases and sends a message to an inbox or for tag matching. (R307) -/
  | send (d : BitVec 6) (a : BitVec 6) (b : BitVec 6) (n : BitVec 4)
  /-- Writes a word to a neighbour port. (R310) -/
  | sendPort (a : BitVec 6) (b : BitVec 6)
  /-- Waits for and takes the oldest inbox entry or notice. (R308) -/
  | recv (d : BitVec 6) (a : BitVec 6) (b : BitVec 6)
  /-- Tries to take an inbox entry without waiting. (R308) -/
  | recvT (d : BitVec 6) (a : BitVec 6)
  /-- Pops the oldest word of a neighbour port queue. (R310) -/
  | recvPort (d : BitVec 6) (b : BitVec 6)
  /-- Pops a port queue and forwards the word to another port in one cycle. (R310) -/
  | recvF (d : BitVec 6) (a : BitVec 6) (b : BitVec 6)
  /-- Posts a tag-matched receive, first searching the overflow queue. (R311) -/
  | precv (d : BitVec 6) (a : BitVec 6) (b : BitVec 6)
  /-- Tests a posted receive for completion. (R312) -/
  | probeT (d : BitVec 6) (a : BitVec 6)
  /-- Waits for a posted receive to complete. (R312) -/
  | probe (d : BitVec 6) (a : BitVec 6) (b : BitVec 6)
  /-- Holds the sequencer until earlier accesses are performed at a scope. (R297) -/
  | fence (n : BitVec 4)
  /-- Releases and asks the counter slice to build a launch from tile records. (R319) -/
  | tspawn (d : BitVec 6) (a : BitVec 6) (b : BitVec 6)
  /-- Waits for the task's work, then sends its retirement transaction to the counter slice. (R321) -/
  | tdone (a : BitVec 6)
  /-- Releases and decrements one successor edge early. (R320) -/
  | tdec (d : BitVec 6) (a : BitVec 6)
  /-- Adds two segment or FP32 streams and re-encodes the sum. (R327) -/
  | baddq (g : Option (BitVec 3)) (x : BitVec 3) (y : BitVec 3) (z : BitVec 3) (w : Bool) (f : Bool)
  /-- Releases and sends the group to the counter slice to commit or abort. (R352) -/
  | txc (d : BitVec 6) (n : Bool)
  /-- Computes an SM3 digest of a local range on the Nolorn core. (R389) -/
  | shash (d : BitVec 6) (a : BitVec 6) (b : BitVec 6)
  /-- Verifies an SM2 signature with a key slot. (R389) -/
  | sverf (d : BitVec 6) (a : BitVec 6) (b : BitVec 6)
  /-- Signs a digest with a private key slot. (R389) -/
  | ssign (d : BitVec 6) (a : BitVec 6) (b : BitVec 6)
  /-- Encrypts a range with SM4-XTS under a tenant key. (R389) -/
  | scryp (d : BitVec 6) (a : BitVec 6) (b : BitVec 6)
  /-- Decrypts a range with SM4-XTS under a tenant key. (R389) -/
  | scrypDec (d : BitVec 6) (a : BitVec 6) (b : BitVec 6)
  /-- Loads a tenant key slot from local memory. (R389) -/
  | skey (d : BitVec 6) (a : BitVec 6) (b : BitVec 6)
  /-- Zeroes and empties a range of key slots. (R389) -/
  | skeyWipe (d : BitVec 6) (a : BitVec 6) (b : BitVec 6)
  /-- Extends a measurement register with SM3. (R389) -/
  | smext (d : BitVec 6) (a : BitVec 6) (b : BitVec 6)
  /-- Binds a stream to a base, count, stride and format. (R210) -/
  | sbind (f : BitVec 5) (d : BitVec 6) (a : BitVec 6) (b : BitVec 6) (n : BitVec 4)
  /-- Ends a user-trap handler and resumes the user context at %tpc. (R338) -/
  | tret
  /-- Ends a user-trap handler by killing the user context with cause 0x67. (R338) -/
  | tretK
  /-- Returns from a supervisor trap, restoring the supervisor's repetition state and issuing from %stpc. (R338) -/
  | tretS
  /-- Waits until the inbox holds an entry or a notice, without taking it. (R339) -/
  | idle
  /-- Halts the context for debug or raises breakpoint-instruction cause 0x50. (R365) -/
  | brk
  /-- Pops the label stack, setting UNDER when it is empty. (R368) -/
  | lblpop
  /-- Discards words fetched ahead so that later fetches see completed instruction-store writes. (R123) -/
  | ifence
  /-- Issues in one cycle with no effect. (R179) -/
  | nop
  /-- Waits for outstanding commands, then ends the context: a supervisor becomes idle and a user context is killed with task exit. (R179) -/
  | exit
  /-- Brings detached chorus followers back into the forwarded stream. (R128) -/
  | join
  /-- Opens a control transaction group. (R350) -/
  | txb
  /-- Closes a group at once and releases its reservations. (R353) -/
  | txa
  /-- Event: An engine discards a guarded command whose resolution is FALSE at its queue head. (R151) -/
  | guardFalseDiscard (c eng : Nat)
  /-- Event: A user trap records its cause and starts the supervisor at the vector, or kills the context when traps are off. (R333) -/
  | trapEntry (c : Nat) (cause : BitVec 8) (pc : BitVec 16) (val : Word)
  /-- Event: A waiting imprecise cause is taken at the user context's next instruction boundary. (R335) -/
  | impreciseTrapTake (c : Nat)
  /-- Event: A trap raised by the supervisor enters its own vector, or becomes a double trap. (R336) -/
  | supervisorTrap (c : Nat) (cause : BitVec 8) (pc : BitVec 16) (val : Word)
  /-- Event: A user context is killed: group aborted, engines stopped, banks revoked, accounts committed and a record written. (R340) -/
  | contextKill (c : Nat) (cause : BitVec 8) (pc : BitVec 16) (val : Word)
  /-- Event: A pre-emption request stops, drains and saves a resident user context. (R343) -/
  | preemption (c : Nat)
  /-- Event: A suspended context is reloaded from its save area and resumes. (R343) -/
  | contextRestore (c area : Nat)
  /-- Event: A resident counter reaching 2^47 forces an accounting commit. (R155) -/
  | accountCounterLimit (c : Nat)
  /-- Event: At the counter slice, the task parks or disposes of banks, decrements successors, records retention and commits accounts. (R321) -/
  | tdoneCommit (c : Nat)
  /-- Event: A decrement reaches the counter slice and makes the instance READY at zero, or records an underflow. (R110) -/
  | dependenceDecrement (r : DecReq)
  /-- Event: The counter slice reads tile records and creates the spawned launch's instances. (R109) -/
  | tspawnExpansion (r : SpawnReq)
  /-- Event: A re-demand is taken at the counter slice and re-arms or refuses the producer. (R96) -/
  | redemand (r : RedemandReq)
  /-- Event: The counter slice commits or aborts a transaction group in one step. (R352) -/
  | txCommit (c : Nat)
  /-- Event: A group open for 65,536 cycles of %ctime aborts. (R353) -/
  | txTimeout (c : Nat)
  /-- Event: Active message that checks and accepts a template launch. (R103) -/
  | launch (die fn : Nat) (msg : BitVec 512)
  /-- Event: Saffron computes and writes the demand words of a launch's instances. (R87) -/
  | demandSweep (die id : Nat)
  /-- Event: Active message that starts a core's supervisor context directly. (R106) -/
  | corestart (die fn : Nat) (msg : BitVec 512)
  /-- Event: Active message that ends a launch's instances at the counter slice. (R107) -/
  | cancel (die fn : Nat) (msg : BitVec 512)
  /-- Event: Active message that registers or replaces a code image. (R108) -/
  | imgreg (die fn : Nat) (msg : BitVec 512)
  /-- Event: Active message that removes a registered image. (R108) -/
  | imgdrop (die fn : Nat) (msg : BitVec 512)
  /-- Event: A 64-byte host write enters a die's message queue, or is dropped when full. (R376) -/
  | activeMessageEnqueue (die fn : Nat) (msg : BitVec 512)
  /-- Event: A held completion record is written to the function's ring when space appears. (R376) -/
  | completionRecordWrite (fn : Nat)
  /-- Event: Saffron selects one task per cycle, applying fairness refill, and reserves its placement. (R112) -/
  | taskSelect (die : Nat)
  /-- Event: Saffron wakes, loads, attaches banks and writes bankdata for a placed instance. (R117) -/
  | instanceStart (r : InstRef)
  /-- Event: The start message arrives after its stores and starts the context. (R123) -/
  | startMessage (c : Nat)
  /-- Event: A task waiting 524,288 cycles enters the starved queue. (R112) -/
  | starvation (r : InstRef)
  /-- Event: A waiting task rises one priority level per 65,536 cycles. (R114) -/
  | priorityAging (r : InstRef)
  /-- Event: After 4,096 cycles without placement, Saffron requests pre-emption of a lower task. (R118) -/
  | preemptDecision (die : Nat)
  /-- Event: Saffron starts the fault-domain handler when WR passes what it last covered. (R342) -/
  | faultHandlerStart (die flog : Nat)
  /-- Event: A core without residency for 16,384 cycles begins gating. (R119) -/
  | coreGatingStart (c : Nat)
  /-- Event: A core's gating reaches its commit point at g + 32. (R119) -/
  | coreGatingCommit (c : Nat)
  /-- Event: A gated core powers off at g + 64. (R119) -/
  | corePowerOff (c : Nat)
  /-- Event: A cluster idle for 65,536 cycles begins gating. (R119) -/
  | clusterGatingStart (cl : Nat)
  /-- Event: A cluster's gating reaches its commit point at g + 256. (R119) -/
  | clusterGatingCommit (cl : Nat)
  /-- Event: A gated cluster powers off at g + 512, clearing image residency. (R119) -/
  | clusterPowerOff (cl : Nat)
  /-- Event: A placement, message, store, start or debug access wakes a gating or gated target. (R119) -/
  | wake (cluster : Bool) (ix : Nat)
  /-- Event: A woken core or cluster finishes powering up and held traffic is delivered. (R119) -/
  | powerUpDone (cluster : Bool) (ix : Nat)
  /-- Event: A function's write of ACQ takes a free semaphore. (R101) -/
  | semAcquire (fn sem : Nat)
  /-- Event: The owner's write of REL frees a semaphore. (R101) -/
  | semRelease (fn sem : Nat)
  /-- Event: Resets a function, cancelling its launches, dropping its images and releasing its semaphores. (R100) -/
  | functionLevelReset (fn : Nat)
  /-- Event: Invalidates every entry of the selected stage for the function. (R375) -/
  | invalFunction (fn : Nat) (stage2 : Bool)
  /-- Event: Invalidates the entries of one 4 KiB page. (R375) -/
  | invalPage (fn : Nat) (stage2 : Bool) (addr : Nat)
  /-- Event: Invalidates the entries of one 1 GiB region. (R375) -/
  | invalRegion (fn : Nat) (stage2 : Bool) (addr : Nat)
  /-- Event: An invalidation completes once every buffer and walk cache has dropped its entries. (R225) -/
  | invalComplete (fn : Nat)
  /-- Event: Sets a function's NumVFs, ignored if the sum would exceed 62. (R377) -/
  | numvfsWrite (fn n : Nat) (enable : Bool)
  /-- Event: A remote store writes one word of an instruction store. (R122) -/
  | istoreHostWrite (fn c addr : Nat) (w : BitVec 32)
  /-- Event: Writes a cluster's pool configuration, dropped with WERR when banks are in use. (R188) -/
  | cpoolWrite (cl : Nat) (v : BitVec 64)
  /-- Event: Holds or releases a die in reset under semaphore 1. (R378) -/
  | dieResetHold (fn die : Nat) (hold : Bool)
  /-- Event: Resets the whole module. (R378) -/
  | moduleReset (fn : Nat)
  /-- Event: Stops the core clock of every die under semaphore 2. (R378) -/
  | clockStop (fn : Nat) (stop : Bool)
  /-- Event: Stages a firmware image address for Nolorn, refused when retired. (R380) -/
  | fwupdWrite (fn : Nat) (v : BitVec 64)
  /-- Event: Places one inbox message in the Nolorn core's inbox after earlier mailbox writes. (R380) -/
  | nmboxDoorbell (fn : Nat) (v : BitVec 32)
  /-- Event: The host writes the Nolorn mailbox under semaphore 0. (R380) -/
  | mailboxWrite (fn off : Nat) (bytes : List Byte)
  /-- Event: Creates a tagged core-space capability at a module address. (R379) -/
  | capgenWrite (fn : Nat) (v : BitVec 256)
  /-- Event: Configures a Clove block queue, dropped while notices are undelivered. (R378) -/
  | bqcfgWrite (fn link : Nat) (v : BitVec 256)
  /-- Event: Writes a device register that has no row of its own. (R378) -/
  | registerWrite (fn off : Nat) (v : BitVec 64)
  /-- Event: Every core latches its state in one cycle and a snapshot record is written. (R373) -/
  | duskPulse
  /-- Event: The Dusk period expires and raises a pulse. (R373) -/
  | duskPeriodExpiry
  /-- Event: Module power good starts bring-up in its fixed order. (R120) -/
  | powerGood
  /-- Event: A die at 100 °C sets THERMAL and makes its gated clusters infeasible. (R385) -/
  | thermalWarning (die : Nat)
  /-- Event: A die falling below 95 °C makes its gated clusters feasible again. (R385) -/
  | thermalClear (die : Nat)
  /-- Event: A die at 110 °C logs and resets the module. (R385) -/
  | thermalTrip (die : Nat)
  /-- Event: A buffered global access enters its network-interface lane. (R293) -/
  | accessForward (id : Nat)
  /-- Event: An interface lane sends its oldest access to its slice or die link. (R293) -/
  | accessSend (id : Nat)
  /-- Event: A die-link entry reaches its slice, bank port or message target. (R293) -/
  | linkCross (id : Nat)
  /-- Event: A bank port performs its oldest access after the table check. (R293) -/
  | bankPerform (id : Nat)
  /-- Event: A home slice applies a write or serves a read that the causal rule permits. (R295) -/
  | homeApply (id : Nat)
  /-- Event: A served read's value returns and merges its clock into the die clock. (R293) -/
  | readReturn (id : Nat)
  /-- Event: A walk ends translated, not present, permission or malformed. (R226) -/
  | translationWalk (id : Nat)
  /-- Event: A response restarts or fails the waiting accesses after earlier host writes. (R244) -/
  | pageRequestResponse (fn group code : Nat)
  /-- Event: A request unanswered for 2^26 cycles is treated as Response Failure. (R227) -/
  | pageRequestTimeout (fn group : Nat)
  /-- Event: A hand-over request reaches the target table and is accepted or refused. (R200) -/
  | handoverRequest (r : HandReq)
  /-- Event: The answer returns to the issuer, writing kD or restoring the source entry. (R200) -/
  | handoverAnswer (a : HandAns)
  /-- Event: A message reaches a target context's inbox or is refused. (R306) -/
  | messageArrival (m : Msg)
  /-- Event: A tagged message matches a posted receive or enters the overflow queue. (R311) -/
  | taggedMessageArrival (m : Msg)
  /-- Event: A neighbour port word becomes readable two cycles after its write. (R309) -/
  | portWordArrival (c port : Nat) (w : Word)
  /-- Event: Participants leave a released barrier episode after the scope latency. (R314) -/
  | barrierLeave (key : Nat)
  /-- Event: A chain line is performed at a member's reservation and passed on. (R317) -/
  | chainLineArrival (l : ChainLine)
  /-- Event: A RECV wait expires with KIND 0xFE. (R308) -/
  | recvTimeout (c : Nat)
  /-- Event: A PROBE wait expires with TIMEOUT. (R312) -/
  | probeTimeout (c : Nat)
  /-- Event: A wait lasting 2^16 cycles sends probes along its wait-for edges. (R313) -/
  | waitForProbe (c : Nat)
  /-- Event: A returning probe proves a cycle and one receive-cycle record is written. (R313) -/
  | receiveCycle (cores : List Nat)
  /-- Event: An attached follower issues a word the leader forwarded. (R126) -/
  | forwardedWordIssue (c : Nat)
  /-- Event: The vector engine takes its head command once its guard has resolved. (R250) -/
  | vectorCommandTake (c : Nat)
  /-- Event: The vector engine issues one element group. (R250) -/
  | vectorGroup (c : Nat)
  /-- Event: A vector command completes, ORing its flags and writing any register result. (R250) -/
  | vectorCommandComplete (c : Nat)
  /-- Event: A tile fill finishes and its group becomes FULL or FAULTED. (R273) -/
  | mldFillComplete (c slot : Nat)
  /-- Event: An MMA's cells are written 4 cycles after its last cycle. (R278) -/
  | accumulatorWriteback (c ac : Nat)
  /-- Event: An MDRN, flush or MSPL completes when its writes have been performed. (R281) -/
  | matrixStoreComplete (c : Nat)
  /-- Event: A remote matrix command enters the target's queue or is refused. (R284) -/
  | msndAccept (r : MsndReq)
  /-- Event: The copy engine starts its head command, up to 64 in flight. (R234) -/
  | copyStart (c : Nat)
  /-- Event: A copy completes, releasing if asked, and decrements its counter. (R234) -/
  | copyComplete (c id : Nat)
  /-- Event: A returned bank finishes its 256-cycle scrub and becomes free. (R196) -/
  | bankScrubDone (bank : Nat)
  /-- Event: A correctable error is corrected and counted. (R354) -/
  | eccCorrected (cls ix : Nat)
  /-- Event: An uncorrectable bank line is zeroed and a data-loss record written. (R215) -/
  | bankLineLoss (bank line : Nat)
  /-- Event: An uncorrectable instruction-store word is zeroed and logged. (R121) -/
  | istoreWordLoss (c addr : Nat)
  /-- Event: An uncorrectable home, LPDDR or CXL line is zeroed with tags 0 and logged. (R220) -/
  | homeLineLoss (addr kind key : Nat)
  /-- Event: A lost operand row, accumulator cell, register or queue entry is zeroed or dropped and logged. (R354) -/
  | deviceStateLoss (c unit ix : Nat)
  /-- Event: A resource whose error counts pass the threshold is marked for retirement. (R355) -/
  | retirementMark (kind ix : Nat)
  /-- Event: A marked resource is taken out of service at its next idle moment. (R355) -/
  | resourceRetire (kind ix : Nat)
  /-- Event: A retired channel's data is spread over the spare parts of the die. (R383) -/
  | channelRetire (die ch : Nat)
  /-- Event: A failing Gwesko lane is replaced by the spare and the link retrains. (R382) -/
  | laneSpareSwap (link lane : Nat)
  /-- Event: A link resumes full rate after 4,096 cycles of retraining. (R382) -/
  | laneRetrainDone (link : Nat)
  /-- Event: A link without a spare loses a lane and runs on 7 lanes. (R382) -/
  | laneLost (link lane : Nat)
  /-- Event: A CXL port's link goes down and accesses to its range fail as uncorrectable. (R381) -/
  | cxlLinkDown (port : Nat)
  /-- Event: A CXL link retrains and its range is usable again. (R381) -/
  | cxlLinkRetrain (port : Nat)
  /-- Event: A port request halts the user context at an instruction boundary. (R362) -/
  | debugHaltRequest (c : Nat)
  /-- Event: The debugger releases a halted context, acting as an IFENCE. (R363) -/
  | debugRelease (c : Nat)
  /-- Event: The debugger releases a halted context to issue one instruction and halt again. (R363) -/
  | debugStep (c : Nat)
  /-- Event: A debug-port write patches one or a masked set of instruction stores. (R366) -/
  | debugPatchWrite (cores : List Nat) (addr : Nat) (w : BitVec 32)
  /-- Event: The encoder writes a trace record to its buffer or drops it. (R371) -/
  | traceRecordWrite (c : Nat) (r : BitVec 64)
  /-- Event: Writes a decode-table entry and advances %dtidx. (R139) -/
  | dtentWrite (v : Word)
  /-- Event: Writes the stochastic generator after earlier rsto draws, storing 1 for 0. (R150) -/
  | rseedWrite (v : Word)
  /-- Event: Writes the trace controls, clearing CAP when EN is set. (R369) -/
  | trctlWrite (v : Word)
  /-- Event: Selects a slot's bank write trace ring and turns it on or off. (R372) -/
  | bwtcWrite (v : Word)
  /-- Event: Removes and returns the oldest record of the selected write trace ring. (R372) -/
  | bwtrRead (d : BitVec 6)
  /-- Event: A read of %nonce0 draws a fresh 256-bit nonce. (R387) -/
  | nonceDraw (d : BitVec 6)
  /-- Event: Opens the debug port and sets UNLK when FUSE, WIPED and EXT allow. (R387) -/
  | dbgopenWrite (v : Word)
  /-- Event: A write of a higher FUSE starts blowing the lifecycle fuses. (R386) -/
  | fuseWrite (v : Word)
  /-- Event: The fuse write completes after 100,000 cycles. (R386) -/
  | fuseBlowDone
  /-- Event: At the end of each 1,024-cycle window, each router compares its link flit counts with the die mean and switches two-phase
  routing on or off for the next window. (R318) -/
  | twoPhaseRoutingWindow (die : Nat) (counts : List Nat)
  /-- Event: A collective contribution arrives over a link, and the link's block queue delivers it to Clove core b mod 4 as a block notice
  in rank order. (R326) -/
  | blockNoticeArrival (b : BlockNotice)
  /-- Event: The PCI Express link finishes training, both physical functions set their ready status, and the messages held in their windows
  are processed in queue order. (R120) -/
  | functionReady
deriving DecidableEq, Repr

/-- The row of an event. -/
noncomputable def Event.instr : Event → Instr
  | .guardFalseDiscard c eng => .guardFalseDiscard c eng
  | .trapEntry c cause pc val => .trapEntry c cause pc val
  | .impreciseTrapTake c => .impreciseTrapTake c
  | .supervisorTrap c cause pc val => .supervisorTrap c cause pc val
  | .contextKill c cause pc val => .contextKill c cause pc val
  | .preemption c => .preemption c
  | .contextRestore c area => .contextRestore c area
  | .accountCounterLimit c => .accountCounterLimit c
  | .tdoneCommit c => .tdoneCommit c
  | .dependenceDecrement r => .dependenceDecrement r
  | .tspawnExpansion r => .tspawnExpansion r
  | .redemand r => .redemand r
  | .txCommit c => .txCommit c
  | .txTimeout c => .txTimeout c
  | .launch die fn msg => .launch die fn msg
  | .demandSweep die id => .demandSweep die id
  | .corestart die fn msg => .corestart die fn msg
  | .cancel die fn msg => .cancel die fn msg
  | .imgreg die fn msg => .imgreg die fn msg
  | .imgdrop die fn msg => .imgdrop die fn msg
  | .activeMessageEnqueue die fn msg => .activeMessageEnqueue die fn msg
  | .completionRecordWrite fn => .completionRecordWrite fn
  | .taskSelect die => .taskSelect die
  | .instanceStart r => .instanceStart r
  | .startMessage c => .startMessage c
  | .starvation r => .starvation r
  | .priorityAging r => .priorityAging r
  | .preemptDecision die => .preemptDecision die
  | .faultHandlerStart die flog => .faultHandlerStart die flog
  | .coreGatingStart c => .coreGatingStart c
  | .coreGatingCommit c => .coreGatingCommit c
  | .corePowerOff c => .corePowerOff c
  | .clusterGatingStart cl => .clusterGatingStart cl
  | .clusterGatingCommit cl => .clusterGatingCommit cl
  | .clusterPowerOff cl => .clusterPowerOff cl
  | .wake cluster ix => .wake cluster ix
  | .powerUpDone cluster ix => .powerUpDone cluster ix
  | .semAcquire fn sem => .semAcquire fn sem
  | .semRelease fn sem => .semRelease fn sem
  | .functionLevelReset fn => .functionLevelReset fn
  | .invalFunction fn stage2 => .invalFunction fn stage2
  | .invalPage fn stage2 addr => .invalPage fn stage2 addr
  | .invalRegion fn stage2 addr => .invalRegion fn stage2 addr
  | .invalComplete fn => .invalComplete fn
  | .numvfsWrite fn n enable => .numvfsWrite fn n enable
  | .istoreHostWrite fn c addr w => .istoreHostWrite fn c addr w
  | .cpoolWrite cl v => .cpoolWrite cl v
  | .dieResetHold fn die hold => .dieResetHold fn die hold
  | .moduleReset fn => .moduleReset fn
  | .clockStop fn stop => .clockStop fn stop
  | .fwupdWrite fn v => .fwupdWrite fn v
  | .nmboxDoorbell fn v => .nmboxDoorbell fn v
  | .mailboxWrite fn off bytes => .mailboxWrite fn off bytes
  | .capgenWrite fn v => .capgenWrite fn v
  | .bqcfgWrite fn link v => .bqcfgWrite fn link v
  | .registerWrite fn off v => .registerWrite fn off v
  | .duskPulse => .duskPulse
  | .duskPeriodExpiry => .duskPeriodExpiry
  | .powerGood => .powerGood
  | .thermalWarning die => .thermalWarning die
  | .thermalClear die => .thermalClear die
  | .thermalTrip die => .thermalTrip die
  | .accessForward id => .accessForward id
  | .accessSend id => .accessSend id
  | .linkCross id => .linkCross id
  | .bankPerform id => .bankPerform id
  | .homeApply id => .homeApply id
  | .readReturn id => .readReturn id
  | .translationWalk id => .translationWalk id
  | .pageRequestResponse fn group code => .pageRequestResponse fn group code
  | .pageRequestTimeout fn group => .pageRequestTimeout fn group
  | .handoverRequest r => .handoverRequest r
  | .handoverAnswer a => .handoverAnswer a
  | .messageArrival m => .messageArrival m
  | .taggedMessageArrival m => .taggedMessageArrival m
  | .portWordArrival c port w => .portWordArrival c port w
  | .barrierLeave key => .barrierLeave key
  | .chainLineArrival l => .chainLineArrival l
  | .recvTimeout c => .recvTimeout c
  | .probeTimeout c => .probeTimeout c
  | .waitForProbe c => .waitForProbe c
  | .receiveCycle cores => .receiveCycle cores
  | .forwardedWordIssue c => .forwardedWordIssue c
  | .vectorCommandTake c => .vectorCommandTake c
  | .vectorGroup c => .vectorGroup c
  | .vectorCommandComplete c => .vectorCommandComplete c
  | .mldFillComplete c slot => .mldFillComplete c slot
  | .accumulatorWriteback c ac => .accumulatorWriteback c ac
  | .matrixStoreComplete c => .matrixStoreComplete c
  | .msndAccept r => .msndAccept r
  | .copyStart c => .copyStart c
  | .copyComplete c id => .copyComplete c id
  | .bankScrubDone bank => .bankScrubDone bank
  | .eccCorrected cls ix => .eccCorrected cls ix
  | .bankLineLoss bank line => .bankLineLoss bank line
  | .istoreWordLoss c addr => .istoreWordLoss c addr
  | .homeLineLoss addr kind key => .homeLineLoss addr kind key
  | .deviceStateLoss c unit ix => .deviceStateLoss c unit ix
  | .retirementMark kind ix => .retirementMark kind ix
  | .resourceRetire kind ix => .resourceRetire kind ix
  | .channelRetire die ch => .channelRetire die ch
  | .laneSpareSwap link lane => .laneSpareSwap link lane
  | .laneRetrainDone link => .laneRetrainDone link
  | .laneLost link lane => .laneLost link lane
  | .cxlLinkDown port => .cxlLinkDown port
  | .cxlLinkRetrain port => .cxlLinkRetrain port
  | .debugHaltRequest c => .debugHaltRequest c
  | .debugRelease c => .debugRelease c
  | .debugStep c => .debugStep c
  | .debugPatchWrite cores addr w => .debugPatchWrite cores addr w
  | .traceRecordWrite c r => .traceRecordWrite c r
  | .dtentWrite v => .dtentWrite v
  | .rseedWrite v => .rseedWrite v
  | .trctlWrite v => .trctlWrite v
  | .bwtcWrite v => .bwtcWrite v
  | .bwtrRead d => .bwtrRead d
  | .nonceDraw d => .nonceDraw d
  | .dbgopenWrite v => .dbgopenWrite v
  | .fuseWrite v => .fuseWrite v
  | .fuseBlowDone => .fuseBlowDone
  | .twoPhaseRoutingWindow die counts => .twoPhaseRoutingWindow die counts
  | .blockNoticeArrival b => .blockNoticeArrival b
  | .functionReady => .functionReady


end Sys2Proof
end

