-- ==== Sys2Proof/Machine/State.lean ====
section
/-! DEFINITION. The machine's state as plain data (INVENTORY.md, State), why a step may stop, and the state after reset. Tables
(AList) list only what differs from the value after reset or at creation (R147): a reader names the default. -/

namespace Sys2Proof.Machine

/-! ## Values -/

/-- A general register: 128 bits and a tag (R145). -/
structure Reg where
  val : Word := 0
  tag : Bool := false
deriving DecidableEq, Repr

/-- An exact value of a number format (R36, R37): a NaN, signalling or not, an infinity, or (-1)^neg x m x 2^e. -/
inductive FV where
  | nan (sig : Bool)
  | inf (neg : Bool)
  | fin (neg : Bool) (m : Nat) (e : Int)
deriving DecidableEq, Repr

/-- Hint words issued and not yet bound (R133, R134). -/
inductive Hint where
  | none
  | hx (payloads : List Nat)
  | hv (payload : Nat)
deriving DecidableEq, Repr

/-- A stream's binding and position (R210, R211, R214). `dir`: 0 unused, 1 read, 2 write. `held`: the ring slot taken and not
passed, with the elements of it already used. -/
structure Stream where
  fmt : Nat
  base : Nat
  stride : Int
  count : Nat
  pos : Nat := 0
  dir : Nat := 0
  ring : Bool := false
  held : Option (Nat × Nat) := none
deriving DecidableEq, Repr

/-- A mask stream's binding and position (R259). -/
structure MaskStream where
  base : Nat
  count : Nat
  pos : Nat := 0
  dir : Nat := 0
deriving DecidableEq, Repr

/-- A guard's state (R184). -/
inductive GuardState where
  | free
  | pending
  | isTrue
  | isFalse
deriving DecidableEq, Repr

/-- What a queued command's guard has resolved to (R184): run, discard, or the pending resolution of guard `g`. -/
inductive Binding where
  | run
  | discard
  | pend (g : Nat)
deriving DecidableEq, Repr

/-! ## Engine commands -/

/-- The number handling a command takes at its issue (R150, R248): rounding mode, SAT, tolerance, lane mask, zero policy, fourth
operand. -/
structure NumEnv where
  mode : Nat := 0
  sat : Bool := true
  tol : Nat := 255
  mask : Option Nat := none
  zero : Bool := false
  op4 : Option Nat := none
deriving DecidableEq, Repr

/-- The operation of a vector command (R253, R265, R327). -/
inductive VOp where
  | arith (k : Nat) (iw : Bool)      -- 0 add, 1 sub, 2 mul, 3 min, 4 max
  | fma (iw : Bool)
  | unary (neg : Bool) (iw : Bool)   -- abs or neg
  | cmp (cond : Nat)
  | sel (m : Nat)
  | logic (k : Nat)                  -- 0 and, 1 or, 2 xor
  | shift (k : Nat)                  -- 0 sll, 1 srl, 2 sra
  | cvt
  | qnt (fix wide : Bool)
  | dqnt (sum wide : Bool)
  | red (op fmt : Nat)
  | scan (op : Nat) (excl : Bool)
  | perm
  | bcst (fmt : Nat)
  | mov
  | mlogic (k : Nat)                 -- 0 and, 1 or, 2 xor, 3 not
  | mset (unb : Bool)
  | special (k : Nat)                -- 0 rcp, 1 rsq, 2 exp2, 3 log2, 4 tanh, 5 sigm, 6 sin, 7 cos
  | baddq (fix wide : Bool)
deriving DecidableEq, Repr

/-- How far the executing vector command has come (R250, R252): its length, elements done, running value of a reduction or scan
(with the on elements met), flags raised, the summary of VDQNT, and a stop by a fault (cause and value). -/
structure VRun where
  len : Nat
  done : Nat := 0
  acc : Option FV := none
  accBits : Nat := 0
  seen : Bool := false
  flags : Nat := 0
  sumErr : Nat := 255
  sumFlags : Nat := 0
  sumSegs : Nat := 0
  sumZ : Nat := 0
  fault : Option (Nat × Word) := none
deriving DecidableEq, Repr

/-- A vector command in its queue, with the registers it read at issue (R245); `seq` orders the issues of both engines (R48). -/
structure VCmd where
  op : VOp
  x : Nat
  y : Nat
  z : Nat
  k1 : Reg := {}
  k2 : Reg := {}
  env : NumEnv := {}
  bind : Binding := .run
  grd : Option Nat := none
  pc : Nat := 0
  seq : Nat := 0
  run : Option VRun := none
deriving DecidableEq, Repr

/-- Ordering flags of a command (R234, R271): acquire, release, scope. -/
structure Order where
  acq : Bool := false
  rel : Bool := false
  scope : Nat := 0
deriving DecidableEq, Repr

/-- The operation of a matrix command (R270 to R284). -/
inductive MOp where
  | mclm (span : Nat)
  | mrel
  | mld (o : Order)
  | mma (init : Nat) (decay rmk cmk int : Bool)
  | mdrn (t int : Bool) (o : Order) (fl tl : Bool)
  | mspl (o : Order)
  | mrst (o : Order)
  | msnd
  | mzacc
  | mmov (k : Nat)
deriving DecidableEq, Repr

/-- A matrix command in its queue (R270 to R284). `remote`: it came by MSND (its faults take PC 0xFFFF). -/
structure MCmd where
  op : MOp
  x : Nat
  y : Nat
  z : Nat
  k1 : Reg := {}
  k2 : Reg := {}
  k3 : Reg := {}
  k4 : Reg := {}
  env : NumEnv := {}
  bind : Binding := .run
  grd : Option Nat := none
  pc : Nat := 0
  seq : Nat := 0
  remote : Bool := false
deriving DecidableEq, Repr

/-- The operation of a copy command (R234 to R239). -/
inductive COp where
  | cpy
  | cgth
  | csct
  | cdst
  | cmcst
  | cfnc
deriving DecidableEq, Repr

/-- A copy command in its queue, with its operands read at issue (R233, R234). -/
structure CCmd where
  op : COp
  seq : Nat := 0
  dst : Reg := {}
  src : Reg := {}
  len : Reg := {}
  cnt : Nat := 0
  bb : Nat := 0
  o : Order := {}
  bind : Binding := .run
  grd : Option Nat := none
  pc : Nat := 0
deriving DecidableEq, Repr

/-- A copy in flight (R234, R236, R241): its command, its parts (lines of the destination, or elements: offset and size; in CDST the offset
at the target and 2^32 times the target's number), its reads (lines of the source, or elements: offset and size) with what those done have
given, the element indices, the page that a read (2 x its number) or a part's write (2 x its number + 1) waits for, the writes still to come
of a part, the parts done, and the lowest fault. -/
structure Copy where
  id : Nat
  cmd : CCmd
  parts : List (Nat × Nat)
  srcs : List (Nat × Nat) := []
  got : AList (List Byte × List Bool) := []
  index : List Int := []
  keep : Bool := false
  waits : AList Nat := []
  left : AList Nat := []
  done : List Nat := []
  status : Nat := 0
  elem : Nat := 0
deriving DecidableEq, Repr

/-! ## Accesses -/

/-- Where an access under way goes (R292, R293). -/
inductive Dest where
  | home (pa : Nat)
  | bank (core : Nat) (sup : Bool) (la : Nat) (check : Bool)
  | istore (core addr : Nat)
deriving DecidableEq, Repr

/-- How far an access under way has come (R293). -/
inductive Stage where
  | buffer
  | lane
  | slice
  | link
  | port
  | served
deriving DecidableEq, Repr

/-- An atomic operation at the home (R230): 0 add, 1 min, 2 max, 3 and 4 unsigned min and max, 5 and, 6 or, 7 xor, 8 swap, 9 compare
and swap, 10 FP32 add; its operand, what it compares with, and whether the capability may store a tag. -/
structure Amo where
  op : Nat
  y : Reg
  cmp : Word := 0
  sc : Bool := false
deriving DecidableEq, Repr

/-- An access under way (R292, R293, R295): a read of `size` bytes where `write` and `amo` are none. `tags`: of the 16-byte units a write
carries. `born`: the tick of the issue it belongs to. `copy`, `part`: the copy or matrix command and the part it serves (of a copy's read,
the read's number). `need`: the permission of the table check; `tenant`: the snapshot tested there (R233); `bar`: the byte barrier a
performed line adds to (R238). `reg`, `sg`, `lc`: where a read's value goes, its extension, and whether a tag may be read. `val`, `vtags`:
what was served. `linked`: the step in which it entered its die link. -/
structure Access where
  id : Nat
  core : Nat
  sup : Bool
  eng : Nat
  dest : Dest
  size : Nat
  write : Option (List Byte) := none
  tags : List Bool := []
  amo : Option Amo := none
  stage : Stage := .buffer
  die : Nat := 0
  seq : Nat := 0
  clock : List Nat := [0, 0, 0, 0]
  born : Nat := 0
  copy : Nat := 0
  part : Nat := 0
  need : Nat := 0
  bar : Nat := 0
  tenant : Option (Option (Nat × Nat)) := none
  reg : Option Nat := none
  sg : Bool := false
  lc : Bool := false
  val : List Byte := []
  vtags : List Bool := []
  linked : Nat := 0
deriving DecidableEq, Repr

/-! ## Matrix state -/

/-- An element of a loaded tile: an element pattern of a format, a BX element's exact value, or a pattern with its scale (R40). -/
inductive TElem where
  | raw (fmt p : Nat)
  | bx (neg : Bool) (m : Nat) (e : Int)
  | scaled (fmt p : Nat) (fp32 : Bool) (scale : Nat)
deriving DecidableEq, Repr

/-- One row of a tile: its format code and its elements (R272). -/
structure TileRow where
  fmt : Nat
  elems : List TElem
deriving DecidableEq, Repr

/-- A matrix operand slot (R268, R269). `st`: 0 FREE, 1 CLAIMED, 2 FILLING, 3 FULL, 4 FAULTED, 5 STAGING, 6 RELEASING (the codes of
R286). The tile and the staged values stand in the head slot of the group. -/
structure MSlot where
  st : Nat := 0
  head : Nat := 0
  span : Nat := 1
  kv : Nat := 0
  rowsp : Nat := 0
  rows : List TileRow := []
  staged : AList FV := []
  parts : List Nat := []
  target : Option (Nat × Nat × Nat) := none
  stagedRows : Nat := 0
deriving DecidableEq, Repr

/-- An MLD on the load path (R273): its group, its command, the record it resolved to (base address, record and capability) once its
record has been used, whether it waits for a page, the row whose page has failed, and the time at which the first datum of its banks
arrives. -/
structure MWork where
  slot : Nat
  cmd : MCmd
  use : Option (Int × Nat × Nat) := none
  paged : Bool := false
  failed : Option Nat := none
  datum : Nat := 0
deriving DecidableEq, Repr

/-- An MDRN or MSPL on the store path (R281, R283): its name, which its accesses carry, its command, whether it waits until every write
has been performed at its home, its status with the lowest line that failed, the flags it raises when it completes (R49), and the groups
that it flushed (R269). -/
structure MStore where
  id : Nat
  cmd : MCmd
  full : Bool
  status : Nat := 0
  elem : Nat := 0
  flags : Nat := 0
  groups : List Nat := []
deriving DecidableEq, Repr

/-- An MMA whose cells are still to be written (R278): its accumulator, its guard, whether it came by MSND, and the flags it raises when it
completes (R275). -/
structure MMul where
  acc : Nat
  grd : Option Nat
  remote : Bool
  flags : Nat
deriving DecidableEq, Repr

/-! ## Banks, messages, repetition, transactions -/

/-- An attach table entry (R192). `st`: 0 attached, 1 draining, 2 arriving, 3 frozen when valid; 0 empty, 1 expecting when not. -/
structure Entry where
  hslot : Nat := 0
  hcore : Nat := 0
  rpol : Nat := 0
  st : Nat := 0
  perm : Nat := 0
  cls : Nat := 0
  valid : Bool := false
  bank : Nat := 0
deriving DecidableEq, Repr

/-- What an inbox presents (R202, R306, R326). -/
inductive InboxItem where
  | msg (payload : Word) (src : Nat)
  | notice (kind slot bank src srcSlot cause : Nat)
  | block (payload : Word)
deriving DecidableEq, Repr

/-- A posted receive (R311): what it matches, where the payload goes, and how it completed (status, source, tag). -/
structure Precv where
  handle : Nat
  src : Nat
  anys : Bool
  tag : Nat
  anyt : Bool
  addr : Nat
  done : Option (Nat × Nat × Nat) := none
deriving DecidableEq, Repr

/-- A tagged message in the overflow queue (R311), with the clock that it carried (R295). -/
structure TagMsg where
  payload : Word
  src : Nat
  tag : Nat
  clock : List Nat := []
deriving DecidableEq, Repr

/-- A chain reservation (R316), and the context at the head of the chain that it serves, once a line has come. -/
structure Resv where
  addr : Nat
  len : Nat
  tag : Nat
  bar : Nat
  chain : Option (Nat × Bool) := none
deriving DecidableEq, Repr

/-- An active repetition (R180, R183). `body`: the words captured when they were first fetched, in this repetition or since it resumed. -/
structure Rep where
  start : Nat
  n : Nat
  stride : Nat
  count : Nat
  pass : Nat := 0
  body : AList (BitVec 32) := []
deriving DecidableEq, Repr

/-- What a staged action will do at its commit (R350, R351). -/
inductive TxKind where
  | att (req bank : Nat)
  | det (slot : Nat)
  | hand (r : HandReq)
  | send (m : Msg) (tagged : Bool)
  | tdec (j : Nat)
  | tspawn (r : SpawnReq)
deriving DecidableEq, Repr

/-- A staged action with its register and the status its checks gave (R351). -/
structure TxAct where
  kind : TxKind
  reg : Nat
  status : Nat
  bank : Nat
  pc : Nat := 0
deriving DecidableEq, Repr

/-- An open control transaction (R350 to R353). `abort`: the ABCAUSE of R352, 0 while it is not aborted. -/
structure Tx where
  acts : List TxAct := []
  abort : Nat := 0
  since : Nat := 0
  accounts : Bool := false
deriving DecidableEq, Repr

/-- What the sequencer waits in, for the events that end the wait: the destination registers, the time-out and its start (R308,
R312), the neighbour of a port (R309), the barrier (R314), or the counter slice's commit (R321, R352). `since`: the cycle in which the wait
began; `told`: a receive cycle that it is part of has been reported (R313). -/
inductive Waiting where
  | recv (d h : Nat) (timeout start : Nat)
  | probe (d handle : Nat) (timeout start since : Nat) (told : Bool)
  | port (target since : Nat) (told : Bool)
  | bar (key d : Nat)
  | commit (d : Nat)
  | tdone (mask : Nat)
deriving DecidableEq, Repr

/-- A launch snapshot (R67): the effective values a launch's tasks use. -/
structure Snapshot where
  rcb : Nat
  prio : Nat
  fhimg : Nat
  fhent : Nat
  flog : Nat
  flogn : Nat
  acct : Nat
  tenant : Nat
  tmask : Nat
  vf : Nat
  pfn : Nat
  witbase : Nat
  witn : Nat
deriving DecidableEq, Repr

/-- A context's place in a chorus (R125 to R128). -/
inductive Role where
  | single
  | leader (followers : List Nat)
  | attached (leader : Nat)
  | detached (leader : Nat)
  | joining (leader : Nat) (at_ : Nat)
deriving DecidableEq, Repr

/-- A word the leader forwarded, its address, the leader's address after it and whether it was a transfer taken (R126), and for a word that
acts only on the leader (R322) the register whose result is awaited and the result. -/
structure FwdWord where
  word : BitVec 32
  pc : Nat
  next : Nat
  taken : Bool := false
  needs : Option Nat := none
  res : Option Word := none
deriving DecidableEq, Repr

/-- The debug registers of a context (R361 to R371). `enc`: the encoder's records on their way to memory; `runs`: its run of each slot. -/
structure Debug where
  brkh : Bool := false
  halted : Bool := false
  reason : Nat := 0
  idx : Nat := 0
  step : Bool := false
  grace : Bool := false
  depth : Nat := 0
  beyond : Bool := false
  under : Bool := false
  lbl : AList Nat := []
  ibp : AList Nat := []
  wpa : AList Nat := []
  wpm : AList Nat := []
  trctl : Nat := 0x1C
  trstart : Nat := 0
  trstop : Nat := 0
  trdrop : Nat := 0
  trbuf : Nat := 0
  bwtSlot : Nat := 0
  enc : List (BitVec 64) := []
  runs : AList (BitVec 64) := []
deriving DecidableEq, Repr

/-- A context: all that its instructions read and write (R145 to R148, R151), as it stands at creation (R147). `parked`: of a saved context, the
engines' accesses recorded with it (R242, R300). `rseed`: the generator's state that a context brings to its core or that was saved with it
(R48): while it is resident, its core holds it. `stale`: of a word of the store, the values it has had since the context's last fetch fence.
`sends`, `msnds`: the SENDs whose status is outstanding, and the guards of the MSNDs whose answer is. `word`: the word that is in issue or
was last; `op`: the map-0 opcode that it performs (R138). -/
structure Ctx where
  regs : AList Reg := []
  pc : Nat := 0
  word : BitVec 32 := 0
  op : Nat := 0
  hint : Hint := .none
  hintPc : Nat := 0
  streams : AList Stream := []
  masks : AList MaskStream := []
  guards : AList GuardState := []
  mslots : AList MSlot := []
  cells : AList (BitVec 32) := []
  fresh : AList (AList (BitVec 32)) := []
  mmas : List MMul := []
  gamma : AList (BitVec 32) := []
  mfault : Word := 0
  ports : AList (List Word) := []
  dzt : Bool := false
  fmt : Nat := 0x00FF100A
  fexc : Nat := 0
  rseed : BitVec 32 := 1
  instN : Nat := 0
  node : Nat := 0
  rank : Nat := 0
  trow0 : Nat := 0
  trows : Nat := 0
  demand : Nat := 0xFFFFFFFFFF
  share : Nat := 0xFFFFFFFFFFFF
  ownshr : Nat := 0xFFFFFFFF
  ctime : Nat := 0
  acsel : Nat := 0
  dtab : AList (BitVec 16) := []
  dbg : Debug := {}
  attach : AList Entry := []
  inbox : List InboxItem := []
  precvs : List Precv := []
  tagq : List TagMsg := []
  resv : List Resv := []
  cnt : AList Nat := []
  cfault : AList Word := []
  barr : AList Nat := []
  vq : List VCmd := []
  mq : List MCmd := []
  cq : List CCmd := []
  copies : List Copy := []
  fills : List MWork := []
  mstores : List MStore := []
  reps : List Rep := []
  acct : AList Nat := []
  tx : Option Tx := none
  pend : AList Nat := []
  sends : Nat := 0
  msnds : List (Option Nat) := []
  waiting : Option Waiting := none
  imprecise : List (Nat × Word) := []
  region : Option Snapshot := none
  inst : Option InstRef := none
  handler : Option Nat := none
  resident : Nat := 0
  role : Role := .single
  fwdq : List FwdWord := []
  stale : AList (List (BitVec 32)) := []
  parked : List Access := []
deriving DecidableEq, Repr

/-! ## The core -/

/-- Whether a core or cluster has power (R119). -/
inductive Power where
  | on
  | gating (committed : Bool) (held : Bool)
  | off
  | waking
deriving DecidableEq, Repr

/-- A leaf translation held in a core's translation buffer (R225): function, virtual page, physical page, the guest page it went
through, whether reads and writes are permitted, and the size of the stage-one page that it was formed through, as a power of two. -/
structure Tlb where
  fn : Nat
  vpage : Nat
  ppage : Nat
  gpage : Nat
  rd : Bool
  wr : Bool
  size : Nat := 12
deriving DecidableEq, Repr

/-- A translation that has failed for the word in issue (R226): its page, whether it was to write, the cause and its %tval. -/
structure WalkFail where
  page : Nat
  wr : Bool
  cause : Nat
  val : Nat
deriving DecidableEq, Repr

/-- A start on its way to a core (R106, R117): supervisor or user, entry, arguments, the user context as Saffron prepared it, and the
clock of Saffron's die when it was sent (R295). -/
structure Start where
  sup : Bool
  pc : Nat
  arg0 : Nat := 0
  arg1 : Nat := 0
  ctx : Option Ctx := none
  clock : List Nat := [0, 0, 0, 0]
deriving DecidableEq, Repr

/-- One core with its two contexts and its supervisor state (R333 to R336). `fwd`: of an attached follower, the forwarded word in issue;
`fwdh`: the hint words of its instruction, of a follower those popped with it, of a leader those not forwarded yet (R137); `issued`: whether
the word in issue has issued (it has not while it waits or when it traps); `took`: whether it was a transfer of control, taken; `killImp`:
whether the cause of the kill under way is imprecise (R340); `seen`: %elapsed up to which the core's accounts are charged; `rseed`: the
core's stochastic generator (R48); `charged`: the address, the cause and the context that the last cycle of the sequencer's slot was charged
to; `stallq`, `stallv`, `stallm`: what the sequencer, the vector engine and the matrix unit last waited for, to which their cycles go while
nothing else is known of them (R153); `datum`: the time from which on the matrix unit no longer waits for a first datum (R273). -/
structure Core where
  user : Ctx := {}
  sup : Ctx := {}
  supOn : Bool := false
  uload : Bool := false
  udisp : Bool := false
  pendT : Bool := false
  spend : Bool := false
  tvec : Nat := 0
  tcause : Nat := 0
  tpc : Nat := 0
  tval : Word := 0
  stcause : Nat := 0
  stpc : Nat := 0
  stval : Word := 0
  tlim : Nat := 0x10000
  umap : Bool := false
  smap : Bool := false
  smapOld : Option (Bool × AList (BitVec 16)) := none
  dtidx : Nat := 0
  repShadow : Option (List Rep) := none
  dead : Bool := false
  hold : AList (Nat × Nat × Option Nat) := []
  idle : AList Nat := []
  supAcct : AList Nat := []
  tlb : List Tlb := []
  walkFail : Option WalkFail := none
  power : Power := .off
  idleSince : Nat := 0
  mappedOut : Bool := false
  marked : Bool := false
  killing : Bool := false
  start : Option Start := none
  niq : List Msg := []
  image : Option (Nat × Nat × Nat) := none
  preempt : Bool := false
  fwd : Option FwdWord := none
  fwdh : List FwdWord := []
  issued : Bool := false
  took : Bool := false
  killImp : Bool := false
  seen : Nat := 0
  rseed : BitVec 32 := 1
  stallq : Nat := 8
  charged : Option (Nat × Nat × Bool) := none
  stallv : Nat := 8
  stallm : Nat := 8
  datum : Option Nat := none
deriving DecidableEq, Repr

/-! ## Banks, dies, functions -/

/-- What a bank of the pool is doing (R187, R348). -/
inductive BankCond where
  | free
  | scrubbing
  | attached
  | parked (i : InstRef) (slot : Nat)
  | frozen
  | out
deriving DecidableEq, Repr

/-- A ring's counters (R206, R207), and the slots that copies have begun with the bytes of each that have been performed, oldest first. -/
structure Ring where
  sz : Nat
  cnt : Nat
  head : Nat := 0
  tail : Nat := 0
  free : Nat
  filled : Nat := 0
  begun : List (Nat × Nat) := []
deriving DecidableEq, Repr

/-- A bank's condition, its attachments in order with their regions (a context's key is 2 x core + side, a save area's 8,418 + its
address), the region charged, class and permissions while parked or frozen, ring and write trace ring (R193, R206, R302). -/
structure Bank where
  cond : BankCond := .free
  holders : List (Nat × Option Nat) := []
  charge : Option Nat := none
  cls : Nat := 0
  perm : Nat := 0
  ring : Option Ring := none
  traceOn : Bool := false
  trace : List (BitVec 64) := []
  drops : Nat := 0
  marked : Bool := false
deriving DecidableEq, Repr

/-- An open barrier episode (R314): N, the region of the first arrival, the cores that arrived, and whether it is released. -/
structure Barrier where
  n : Nat
  region : Option Nat
  arrived : List (Nat × Bool)
  released : Bool := false
deriving DecidableEq, Repr

/-- A cluster's pool configuration (R188). -/
structure Cluster where
  werr : Bool := false
  owner : Nat := 0
  cbl : Nat := 0
  en : Bool := false
  power : Power := .off
  idleSince : Nat := 0
deriving DecidableEq, Repr

/-- A non-leaf entry in a die's walk cache (R225): its function, stage and level, the address bits down to that level, and the entry. -/
structure WalkEntry where
  die : Nat
  fn : Nat
  st2 : Bool
  lvl : Nat
  pre : Nat
  entry : Nat
deriving DecidableEq, Repr

/-- A miss of a core's sequencer that waits for a walk (R225): the core, and whether it is to read and to write. -/
structure Miss where
  core : Nat
  rd : Bool
  wr : Bool
deriving DecidableEq, Repr

/-- A walk in progress (R225): the die of its translation unit, function, virtual address, the misses that joined it. -/
structure Walk where
  id : Nat
  die : Nat
  fn : Nat
  va : Nat
  misses : List Miss
deriving DecidableEq, Repr

/-- An access that waits on a page request: the core (of Saffron, the die), the virtual page, its source (0 sequencer, 2 matrix unit, 3 copy
engine, 4 Saffron), and whether it writes. -/
structure Waiter where
  core : Nat
  vpage : Nat
  eng : Nat
  wr : Bool := false
deriving DecidableEq, Repr

/-- A Page Request Message (R227, R243): its group index, the address of its page, the PASID of a stage-one request, what it asks for, and
whether it is the last of its group. -/
structure PageMsg where
  group : Nat
  addr : Nat
  pasid : Option Nat
  rd : Bool
  wr : Bool
  exec_ : Bool := false
  priv : Bool := false
  last : Bool := true
deriving DecidableEq, Repr

/-- A queued page request (R227, R243): its group, stage, page and access kind, the accesses that wait on it, when it was sent, and the
message that it was sent as. -/
structure Prq where
  group : Nat
  stage2 : Bool
  page : Nat
  wr : Bool
  waits : List Waiter
  sent : Nat
  msg : PageMsg
deriving DecidableEq, Repr

/-- A function's translation context, page request queue and queue registers (R221, R227, R375 to R377). `inval`: an invalidation
outstanding, then those queued: kind, stage-two bit, address. -/
structure Func where
  s1root : Nat := 0
  s2root : Nat := 0
  s1en : Bool := false
  s2en : Bool := false
  inval : List (Nat × Bool × Nat) := []
  prq : List Prq := []
  crbase : Nat := 0
  crsize : Nat := 0
  crhead : Nat := 0
  crtail : Nat := 0
  drops : Nat := 0
  held : List (BitVec 256) := []
  ringOut : List (Nat × BitVec 256) := []
  msix0 : Nat := 0
  msix1 : Nat := 0
  vfEnable : Bool := false
  numVfs : Nat := 0
  ready : Bool := false
deriving DecidableEq, Repr

/-! ## Saffron -/

/-- A node of a checked template (R70) with its sensitivity entry (R82). -/
structure Node where
  image : Nat
  entry : Nat
  shape : Nat
  size : Nat
  banks : Nat
  retain : Bool
  deps : Nat
  ops : List (Nat × Int)
  succs : List Nat
  sens : Nat
deriving DecidableEq, Repr

/-- An input of a sensitivity entry (R83). -/
structure SensIn where
  sig : Int
  wgt : Nat
  srcv : Bool
  keep : Bool
  srcout : Nat
  srcnode : Nat
deriving DecidableEq, Repr

/-- A sensitivity entry (R82). -/
structure Sens where
  upol : Bool
  nout : Nat
  own : Nat
  ins : List SensIn
deriving DecidableEq, Repr

/-- A checked template in the die's store (R71). -/
structure Template where
  rcb : Nat
  addr : Nat
  gen : Nat
  recbase : Nat
  recn : Nat
  nodes : List Node
  sens : List Sens
deriving DecidableEq, Repr

/-- A registered code image (R108). -/
structure Image where
  fn : Nat
  imgid : Nat
  addr : Nat
  textlen : Nat
  bdn : Nat
  gen : Nat
deriving DecidableEq, Repr

/-- A live launch (R103, R104, R109). `tiles`: instance number, first row, rows for a device-built launch. -/
structure Launch where
  id : Nat
  fn : Nat
  tag : Nat
  snap : Snapshot
  tpl : Template
  first : Nat
  count : Nat
  defdem : Nat
  dems : List (Nat × Nat × Nat)
  dstore : Nat
  tiles : List (Nat × Nat × Nat) := []
  retired : Nat := 0
  faulted : Nat := 0
  skipped : Nat := 0
  discarded : Nat := 0
  cancelled : Bool := false
deriving DecidableEq, Repr

/-- The state of an instance (R111). -/
inductive IState where
  | waiting
  | ready
  | placing
  | blocked
  | running
  | suspended
  | retired
  | discarded
  | faulted
deriving DecidableEq, Repr

/-- An instance (R110, R111): its state, dependence counter and level; its ready time, when it last became READY or SUSPENDED and how long it
had waited before (R112, R114); its demands by output (R87); its retention entry (R95, R96): held, re-runs made, whether its present run is
one, the re-arms queued (output and code), and the consumers that wait (node, rank, whether for the queued one); its own TRED's answer by
rank (255: none yet); the successor positions decremented; the cores it holds and the save areas of its members, by rank; when it was first
found to fit nowhere, when it was dispatched, its resident cycles; whether its demand word has been written (R87). -/
structure Inst where
  ref : InstRef
  st : IState
  counter : Nat
  prio : Nat
  ready : Nat := 0
  since : Nat := 0
  waited : Nat := 0
  starved : Bool := false
  demand : List Nat := []
  held : Bool := false
  reruns : Nat := 0
  rearmed : Bool := false
  requeue : List (Nat × Nat) := []
  waiters : List (Nat × Nat × Bool) := []
  tred : AList Nat := []
  decd : List Nat := []
  cores : List Nat := []
  areas : List Nat := []
  failedPlace : Option Nat := none
  disp : Nat := 0
  resid : Nat := 0
  word : Bool := false
deriving DecidableEq, Repr

/-- The fault domain cursor of a log (R342): records covered by the last handler, records already read, whether one runs. -/
structure Domain where
  covered : Nat := 0
  read : Nat := 0
  running : Bool := false
  snap : Snapshot
deriving DecidableEq, Repr

/-- A die: its clock, network and Saffron (R292, R295, R318, R110 to R118). `holdCluster`, `holdTask`: the cluster held for the oldest
starved task, and that task (R112). `areas`: the free areas of its save store (R346). `asked`: of a function, the page that the message
at the head of its queue waits for; `pageFail`: the pages asked for that have failed (R71). `since`: the time at which its reset was
released. -/
structure Die where
  vc : List Nat := [0, 0, 0, 0]
  queues : AList (List (BitVec 512)) := []
  launches : List Launch := []
  insts : List Inst := []
  images : List Image := []
  templates : List Template := []
  nextLaunch : Nat := 1
  served : AList Nat := []
  holdCluster : Option Nat := none
  holdTask : Option InstRef := none
  areas : List Nat := []
  domains : AList Domain := []
  netThr : Nat := 0x100
  netEn : Bool := true
  twoPhase : Bool := false
  reset : Bool := false
  retiredCh : List Nat := []
  markedCh : List Nat := []
  thermal : Bool := false
  pageFail : List (Nat × Nat) := []
  asked : AList Nat := []
  since : Nat := 0
deriving DecidableEq, Repr

/-! ## Management, Nolorn, links -/

/-- A hardware semaphore (R101). -/
structure Sem where
  owner : Nat := 0
  forced : Bool := false
deriving DecidableEq, Repr

/-- A Clove block queue's configuration (R378), and for each block begun 2 x the ranks delivered + 1 where the last of them has not been
taken (R326). -/
structure Bq where
  bs : Nat := 0
  p : Nat := 0
  base : Nat := 0
  open_ : AList Nat := []
deriving DecidableEq, Repr

/-- A Gwesko link's lanes (R382). -/
structure Link where
  spare : Bool := true
  retraining : Bool := false
  lanes : Nat := 8
deriving DecidableEq, Repr

/-- A key of the key store (R388): 64 bytes and what kind of key it is: 0 private, 1 SM2 public, 2 firmware, 3 tenant SM4. -/
structure Key where
  kind : Nat
  bytes : BitVec 512
deriving DecidableEq, Repr

/-- The management window and the links (R378, R381, R382, R384). `duskAt`: %elapsed at the next periodic pulse (R373); `losses`: the
uncorrectable losses counted, by the unit of R354. -/
structure Mgmt where
  sems : AList Sem := []
  replace : Bool := false
  thermal : Bool := false
  logNew : Bool := false
  mlogBase : Nat := 0
  mlogPages : Nat := 0
  dieReset : Nat := 0
  clockStopped : Bool := false
  fwupd : Nat := 0
  duskPeriod : Nat := 0
  duskAt : Nat := 0
  duskBase : Nat := 0
  duskPages : Nat := 0
  duskDropped : Nat := 0
  duskBusy : Bool := false
  bq : AList Bq := []
  cecnt : AList Nat := []
  cethr : AList Nat := []
  cxlCap : AList Nat := []
  cxlDown : List Nat := []
  links : AList Link := []
  spareCores : AList Nat := []
  spareBanks : AList Nat := []
  losses : AList Nat := []
  poweredUp : Bool := false
deriving DecidableEq, Repr

/-- The root of trust (R386 to R388). `blowing`: each FUSE under way and the cycle at which it is done. -/
structure Nolorn where
  fuse : Nat
  unlk : Bool := false
  wiped : Bool := false
  ext : Bool := false
  meas : AList (BitVec 256) := []
  nonce : BitVec 256 := 0
  draws : Nat := 0
  keys : AList Key := []
  blowing : List (Nat × Nat) := []
deriving DecidableEq, Repr

/-! ## The machine -/

/-- The state of the machine. `agenda`: the steps chosen to come next, events of the outside world among them; `inputs`: what else the
outside world does, for which the opcode table has no row; `flight`: events under way, oldest first; `cur`: the core whose sequencer moves
when the agenda is empty; `order`: the cores that move after it. -/
structure State where
  agenda : List Event := []
  inputs : List Input := []
  flight : List Event := []
  cur : Nat := 0
  order : List Nat := []
  tick : Nat := 0
  nextId : Nat := 0
  elapsed : Nat := 0
  cores : AList Core := []
  istore : List Host.Cell := []
  bankMem : List Host.Cell := []
  mem : List Host.Cell := []
  sram : List Host.Cell := []
  tags : List Nat := []
  banks : AList Bank := []
  clusters : AList Cluster := []
  barriers : AList Barrier := []
  accesses : List Access := []
  locClock : AList (List Nat) := []
  walks : List Walk := []
  walkCache : List WalkEntry := []
  dies : AList Die := []
  funcs : AList Func := []
  areas : AList (Nat × Ctx) := []
  mgmt : Mgmt := {}
  nolorn : Nolorn
deriving DecidableEq, Repr

/-! ## Why a step stops -/

/-- Faults: the machine stops. There is none: what the spec calls a fault is a trap, a status or a record, after which the machine goes
on, and an event that names a part that the machine does not have is never enabled and changes nothing (entry 13). -/
inductive Fault where
deriving DecidableEq, Repr

/-- Refusals: the model gives the operation no meaning. -/
inductive Refusal where
  /-- The row named is not modelled (raised only by an arm of exec that has no meaning; safe). -/
  | notModelled (mnemonic : String)
deriving DecidableEq, Repr

/-- Module power is good, nothing runs (R120): every cluster gated, each Saffron empty, memory and banks listing nothing, every
register at the value of its Reset column. What the spec leaves to the fuses: FUSE is 3, a deployed device (entry 1); the identity
key and the vendor's key are Config's (R388). -/
def State.reset : State :=
  { nolorn := { fuse := 3, keys := [(0, { kind := 0, bytes := Config.identityKey }), (1, { kind := 1, bytes := Config.vendorKey })] } }

end Sys2Proof.Machine
end

