-- ==== Sys2Proof/WellFormed.lean ====
section
/-! DEFINITION. The values of an instruction's fields that the spec does not reserve (R132 and each instruction's description). What
depends on the machine's state (the lanes of PCVT and PQNT, SC of PDOT with an integer PW) is checked at issue. -/

namespace Sys2Proof

/-- The special numbers that name a register (R148, R334, R361, R386, R387): the security registers on the Nolorn core only. -/
def specialNamed (nolorn : Bool) (h : Nat) : Bool :=
  h ≤ 3 || (0x10 ≤ h && h ≤ 0x14) || (0x18 ≤ h && h ≤ 0x1A) || (0x20 ≤ h && h ≤ 0x23) || h == 0x28 || (0x30 ≤ h && h ≤ 0x32) ||
    (0x100 ≤ h && h ≤ 0x108) || (0x200 ≤ h && h ≤ 0x202) || (0x204 ≤ h && h ≤ 0x214) || (0x220 ≤ h && h ≤ 0x231) ||
    (nolorn && (h == 0x300 || h == 0x301 || (0x304 ≤ h && h ≤ 0x30B) || h == 0x310 || h == 0x312 || h == 0x313))

/-- SCOPE is not 7, and is 0 where neither ACQ nor REL is set (R234). -/
def scopeWf (p : BitVec 3) (rel acq : Bool) : Bool := p != 7 && (rel || acq || p == 0)

/-- The width code of an integer operation is not 3 (R162). -/
def widthWf (n : BitVec 2) : Bool := n != 3

/-- A shift immediate: no width code 3, and an amount below the width (R166). -/
def shiftWf (w : BitVec 2) (m : BitVec 7) : Bool := w == 0 || (w == 1 && m < 64) || (w == 2 && m < 32)

/-- The selector of a state condition lies in its range (R177). -/
def condWf (c s : BitVec 6) : Bool :=
  (c == 0 && s == 0) || ((c == 1 || c == 2) && s < 4) || c == 3 || c == 4 || c == 5 || ((c == 6 || c == 7) && s < 8)

/-- A format code that PW may be (R58). -/
def packedFormat (f : Nat) : Bool :=
  f == 2 || f == 3 || f == 4 || f == 5 || f == 8 || f == 9 || f == 10 || f == 11 || f == 12 || f == 13

/-- An accumulator field (R132). -/
def acWf (x : BitVec 3) : Bool := x < 4

/-- A special function's tolerance field is 0 without TR (R265). -/
def trWf (z : BitVec 3) (t : Bool) : Bool := t || z == 0

/-- Whether the fields of an instruction hold no reserved value. -/
def Instr.wf (nolorn : Bool) : Instr → Bool
  | .hv t o e m p r f s => (t || o == 0) && (e || m == 0) && p != 3 && r != 6 && (f || s == 0)
  | .srd _ h => specialNamed nolorn h.toNat
  | .swr _ h => specialNamed nolorn h.toNat
  | .add _ _ _ n => widthWf n
  | .sub _ _ _ n => widthWf n
  | .mul _ _ _ n => widthWf n
  | .mulh _ _ _ n => widthWf n
  | .mulhu _ _ _ n => widthWf n
  | .div _ _ _ n => widthWf n
  | .divu _ _ _ n => widthWf n
  | .rem _ _ _ n => widthWf n
  | .remu _ _ _ n => widthWf n
  | .and _ _ _ n => widthWf n
  | .or _ _ _ n => widthWf n
  | .xor _ _ _ n => widthWf n
  | .sll _ _ _ n => widthWf n
  | .srl _ _ _ n => widthWf n
  | .sra _ _ _ n => widthWf n
  | .rol _ _ _ n => widthWf n
  | .ror _ _ _ n => widthWf n
  | .clz _ _ n => widthWf n
  | .ctz _ _ n => widthWf n
  | .popc _ _ n => widthWf n
  | .min _ _ _ n => widthWf n
  | .max _ _ _ n => widthWf n
  | .minu _ _ _ n => widthWf n
  | .maxu _ _ _ n => widthWf n
  | .slt _ _ _ n => widthWf n
  | .sltu _ _ _ n => widthWf n
  | .slli _ _ w m => shiftWf w m
  | .srli _ _ w m => shiftWf w m
  | .srai _ _ w m => shiftWf w m
  | .bc c s _ => condWf c s
  | .bnc c s _ => condWf c s
  | .rep d c _ _ => d == 0 || c == 0
  | .fcvt _ _ s t => s ≤ 13 && t ≤ 13
  | .fclas _ _ f => f ≤ 8
  | .fsgnj _ _ _ v _ => v != 3
  | .ldIndexed _ _ _ n => n ≤ 8
  | .stIndexed _ _ _ n => n ≤ 4
  | .ldxIndexed _ _ _ n => n ≤ 8
  | .stxIndexed _ _ _ n => n ≤ 4
  | .aadd _ _ _ s => s < 2
  | .amin _ _ _ _ s => s < 2
  | .amax _ _ _ _ s => s < 2
  | .aand _ _ _ s => s < 2
  | .aor _ _ _ s => s < 2
  | .axor _ _ _ s => s < 2
  | .aswp _ _ _ s => s < 3
  | .acas _ _ _ s => s < 3
  | .radd _ _ s => s < 2
  | .sqry _ a n => a < 8 && n < 2
  | .cpy _ _ _ _ _ p r q _ => scopeWf p r q
  | .cgth _ _ _ _ p r q _ => scopeWf p r q
  | .csct _ _ _ _ p r q _ => scopeWf p r q
  | .cdst _ _ _ _ _ p r q _ => scopeWf p r q
  | .cmcst _ _ _ _ _ p r q _ => scopeWf p r q
  | .cfnc _ p r q _ => scopeWf p r q
  | .vcmp _ _ _ _ c => c != 7
  | .vdqnt _ _ _ z _ u => u || z == 0
  | .vred _ _ _ o f => o < 6 && f ≤ 13
  | .vscan _ _ _ o _ => o < 6
  | .vbcst _ _ _ f => f ≤ 13
  | .mcnt _ a => a < 8
  | .vrcp _ _ _ z t => trWf z t
  | .vrsq _ _ _ z t => trWf z t
  | .vexp2 _ _ _ z t => trWf z t
  | .vlog2 _ _ _ z t => trWf z t
  | .vtanh _ _ _ z t => trWf z t
  | .vsigm _ _ _ z t => trWf z t
  | .vsin _ _ _ z t => trWf z t
  | .vcos _ _ _ z t => trWf z t
  | .tdem _ _ _ n => n < 3
  | .terr _ _ _ n => n < 2
  | .gset d _ => d < 8
  | .gclr d => d < 8
  | .gwait d => d < 8
  | .pcvt _ _ f _ _ => packedFormat f.toNat
  | .pqnt _ _ f _ _ => packedFormat f.toNat
  | .mclm _ x p => (p == 0) || (p == 1 && x &&& 1 == 0) || (p == 2 && x &&& 3 == 0)
  | .mld _ _ _ _ p r q => scopeWf p r q
  | .mma _ x _ _ i _ _ e n => acWf x && (n == 1 || n == 2) && (!e || (n == 2 && !i))
  | .mdrn _ x y _ _ _ p r q _ t => acWf x && scopeWf p r q && (!t || y != 7)
  | .mspl _ x _ p r q => acWf x && scopeWf p r q
  | .mrst _ x _ p r q => acWf x && scopeWf p r q
  | .msnd _ _ _ z => z != 7
  | .mzacc _ x => acWf x
  | .mmov _ x y => acWf x && acWf y
  | .mmovG _ x _ => acWf x
  | .mmovT _ x y => acWf x && acWf y
  | .send _ _ _ n => n < 7
  | .sendPort a _ => a < 4
  | .recv d a _ => d != a || d == 0
  | .recvT d a => d != a || d == 0
  | .recvPort _ b => b < 4
  | .recvF _ a b => a < 4 && b < 4
  | .fence n => n < 7
  | .sbind f d _ _ _ => f < 20 && d < 8
  | _ => true

end Sys2Proof
end

