-- ==== Sys2Proof/Decode.lean ====
section
/-! DEFINITION. Decoding a word (R130 to R144), total and rejecting by name, and the encoder. -/

namespace Sys2Proof

open Machine

/-! ## Fields -/

/-- A field at bit `lo`. -/
def encF {w : Nat} (v : BitVec w) (lo : Nat) : Nat := v.toNat * 2 ^ lo

/-- A one-bit field. -/
def encB (b : Bool) (lo : Nat) : Nat := (if b then 1 else 0) * 2 ^ lo

/-- GE and GS (R131). -/
def encG : Option (BitVec 3) → Nat
  | none => 0
  | some s => 2 ^ 21 + s.toNat * 2 ^ 18

/-- The field of `n` bits at `lo`. -/
def decF (w lo n : Nat) : BitVec n := BitVec.ofNat n (w / 2 ^ lo)

/-- GE and GS of a word (R131). -/
def decG (w : Nat) : Option (BitVec 3) := if bitAt w 21 then some (decF w 18 3) else none

/-! ## The encoder -/

/-- The word of an instruction as a number (R130, R144); none for an event. -/
def encodeNat : Instr → Option Nat
  | .hx p => some (0x00400000 + encF p 0)
  | .hv t o e m p r f s => some (0x00800000 + encB t 21 + encF o 13 + encB e 12 + encF m 9 + encF p 7 + encF r 4 + encB f 3 + encF s 0)
  | .ldi d i => some (0x00C00000 + encF d 16 + encF i 0)
  | .addl d i => some (0x01000000 + encF d 16 + encF i 0)
  | .srd d h => some (0x01400000 + encF d 16 + encF h 0)
  | .swr d h => some (0x01800000 + encF d 16 + encF h 0)
  | .trap a i => some (0x01C00000 + encF a 10 + encF i 0)
  | .tret => some (0x02000000)
  | .tretK => some (0x02000001)
  | .tretS => some (0x02000002)
  | .idle => some (0x02400000)
  | .ctxsv d a => some (0x02800000 + encF d 16 + encF a 10)
  | .ctxld d a => some (0x02C00000 + encF d 16 + encF a 10)
  | .brk => some (0x03000000)
  | .lblpush i => some (0x03400000 + encF i 0)
  | .lblpop => some (0x03800000)
  | .ifence => some (0x03C00000)
  | .add d a b n => some (0x04000000 + encF d 16 + encF a 10 + encF b 4 + encF n 0)
  | .sub d a b n => some (0x04400000 + encF d 16 + encF a 10 + encF b 4 + encF n 0)
  | .mul d a b n => some (0x04800000 + encF d 16 + encF a 10 + encF b 4 + encF n 0)
  | .mulh d a b n => some (0x04C00000 + encF d 16 + encF a 10 + encF b 4 + encF n 0)
  | .mulhu d a b n => some (0x05000000 + encF d 16 + encF a 10 + encF b 4 + encF n 0)
  | .div d a b n => some (0x05400000 + encF d 16 + encF a 10 + encF b 4 + encF n 0)
  | .divu d a b n => some (0x05800000 + encF d 16 + encF a 10 + encF b 4 + encF n 0)
  | .rem d a b n => some (0x05C00000 + encF d 16 + encF a 10 + encF b 4 + encF n 0)
  | .remu d a b n => some (0x06000000 + encF d 16 + encF a 10 + encF b 4 + encF n 0)
  | .and d a b n => some (0x06400000 + encF d 16 + encF a 10 + encF b 4 + encF n 0)
  | .or d a b n => some (0x06800000 + encF d 16 + encF a 10 + encF b 4 + encF n 0)
  | .xor d a b n => some (0x06C00000 + encF d 16 + encF a 10 + encF b 4 + encF n 0)
  | .sll d a b n => some (0x07000000 + encF d 16 + encF a 10 + encF b 4 + encF n 0)
  | .srl d a b n => some (0x07400000 + encF d 16 + encF a 10 + encF b 4 + encF n 0)
  | .sra d a b n => some (0x07800000 + encF d 16 + encF a 10 + encF b 4 + encF n 0)
  | .rol d a b n => some (0x07C00000 + encF d 16 + encF a 10 + encF b 4 + encF n 0)
  | .ror d a b n => some (0x08000000 + encF d 16 + encF a 10 + encF b 4 + encF n 0)
  | .clz d a n => some (0x08400000 + encF d 16 + encF a 10 + encF n 0)
  | .ctz d a n => some (0x08800000 + encF d 16 + encF a 10 + encF n 0)
  | .popc d a n => some (0x08C00000 + encF d 16 + encF a 10 + encF n 0)
  | .min d a b n => some (0x09000000 + encF d 16 + encF a 10 + encF b 4 + encF n 0)
  | .max d a b n => some (0x09400000 + encF d 16 + encF a 10 + encF b 4 + encF n 0)
  | .minu d a b n => some (0x09800000 + encF d 16 + encF a 10 + encF b 4 + encF n 0)
  | .maxu d a b n => some (0x09C00000 + encF d 16 + encF a 10 + encF b 4 + encF n 0)
  | .slt d a b n => some (0x0A000000 + encF d 16 + encF a 10 + encF b 4 + encF n 0)
  | .sltu d a b n => some (0x0A400000 + encF d 16 + encF a 10 + encF b 4 + encF n 0)
  | .sel d a b => some (0x0A800000 + encF d 16 + encF a 10 + encF b 4)
  | .sext d a n => some (0x0AC00000 + encF d 16 + encF a 10 + encF n 0)
  | .zext d a n => some (0x0B000000 + encF d 16 + encF a 10 + encF n 0)
  | .bfx d a b n => some (0x0B400000 + encF d 16 + encF a 10 + encF b 4 + encB n 0)
  | .bfi d a b => some (0x0B800000 + encF d 16 + encF a 10 + encF b 4)
  | .addi d a i => some (0x0C000000 + encF d 16 + encF a 10 + encF i 0)
  | .andi d a i => some (0x0C400000 + encF d 16 + encF a 10 + encF i 0)
  | .ori d a i => some (0x0C800000 + encF d 16 + encF a 10 + encF i 0)
  | .xori d a i => some (0x0CC00000 + encF d 16 + encF a 10 + encF i 0)
  | .slli d a w m => some (0x0D000000 + encF d 16 + encF a 10 + encF w 7 + encF m 0)
  | .srli d a w m => some (0x0D400000 + encF d 16 + encF a 10 + encF w 7 + encF m 0)
  | .srai d a w m => some (0x0D800000 + encF d 16 + encF a 10 + encF w 7 + encF m 0)
  | .slti d a i => some (0x0DC00000 + encF d 16 + encF a 10 + encF i 0)
  | .sltiu d a i => some (0x0E000000 + encF d 16 + encF a 10 + encF i 0)
  | .muli d a i => some (0x0E400000 + encF d 16 + encF a 10 + encF i 0)
  | .csetb d a b x => some (0x10000000 + encF d 16 + encF a 10 + encF b 4 + encB x 0)
  | .cperm d a b => some (0x10400000 + encF d 16 + encF a 10 + encF b 4)
  | .coff d a b => some (0x10800000 + encF d 16 + encF a 10 + encF b 4)
  | .cgadr d a => some (0x10C00000 + encF d 16 + encF a 10)
  | .cgbas d a => some (0x11000000 + encF d 16 + encF a 10)
  | .cglen d a => some (0x11400000 + encF d 16 + encF a 10)
  | .cgprm d a => some (0x11800000 + encF d 16 + encF a 10)
  | .cclrt d a => some (0x11C00000 + encF d 16 + encF a 10)
  | .capmv d a => some (0x12000000 + encF d 16 + encF a 10)
  | .cseal d a => some (0x12400000 + encF d 16 + encF a 10)
  | .beq a b o => some (0x14000000 + encF a 16 + encF b 10 + encF o 0)
  | .bne a b o => some (0x14400000 + encF a 16 + encF b 10 + encF o 0)
  | .blt a b o => some (0x14800000 + encF a 16 + encF b 10 + encF o 0)
  | .bge a b o => some (0x14C00000 + encF a 16 + encF b 10 + encF o 0)
  | .bltu a b o => some (0x15000000 + encF a 16 + encF b 10 + encF o 0)
  | .bgeu a b o => some (0x15400000 + encF a 16 + encF b 10 + encF o 0)
  | .bc c s o => some (0x15800000 + encF c 16 + encF s 10 + encF o 0)
  | .bnc c s o => some (0x15C00000 + encF c 16 + encF s 10 + encF o 0)
  | .j o => some (0x16000000 + encF o 0)
  | .jal o => some (0x16400000 + encF o 0)
  | .jr d a => some (0x16800000 + encF d 16 + encF a 10)
  | .rep d c t n => some (0x16C00000 + encF d 16 + encF c 8 + encF t 4 + encF n 0)
  | .nop => some (0x17000000)
  | .exit => some (0x17400000)
  | .fadd d a b f => some (0x18000000 + encF d 16 + encF a 10 + encF b 4 + encF f 0)
  | .fsub d a b f => some (0x18400000 + encF d 16 + encF a 10 + encF b 4 + encF f 0)
  | .fmul d a b f => some (0x18800000 + encF d 16 + encF a 10 + encF b 4 + encF f 0)
  | .ffma d a b f => some (0x18C00000 + encF d 16 + encF a 10 + encF b 4 + encF f 0)
  | .fmin d a b f => some (0x19000000 + encF d 16 + encF a 10 + encF b 4 + encF f 0)
  | .fmax d a b f => some (0x19400000 + encF d 16 + encF a 10 + encF b 4 + encF f 0)
  | .feq d a b f => some (0x19800000 + encF d 16 + encF a 10 + encF b 4 + encF f 0)
  | .flt d a b f => some (0x19C00000 + encF d 16 + encF a 10 + encF b 4 + encF f 0)
  | .fle d a b f => some (0x1A000000 + encF d 16 + encF a 10 + encF b 4 + encF f 0)
  | .fcvt d a s t => some (0x1A400000 + encF d 16 + encF a 10 + encF s 5 + encF t 0)
  | .fclas d a f => some (0x1A800000 + encF d 16 + encF a 10 + encF f 0)
  | .fsgnj d a b v f => some (0x1AC00000 + encF d 16 + encF a 10 + encF b 4 + encF v 2 + encF f 0)
  | .ldBS d a i => some (0x1C000000 + encF d 16 + encF a 10 + encF i 0)
  | .ldBZ d a i => some (0x1C400000 + encF d 16 + encF a 10 + encF i 0)
  | .ldHS d a i => some (0x1C800000 + encF d 16 + encF a 10 + encF i 0)
  | .ldHZ d a i => some (0x1CC00000 + encF d 16 + encF a 10 + encF i 0)
  | .ldWS d a i => some (0x1D000000 + encF d 16 + encF a 10 + encF i 0)
  | .ldWZ d a i => some (0x1D400000 + encF d 16 + encF a 10 + encF i 0)
  | .ldDS d a i => some (0x1D800000 + encF d 16 + encF a 10 + encF i 0)
  | .ldDZ d a i => some (0x1DC00000 + encF d 16 + encF a 10 + encF i 0)
  | .ldQ d a i => some (0x1E000000 + encF d 16 + encF a 10 + encF i 0)
  | .stB d a i => some (0x1E400000 + encF d 16 + encF a 10 + encF i 0)
  | .stH d a i => some (0x1E800000 + encF d 16 + encF a 10 + encF i 0)
  | .stW d a i => some (0x1EC00000 + encF d 16 + encF a 10 + encF i 0)
  | .stD d a i => some (0x1F000000 + encF d 16 + encF a 10 + encF i 0)
  | .stQ d a i => some (0x1F400000 + encF d 16 + encF a 10 + encF i 0)
  | .ldIndexed d a b n => some (0x1F800000 + encF d 16 + encF a 10 + encF b 4 + encF n 0)
  | .stIndexed d a b n => some (0x1FC00000 + encF d 16 + encF a 10 + encF b 4 + encF n 0)
  | .ldxBS d a i => some (0x20000000 + encF d 16 + encF a 10 + encF i 0)
  | .ldxBZ d a i => some (0x20400000 + encF d 16 + encF a 10 + encF i 0)
  | .ldxHS d a i => some (0x20800000 + encF d 16 + encF a 10 + encF i 0)
  | .ldxHZ d a i => some (0x20C00000 + encF d 16 + encF a 10 + encF i 0)
  | .ldxWS d a i => some (0x21000000 + encF d 16 + encF a 10 + encF i 0)
  | .ldxWZ d a i => some (0x21400000 + encF d 16 + encF a 10 + encF i 0)
  | .ldxDS d a i => some (0x21800000 + encF d 16 + encF a 10 + encF i 0)
  | .ldxDZ d a i => some (0x21C00000 + encF d 16 + encF a 10 + encF i 0)
  | .ldxQ d a i => some (0x22000000 + encF d 16 + encF a 10 + encF i 0)
  | .stxB d a i => some (0x22400000 + encF d 16 + encF a 10 + encF i 0)
  | .stxH d a i => some (0x22800000 + encF d 16 + encF a 10 + encF i 0)
  | .stxW d a i => some (0x22C00000 + encF d 16 + encF a 10 + encF i 0)
  | .stxD d a i => some (0x23000000 + encF d 16 + encF a 10 + encF i 0)
  | .stxQ d a i => some (0x23400000 + encF d 16 + encF a 10 + encF i 0)
  | .ldxIndexed d a b n => some (0x23800000 + encF d 16 + encF a 10 + encF b 4 + encF n 0)
  | .stxIndexed d a b n => some (0x23C00000 + encF d 16 + encF a 10 + encF b 4 + encF n 0)
  | .aadd d a b s => some (0x24000000 + encF d 16 + encF a 10 + encF b 4 + encF s 0)
  | .amin d a b u s => some (0x24400000 + encF d 16 + encF a 10 + encF b 4 + encB u 2 + encF s 0)
  | .amax d a b u s => some (0x24800000 + encF d 16 + encF a 10 + encF b 4 + encB u 2 + encF s 0)
  | .aand d a b s => some (0x24C00000 + encF d 16 + encF a 10 + encF b 4 + encF s 0)
  | .aor d a b s => some (0x25000000 + encF d 16 + encF a 10 + encF b 4 + encF s 0)
  | .axor d a b s => some (0x25400000 + encF d 16 + encF a 10 + encF b 4 + encF s 0)
  | .aswp d a b s => some (0x25800000 + encF d 16 + encF a 10 + encF b 4 + encF s 0)
  | .acas d a b s => some (0x25C00000 + encF d 16 + encF a 10 + encF b 4 + encF s 0)
  | .radd a b s => some (0x26000000 + encF a 10 + encF b 4 + encF s 0)
  | .fradd a b => some (0x26400000 + encF a 10 + encF b 4)
  | .att d a b => some (0x28000000 + encF d 16 + encF a 10 + encF b 4)
  | .det d a => some (0x28400000 + encF d 16 + encF a 10)
  | .hand d a b => some (0x28800000 + encF d 16 + encF a 10 + encF b 4)
  | .bqry d a => some (0x28C00000 + encF d 16 + encF a 10)
  | .ring d a b => some (0x29000000 + encF d 16 + encF a 10 + encF b 4)
  | .sqry d a n => some (0x29400000 + encF d 16 + encF a 10 + encF n 0)
  | .revk d a b => some (0x29800000 + encF d 16 + encF a 10 + encF b 4)
  | .cpy g x y z b p r q n => some (0x2A000000 + encG g + encF x 15 + encF y 12 + encF z 9 + encF b 7 + encF p 4 + encB r 3 + encB q 2 + encF n 0)
  | .cgth g x y z p r q n => some (0x2A400000 + encG g + encF x 15 + encF y 12 + encF z 9 + encF p 4 + encB r 3 + encB q 2 + encF n 0)
  | .csct g x y z p r q n => some (0x2A800000 + encG g + encF x 15 + encF y 12 + encF z 9 + encF p 4 + encB r 3 + encB q 2 + encF n 0)
  | .cdst g x y z b p r q n => some (0x2AC00000 + encG g + encF x 15 + encF y 12 + encF z 9 + encF b 7 + encF p 4 + encB r 3 + encB q 2 + encF n 0)
  | .cmcst g x y z b p r q n => some (0x2B000000 + encG g + encF x 15 + encF y 12 + encF z 9 + encF b 7 + encF p 4 + encB r 3 + encB q 2 + encF n 0)
  | .cwcnt d a b => some (0x2B400000 + encF d 16 + encF a 10 + encF b 4)
  | .cqry d a => some (0x2B800000 + encF d 16 + encF a 10)
  | .cfnc g p r q n => some (0x2BC00000 + encG g + encF p 4 + encB r 3 + encB q 2 + encF n 0)
  | .vadd g x y z w => some (0x2C000000 + encG g + encF x 15 + encF y 12 + encF z 9 + encB w 0)
  | .vsub g x y z w => some (0x2C400000 + encG g + encF x 15 + encF y 12 + encF z 9 + encB w 0)
  | .vmul g x y z w => some (0x2C800000 + encG g + encF x 15 + encF y 12 + encF z 9 + encB w 0)
  | .vfma g x y z w => some (0x2CC00000 + encG g + encF x 15 + encF y 12 + encF z 9 + encB w 0)
  | .vmin g x y z => some (0x2D000000 + encG g + encF x 15 + encF y 12 + encF z 9)
  | .vmax g x y z => some (0x2D400000 + encG g + encF x 15 + encF y 12 + encF z 9)
  | .vabs g x y w => some (0x2D800000 + encG g + encF x 15 + encF y 12 + encB w 0)
  | .vneg g x y w => some (0x2DC00000 + encG g + encF x 15 + encF y 12 + encB w 0)
  | .vcmp g x y z c => some (0x2E000000 + encG g + encF x 15 + encF y 12 + encF z 9 + encF c 0)
  | .vsel g x y z m => some (0x2E400000 + encG g + encF x 15 + encF y 12 + encF z 9 + encF m 0)
  | .vand g x y z => some (0x2E800000 + encG g + encF x 15 + encF y 12 + encF z 9)
  | .vor g x y z => some (0x2EC00000 + encG g + encF x 15 + encF y 12 + encF z 9)
  | .vxor g x y z => some (0x2F000000 + encG g + encF x 15 + encF y 12 + encF z 9)
  | .vsll g x y z => some (0x2F400000 + encG g + encF x 15 + encF y 12 + encF z 9)
  | .vsrl g x y z => some (0x2F800000 + encG g + encF x 15 + encF y 12 + encF z 9)
  | .vsra g x y z => some (0x2FC00000 + encG g + encF x 15 + encF y 12 + encF z 9)
  | .vcvt g x y => some (0x30000000 + encG g + encF x 15 + encF y 12)
  | .vqnt g x y w f => some (0x30400000 + encG g + encF x 15 + encF y 12 + encB w 1 + encB f 0)
  | .vdqnt g x y z w u => some (0x30800000 + encG g + encF x 15 + encF y 12 + encF z 9 + encB w 1 + encB u 0)
  | .vred g x y o f => some (0x30C00000 + encG g + encF x 15 + encF y 12 + encF o 6 + encF f 0)
  | .vscan g x y o e => some (0x31000000 + encG g + encF x 15 + encF y 12 + encF o 6 + encB e 5)
  | .vperm g x y z => some (0x31400000 + encG g + encF x 15 + encF y 12 + encF z 9)
  | .vbcst g x y f => some (0x31800000 + encG g + encF x 15 + encF y 12 + encF f 0)
  | .vmov g x y => some (0x31C00000 + encG g + encF x 15 + encF y 12)
  | .mand g x y z => some (0x32000000 + encG g + encF x 15 + encF y 12 + encF z 9)
  | .mor g x y z => some (0x32400000 + encG g + encF x 15 + encF y 12 + encF z 9)
  | .mxor g x y z => some (0x32800000 + encG g + encF x 15 + encF y 12 + encF z 9)
  | .mnot g x y => some (0x32C00000 + encG g + encF x 15 + encF y 12)
  | .mcnt d a => some (0x33000000 + encF d 16 + encF a 10)
  | .mset g x y z => some (0x33400000 + encG g + encF x 15 + encF y 12 + encF z 9)
  | .msetU g x => some (0x33400001 + encG g + encF x 15)
  | .vrcp g x y z t => some (0x34000000 + encG g + encF x 15 + encF y 12 + encF z 9 + encB t 0)
  | .vrsq g x y z t => some (0x34400000 + encG g + encF x 15 + encF y 12 + encF z 9 + encB t 0)
  | .vexp2 g x y z t => some (0x34800000 + encG g + encF x 15 + encF y 12 + encF z 9 + encB t 0)
  | .vlog2 g x y z t => some (0x34C00000 + encG g + encF x 15 + encF y 12 + encF z 9 + encB t 0)
  | .vtanh g x y z t => some (0x35000000 + encG g + encF x 15 + encF y 12 + encF z 9 + encB t 0)
  | .vsigm g x y z t => some (0x35400000 + encG g + encF x 15 + encF y 12 + encF z 9 + encB t 0)
  | .vsin g x y z t => some (0x35800000 + encG g + encF x 15 + encF y 12 + encF z 9 + encB t 0)
  | .vcos g x y z t => some (0x35C00000 + encG g + encF x 15 + encF y 12 + encF z 9 + encB t 0)
  | .tdem d a b n => some (0x36000000 + encF d 16 + encF a 10 + encF b 4 + encF n 0)
  | .tred d a b => some (0x36400000 + encF d 16 + encF a 10 + encF b 4)
  | .tqry d a w => some (0x36800000 + encF d 16 + encF a 10 + encB w 0)
  | .terr d a b n => some (0x36C00000 + encF d 16 + encF a 10 + encF b 4 + encF n 0)
  | .gset d a => some (0x37000000 + encF d 16 + encF a 10)
  | .gclr d => some (0x37400000 + encF d 16)
  | .gwait d => some (0x37800000 + encF d 16)
  | .padd d a b w => some (0x38000000 + encF d 16 + encF a 10 + encF b 4 + encB w 0)
  | .psub d a b w => some (0x38400000 + encF d 16 + encF a 10 + encF b 4 + encB w 0)
  | .pmul d a b w => some (0x38800000 + encF d 16 + encF a 10 + encF b 4 + encB w 0)
  | .pfma d a b w => some (0x38C00000 + encF d 16 + encF a 10 + encF b 4 + encB w 0)
  | .pmin d a b => some (0x39000000 + encF d 16 + encF a 10 + encF b 4)
  | .pmax d a b => some (0x39400000 + encF d 16 + encF a 10 + encF b 4)
  | .pdot d a b e c => some (0x39800000 + encF d 16 + encF a 10 + encF b 4 + encB e 3 + encF c 0)
  | .pcvt d a f w p => some (0x39C00000 + encF d 16 + encF a 10 + encF f 4 + encB w 2 + encF p 0)
  | .pscl d a b w => some (0x3A000000 + encF d 16 + encF a 10 + encF b 4 + encB w 0)
  | .pqnt d a f c p => some (0x3A400000 + encF d 16 + encF a 10 + encF f 4 + encF c 2 + encF p 0)
  | .mclm g x p => some (0x3C000000 + encG g + encF x 15 + encF p 0)
  | .mrel g x => some (0x3C400000 + encG g + encF x 15)
  | .mld g x y z p r q => some (0x3C800000 + encG g + encF x 15 + encF y 12 + encF z 9 + encF p 4 + encB r 3 + encB q 2)
  | .mma g x y z i c r e n => some (0x3CC00000 + encG g + encF x 15 + encF y 12 + encF z 9 + encB i 5 + encB c 4 + encB r 3 + encB e 2 + encF n 0)
  | .mdrn g x y z l f p r q i t => some (0x3D000000 + encG g + encF x 15 + encF y 12 + encF z 9 + encB l 8 + encB f 7 + encF p 4 + encB r 3 + encB q 2 + encB i 1 + encB t 0)
  | .mspl g x y p r q => some (0x3D400000 + encG g + encF x 15 + encF y 12 + encF p 4 + encB r 3 + encB q 2)
  | .mrst g x y p r q => some (0x3D800000 + encG g + encF x 15 + encF y 12 + encF p 4 + encB r 3 + encB q 2)
  | .msnd g x y z => some (0x3DC00000 + encG g + encF x 15 + encF y 12 + encF z 9)
  | .mzacc g x => some (0x3E000000 + encG g + encF x 15)
  | .mmov g x y => some (0x3E400000 + encG g + encF x 15 + encF y 12)
  | .mmovG g x z => some (0x3E400001 + encG g + encF x 15 + encF z 9)
  | .mmovT g x y => some (0x3E400002 + encG g + encF x 15 + encF y 12)
  | .mqry d a => some (0x3E800000 + encF d 16 + encF a 10)
  | .mwait d => some (0x3EC00000 + encF d 16)
  | .bar d a => some (0x40000000 + encF d 16 + encF a 10)
  | .join => some (0x40400000)
  | .lead d a b => some (0x40800000 + encF d 16 + encF a 10 + encF b 4)
  | .follow d a b => some (0x40C00000 + encF d 16 + encF a 10 + encF b 4)
  | .send d a b n => some (0x41000000 + encF d 16 + encF a 10 + encF b 4 + encF n 0)
  | .sendPort a b => some (0x41000008 + encF a 10 + encF b 4)
  | .recv d a b => some (0x41400000 + encF d 16 + encF a 10 + encF b 4)
  | .recvT d a => some (0x41400001 + encF d 16 + encF a 10)
  | .recvPort d b => some (0x41400002 + encF d 16 + encF b 4)
  | .recvF d a b => some (0x41400003 + encF d 16 + encF a 10 + encF b 4)
  | .precv d a b => some (0x41800000 + encF d 16 + encF a 10 + encF b 4)
  | .probeT d a => some (0x41C00000 + encF d 16 + encF a 10)
  | .probe d a b => some (0x41C00001 + encF d 16 + encF a 10 + encF b 4)
  | .fence n => some (0x42000000 + encF n 0)
  | .tspawn d a b => some (0x42400000 + encF d 16 + encF a 10 + encF b 4)
  | .tdone a => some (0x42800000 + encF a 10)
  | .tdec d a => some (0x42C00000 + encF d 16 + encF a 10)
  | .baddq g x y z w f => some (0x43000000 + encG g + encF x 15 + encF y 12 + encF z 9 + encB w 1 + encB f 0)
  | .txb => some (0x43400000)
  | .txc d n => some (0x43800000 + encF d 16 + encB n 0)
  | .txa => some (0x43C00000)
  | .shash d a b => some (0x44000000 + encF d 16 + encF a 10 + encF b 4)
  | .sverf d a b => some (0x44400000 + encF d 16 + encF a 10 + encF b 4)
  | .ssign d a b => some (0x44800000 + encF d 16 + encF a 10 + encF b 4)
  | .scryp d a b => some (0x44C00000 + encF d 16 + encF a 10 + encF b 4)
  | .scrypDec d a b => some (0x44C00001 + encF d 16 + encF a 10 + encF b 4)
  | .skey d a b => some (0x45000000 + encF d 16 + encF a 10 + encF b 4)
  | .skeyWipe d a b => some (0x45000001 + encF d 16 + encF a 10 + encF b 4)
  | .smext d a b => some (0x45400000 + encF d 16 + encF a 10 + encF b 4)
  | .sbind f d a b n => some (0x50000000 + encF f 22 + encF d 16 + encF a 10 + encF b 4 + encF n 0)
  | _ => none

/-- The word of an instruction. -/
def encode (i : Instr) : Option (BitVec 32) := (encodeNat i).map (BitVec.ofNat 32)

/-! ## The decoder, row by row of the opcode map (R144) -/

/-- Row 0x00 of the opcode map (R144): the operation of column `c`. -/
def row00 (c w : Nat) : Option Instr :=
  match c with
  | 1 => some (.hx (decF w 0 22))
  | 2 => some (.hv (bitAt w 21) (decF w 13 8) (bitAt w 12) (decF w 9 3) (decF w 7 2) (decF w 4 3) (bitAt w 3) (decF w 0 3))
  | 3 => some (.ldi (decF w 16 6) (decF w 0 16))
  | 4 => some (.addl (decF w 16 6) (decF w 0 16))
  | 5 => some (.srd (decF w 16 6) (decF w 0 16))
  | 6 => some (.swr (decF w 16 6) (decF w 0 16))
  | 7 => some (.trap (decF w 10 6) (decF w 0 7))
  | 8 => if bits w 3 0 = 0 then some (.tret) else if bits w 3 0 = 1 then some (.tretK) else if bits w 3 0 = 2 then some (.tretS) else none
  | 9 => some (.idle)
  | 10 => some (.ctxsv (decF w 16 6) (decF w 10 6))
  | 11 => some (.ctxld (decF w 16 6) (decF w 10 6))
  | 12 => some (.brk)
  | 13 => some (.lblpush (decF w 0 16))
  | 14 => some (.lblpop)
  | 15 => some (.ifence)
  | _ => none

/-- Row 0x01 of the opcode map (R144): the operation of column `c`. -/
def row01 (c w : Nat) : Option Instr :=
  match c with
  | 0 => some (.add (decF w 16 6) (decF w 10 6) (decF w 4 6) (decF w 0 2))
  | 1 => some (.sub (decF w 16 6) (decF w 10 6) (decF w 4 6) (decF w 0 2))
  | 2 => some (.mul (decF w 16 6) (decF w 10 6) (decF w 4 6) (decF w 0 2))
  | 3 => some (.mulh (decF w 16 6) (decF w 10 6) (decF w 4 6) (decF w 0 2))
  | 4 => some (.mulhu (decF w 16 6) (decF w 10 6) (decF w 4 6) (decF w 0 2))
  | 5 => some (.div (decF w 16 6) (decF w 10 6) (decF w 4 6) (decF w 0 2))
  | 6 => some (.divu (decF w 16 6) (decF w 10 6) (decF w 4 6) (decF w 0 2))
  | 7 => some (.rem (decF w 16 6) (decF w 10 6) (decF w 4 6) (decF w 0 2))
  | 8 => some (.remu (decF w 16 6) (decF w 10 6) (decF w 4 6) (decF w 0 2))
  | 9 => some (.and (decF w 16 6) (decF w 10 6) (decF w 4 6) (decF w 0 2))
  | 10 => some (.or (decF w 16 6) (decF w 10 6) (decF w 4 6) (decF w 0 2))
  | 11 => some (.xor (decF w 16 6) (decF w 10 6) (decF w 4 6) (decF w 0 2))
  | 12 => some (.sll (decF w 16 6) (decF w 10 6) (decF w 4 6) (decF w 0 2))
  | 13 => some (.srl (decF w 16 6) (decF w 10 6) (decF w 4 6) (decF w 0 2))
  | 14 => some (.sra (decF w 16 6) (decF w 10 6) (decF w 4 6) (decF w 0 2))
  | 15 => some (.rol (decF w 16 6) (decF w 10 6) (decF w 4 6) (decF w 0 2))
  | _ => none

/-- Row 0x02 of the opcode map (R144): the operation of column `c`. -/
def row02 (c w : Nat) : Option Instr :=
  match c with
  | 0 => some (.ror (decF w 16 6) (decF w 10 6) (decF w 4 6) (decF w 0 2))
  | 1 => some (.clz (decF w 16 6) (decF w 10 6) (decF w 0 2))
  | 2 => some (.ctz (decF w 16 6) (decF w 10 6) (decF w 0 2))
  | 3 => some (.popc (decF w 16 6) (decF w 10 6) (decF w 0 2))
  | 4 => some (.min (decF w 16 6) (decF w 10 6) (decF w 4 6) (decF w 0 2))
  | 5 => some (.max (decF w 16 6) (decF w 10 6) (decF w 4 6) (decF w 0 2))
  | 6 => some (.minu (decF w 16 6) (decF w 10 6) (decF w 4 6) (decF w 0 2))
  | 7 => some (.maxu (decF w 16 6) (decF w 10 6) (decF w 4 6) (decF w 0 2))
  | 8 => some (.slt (decF w 16 6) (decF w 10 6) (decF w 4 6) (decF w 0 2))
  | 9 => some (.sltu (decF w 16 6) (decF w 10 6) (decF w 4 6) (decF w 0 2))
  | 10 => some (.sel (decF w 16 6) (decF w 10 6) (decF w 4 6))
  | 11 => some (.sext (decF w 16 6) (decF w 10 6) (decF w 0 2))
  | 12 => some (.zext (decF w 16 6) (decF w 10 6) (decF w 0 2))
  | 13 => some (.bfx (decF w 16 6) (decF w 10 6) (decF w 4 6) (bitAt w 0))
  | 14 => some (.bfi (decF w 16 6) (decF w 10 6) (decF w 4 6))
  | _ => none

/-- Row 0x03 of the opcode map (R144): the operation of column `c`. -/
def row03 (c w : Nat) : Option Instr :=
  match c with
  | 0 => some (.addi (decF w 16 6) (decF w 10 6) (decF w 0 10))
  | 1 => some (.andi (decF w 16 6) (decF w 10 6) (decF w 0 10))
  | 2 => some (.ori (decF w 16 6) (decF w 10 6) (decF w 0 10))
  | 3 => some (.xori (decF w 16 6) (decF w 10 6) (decF w 0 10))
  | 4 => some (.slli (decF w 16 6) (decF w 10 6) (decF w 7 2) (decF w 0 7))
  | 5 => some (.srli (decF w 16 6) (decF w 10 6) (decF w 7 2) (decF w 0 7))
  | 6 => some (.srai (decF w 16 6) (decF w 10 6) (decF w 7 2) (decF w 0 7))
  | 7 => some (.slti (decF w 16 6) (decF w 10 6) (decF w 0 10))
  | 8 => some (.sltiu (decF w 16 6) (decF w 10 6) (decF w 0 10))
  | 9 => some (.muli (decF w 16 6) (decF w 10 6) (decF w 0 10))
  | _ => none

/-- Row 0x04 of the opcode map (R144): the operation of column `c`. -/
def row04 (c w : Nat) : Option Instr :=
  match c with
  | 0 => some (.csetb (decF w 16 6) (decF w 10 6) (decF w 4 6) (bitAt w 0))
  | 1 => some (.cperm (decF w 16 6) (decF w 10 6) (decF w 4 6))
  | 2 => some (.coff (decF w 16 6) (decF w 10 6) (decF w 4 6))
  | 3 => some (.cgadr (decF w 16 6) (decF w 10 6))
  | 4 => some (.cgbas (decF w 16 6) (decF w 10 6))
  | 5 => some (.cglen (decF w 16 6) (decF w 10 6))
  | 6 => some (.cgprm (decF w 16 6) (decF w 10 6))
  | 7 => some (.cclrt (decF w 16 6) (decF w 10 6))
  | 8 => some (.capmv (decF w 16 6) (decF w 10 6))
  | 9 => some (.cseal (decF w 16 6) (decF w 10 6))
  | _ => none

/-- Row 0x05 of the opcode map (R144): the operation of column `c`. -/
def row05 (c w : Nat) : Option Instr :=
  match c with
  | 0 => some (.beq (decF w 16 6) (decF w 10 6) (decF w 0 10))
  | 1 => some (.bne (decF w 16 6) (decF w 10 6) (decF w 0 10))
  | 2 => some (.blt (decF w 16 6) (decF w 10 6) (decF w 0 10))
  | 3 => some (.bge (decF w 16 6) (decF w 10 6) (decF w 0 10))
  | 4 => some (.bltu (decF w 16 6) (decF w 10 6) (decF w 0 10))
  | 5 => some (.bgeu (decF w 16 6) (decF w 10 6) (decF w 0 10))
  | 6 => some (.bc (decF w 16 6) (decF w 10 6) (decF w 0 10))
  | 7 => some (.bnc (decF w 16 6) (decF w 10 6) (decF w 0 10))
  | 8 => some (.j (decF w 0 22))
  | 9 => some (.jal (decF w 0 22))
  | 10 => some (.jr (decF w 16 6) (decF w 10 6))
  | 11 => some (.rep (decF w 16 6) (decF w 8 8) (decF w 4 4) (decF w 0 4))
  | 12 => some (.nop)
  | 13 => some (.exit)
  | _ => none

/-- Row 0x06 of the opcode map (R144): the operation of column `c`. -/
def row06 (c w : Nat) : Option Instr :=
  match c with
  | 0 => some (.fadd (decF w 16 6) (decF w 10 6) (decF w 4 6) (decF w 0 2))
  | 1 => some (.fsub (decF w 16 6) (decF w 10 6) (decF w 4 6) (decF w 0 2))
  | 2 => some (.fmul (decF w 16 6) (decF w 10 6) (decF w 4 6) (decF w 0 2))
  | 3 => some (.ffma (decF w 16 6) (decF w 10 6) (decF w 4 6) (decF w 0 2))
  | 4 => some (.fmin (decF w 16 6) (decF w 10 6) (decF w 4 6) (decF w 0 2))
  | 5 => some (.fmax (decF w 16 6) (decF w 10 6) (decF w 4 6) (decF w 0 2))
  | 6 => some (.feq (decF w 16 6) (decF w 10 6) (decF w 4 6) (decF w 0 2))
  | 7 => some (.flt (decF w 16 6) (decF w 10 6) (decF w 4 6) (decF w 0 2))
  | 8 => some (.fle (decF w 16 6) (decF w 10 6) (decF w 4 6) (decF w 0 2))
  | 9 => some (.fcvt (decF w 16 6) (decF w 10 6) (decF w 5 5) (decF w 0 5))
  | 10 => some (.fclas (decF w 16 6) (decF w 10 6) (decF w 0 4))
  | 11 => some (.fsgnj (decF w 16 6) (decF w 10 6) (decF w 4 6) (decF w 2 2) (decF w 0 2))
  | _ => none

/-- Row 0x07 of the opcode map (R144): the operation of column `c`. -/
def row07 (c w : Nat) : Option Instr :=
  match c with
  | 0 => some (.ldBS (decF w 16 6) (decF w 10 6) (decF w 0 10))
  | 1 => some (.ldBZ (decF w 16 6) (decF w 10 6) (decF w 0 10))
  | 2 => some (.ldHS (decF w 16 6) (decF w 10 6) (decF w 0 10))
  | 3 => some (.ldHZ (decF w 16 6) (decF w 10 6) (decF w 0 10))
  | 4 => some (.ldWS (decF w 16 6) (decF w 10 6) (decF w 0 10))
  | 5 => some (.ldWZ (decF w 16 6) (decF w 10 6) (decF w 0 10))
  | 6 => some (.ldDS (decF w 16 6) (decF w 10 6) (decF w 0 10))
  | 7 => some (.ldDZ (decF w 16 6) (decF w 10 6) (decF w 0 10))
  | 8 => some (.ldQ (decF w 16 6) (decF w 10 6) (decF w 0 10))
  | 9 => some (.stB (decF w 16 6) (decF w 10 6) (decF w 0 10))
  | 10 => some (.stH (decF w 16 6) (decF w 10 6) (decF w 0 10))
  | 11 => some (.stW (decF w 16 6) (decF w 10 6) (decF w 0 10))
  | 12 => some (.stD (decF w 16 6) (decF w 10 6) (decF w 0 10))
  | 13 => some (.stQ (decF w 16 6) (decF w 10 6) (decF w 0 10))
  | 14 => some (.ldIndexed (decF w 16 6) (decF w 10 6) (decF w 4 6) (decF w 0 4))
  | 15 => some (.stIndexed (decF w 16 6) (decF w 10 6) (decF w 4 6) (decF w 0 4))
  | _ => none

/-- Row 0x08 of the opcode map (R144): the operation of column `c`. -/
def row08 (c w : Nat) : Option Instr :=
  match c with
  | 0 => some (.ldxBS (decF w 16 6) (decF w 10 6) (decF w 0 10))
  | 1 => some (.ldxBZ (decF w 16 6) (decF w 10 6) (decF w 0 10))
  | 2 => some (.ldxHS (decF w 16 6) (decF w 10 6) (decF w 0 10))
  | 3 => some (.ldxHZ (decF w 16 6) (decF w 10 6) (decF w 0 10))
  | 4 => some (.ldxWS (decF w 16 6) (decF w 10 6) (decF w 0 10))
  | 5 => some (.ldxWZ (decF w 16 6) (decF w 10 6) (decF w 0 10))
  | 6 => some (.ldxDS (decF w 16 6) (decF w 10 6) (decF w 0 10))
  | 7 => some (.ldxDZ (decF w 16 6) (decF w 10 6) (decF w 0 10))
  | 8 => some (.ldxQ (decF w 16 6) (decF w 10 6) (decF w 0 10))
  | 9 => some (.stxB (decF w 16 6) (decF w 10 6) (decF w 0 10))
  | 10 => some (.stxH (decF w 16 6) (decF w 10 6) (decF w 0 10))
  | 11 => some (.stxW (decF w 16 6) (decF w 10 6) (decF w 0 10))
  | 12 => some (.stxD (decF w 16 6) (decF w 10 6) (decF w 0 10))
  | 13 => some (.stxQ (decF w 16 6) (decF w 10 6) (decF w 0 10))
  | 14 => some (.ldxIndexed (decF w 16 6) (decF w 10 6) (decF w 4 6) (decF w 0 4))
  | 15 => some (.stxIndexed (decF w 16 6) (decF w 10 6) (decF w 4 6) (decF w 0 4))
  | _ => none

/-- Row 0x09 of the opcode map (R144): the operation of column `c`. -/
def row09 (c w : Nat) : Option Instr :=
  match c with
  | 0 => some (.aadd (decF w 16 6) (decF w 10 6) (decF w 4 6) (decF w 0 2))
  | 1 => some (.amin (decF w 16 6) (decF w 10 6) (decF w 4 6) (bitAt w 2) (decF w 0 2))
  | 2 => some (.amax (decF w 16 6) (decF w 10 6) (decF w 4 6) (bitAt w 2) (decF w 0 2))
  | 3 => some (.aand (decF w 16 6) (decF w 10 6) (decF w 4 6) (decF w 0 2))
  | 4 => some (.aor (decF w 16 6) (decF w 10 6) (decF w 4 6) (decF w 0 2))
  | 5 => some (.axor (decF w 16 6) (decF w 10 6) (decF w 4 6) (decF w 0 2))
  | 6 => some (.aswp (decF w 16 6) (decF w 10 6) (decF w 4 6) (decF w 0 2))
  | 7 => some (.acas (decF w 16 6) (decF w 10 6) (decF w 4 6) (decF w 0 2))
  | 8 => some (.radd (decF w 10 6) (decF w 4 6) (decF w 0 2))
  | 9 => some (.fradd (decF w 10 6) (decF w 4 6))
  | _ => none

/-- Row 0x0A of the opcode map (R144): the operation of column `c`. -/
def row0A (c w : Nat) : Option Instr :=
  match c with
  | 0 => some (.att (decF w 16 6) (decF w 10 6) (decF w 4 6))
  | 1 => some (.det (decF w 16 6) (decF w 10 6))
  | 2 => some (.hand (decF w 16 6) (decF w 10 6) (decF w 4 6))
  | 3 => some (.bqry (decF w 16 6) (decF w 10 6))
  | 4 => some (.ring (decF w 16 6) (decF w 10 6) (decF w 4 6))
  | 5 => some (.sqry (decF w 16 6) (decF w 10 6) (decF w 0 4))
  | 6 => some (.revk (decF w 16 6) (decF w 10 6) (decF w 4 6))
  | 8 => some (.cpy (decG w) (decF w 15 3) (decF w 12 3) (decF w 9 3) (decF w 7 2) (decF w 4 3) (bitAt w 3) (bitAt w 2) (decF w 0 2))
  | 9 => some (.cgth (decG w) (decF w 15 3) (decF w 12 3) (decF w 9 3) (decF w 4 3) (bitAt w 3) (bitAt w 2) (decF w 0 2))
  | 10 => some (.csct (decG w) (decF w 15 3) (decF w 12 3) (decF w 9 3) (decF w 4 3) (bitAt w 3) (bitAt w 2) (decF w 0 2))
  | 11 => some (.cdst (decG w) (decF w 15 3) (decF w 12 3) (decF w 9 3) (decF w 7 2) (decF w 4 3) (bitAt w 3) (bitAt w 2) (decF w 0 2))
  | 12 => some (.cmcst (decG w) (decF w 15 3) (decF w 12 3) (decF w 9 3) (decF w 7 2) (decF w 4 3) (bitAt w 3) (bitAt w 2) (decF w 0 2))
  | 13 => some (.cwcnt (decF w 16 6) (decF w 10 6) (decF w 4 6))
  | 14 => some (.cqry (decF w 16 6) (decF w 10 6))
  | 15 => some (.cfnc (decG w) (decF w 4 3) (bitAt w 3) (bitAt w 2) (decF w 0 2))
  | _ => none

/-- Row 0x0B of the opcode map (R144): the operation of column `c`. -/
def row0B (c w : Nat) : Option Instr :=
  match c with
  | 0 => some (.vadd (decG w) (decF w 15 3) (decF w 12 3) (decF w 9 3) (bitAt w 0))
  | 1 => some (.vsub (decG w) (decF w 15 3) (decF w 12 3) (decF w 9 3) (bitAt w 0))
  | 2 => some (.vmul (decG w) (decF w 15 3) (decF w 12 3) (decF w 9 3) (bitAt w 0))
  | 3 => some (.vfma (decG w) (decF w 15 3) (decF w 12 3) (decF w 9 3) (bitAt w 0))
  | 4 => some (.vmin (decG w) (decF w 15 3) (decF w 12 3) (decF w 9 3))
  | 5 => some (.vmax (decG w) (decF w 15 3) (decF w 12 3) (decF w 9 3))
  | 6 => some (.vabs (decG w) (decF w 15 3) (decF w 12 3) (bitAt w 0))
  | 7 => some (.vneg (decG w) (decF w 15 3) (decF w 12 3) (bitAt w 0))
  | 8 => some (.vcmp (decG w) (decF w 15 3) (decF w 12 3) (decF w 9 3) (decF w 0 3))
  | 9 => some (.vsel (decG w) (decF w 15 3) (decF w 12 3) (decF w 9 3) (decF w 0 3))
  | 10 => some (.vand (decG w) (decF w 15 3) (decF w 12 3) (decF w 9 3))
  | 11 => some (.vor (decG w) (decF w 15 3) (decF w 12 3) (decF w 9 3))
  | 12 => some (.vxor (decG w) (decF w 15 3) (decF w 12 3) (decF w 9 3))
  | 13 => some (.vsll (decG w) (decF w 15 3) (decF w 12 3) (decF w 9 3))
  | 14 => some (.vsrl (decG w) (decF w 15 3) (decF w 12 3) (decF w 9 3))
  | 15 => some (.vsra (decG w) (decF w 15 3) (decF w 12 3) (decF w 9 3))
  | _ => none

/-- Row 0x0C of the opcode map (R144): the operation of column `c`. -/
def row0C (c w : Nat) : Option Instr :=
  match c with
  | 0 => some (.vcvt (decG w) (decF w 15 3) (decF w 12 3))
  | 1 => some (.vqnt (decG w) (decF w 15 3) (decF w 12 3) (bitAt w 1) (bitAt w 0))
  | 2 => some (.vdqnt (decG w) (decF w 15 3) (decF w 12 3) (decF w 9 3) (bitAt w 1) (bitAt w 0))
  | 3 => some (.vred (decG w) (decF w 15 3) (decF w 12 3) (decF w 6 3) (decF w 0 5))
  | 4 => some (.vscan (decG w) (decF w 15 3) (decF w 12 3) (decF w 6 3) (bitAt w 5))
  | 5 => some (.vperm (decG w) (decF w 15 3) (decF w 12 3) (decF w 9 3))
  | 6 => some (.vbcst (decG w) (decF w 15 3) (decF w 12 3) (decF w 0 5))
  | 7 => some (.vmov (decG w) (decF w 15 3) (decF w 12 3))
  | 8 => some (.mand (decG w) (decF w 15 3) (decF w 12 3) (decF w 9 3))
  | 9 => some (.mor (decG w) (decF w 15 3) (decF w 12 3) (decF w 9 3))
  | 10 => some (.mxor (decG w) (decF w 15 3) (decF w 12 3) (decF w 9 3))
  | 11 => some (.mnot (decG w) (decF w 15 3) (decF w 12 3))
  | 12 => some (.mcnt (decF w 16 6) (decF w 10 6))
  | 13 => if bits w 0 0 = 0 then some (.mset (decG w) (decF w 15 3) (decF w 12 3) (decF w 9 3)) else if bits w 0 0 = 1 then some (.msetU (decG w) (decF w 15 3)) else none
  | _ => none

/-- Row 0x0D of the opcode map (R144): the operation of column `c`. -/
def row0D (c w : Nat) : Option Instr :=
  match c with
  | 0 => some (.vrcp (decG w) (decF w 15 3) (decF w 12 3) (decF w 9 3) (bitAt w 0))
  | 1 => some (.vrsq (decG w) (decF w 15 3) (decF w 12 3) (decF w 9 3) (bitAt w 0))
  | 2 => some (.vexp2 (decG w) (decF w 15 3) (decF w 12 3) (decF w 9 3) (bitAt w 0))
  | 3 => some (.vlog2 (decG w) (decF w 15 3) (decF w 12 3) (decF w 9 3) (bitAt w 0))
  | 4 => some (.vtanh (decG w) (decF w 15 3) (decF w 12 3) (decF w 9 3) (bitAt w 0))
  | 5 => some (.vsigm (decG w) (decF w 15 3) (decF w 12 3) (decF w 9 3) (bitAt w 0))
  | 6 => some (.vsin (decG w) (decF w 15 3) (decF w 12 3) (decF w 9 3) (bitAt w 0))
  | 7 => some (.vcos (decG w) (decF w 15 3) (decF w 12 3) (decF w 9 3) (bitAt w 0))
  | 8 => some (.tdem (decF w 16 6) (decF w 10 6) (decF w 4 6) (decF w 0 4))
  | 9 => some (.tred (decF w 16 6) (decF w 10 6) (decF w 4 6))
  | 10 => some (.tqry (decF w 16 6) (decF w 10 6) (bitAt w 0))
  | 11 => some (.terr (decF w 16 6) (decF w 10 6) (decF w 4 6) (decF w 0 4))
  | 12 => some (.gset (decF w 16 6) (decF w 10 6))
  | 13 => some (.gclr (decF w 16 6))
  | 14 => some (.gwait (decF w 16 6))
  | _ => none

/-- Row 0x0E of the opcode map (R144): the operation of column `c`. -/
def row0E (c w : Nat) : Option Instr :=
  match c with
  | 0 => some (.padd (decF w 16 6) (decF w 10 6) (decF w 4 6) (bitAt w 0))
  | 1 => some (.psub (decF w 16 6) (decF w 10 6) (decF w 4 6) (bitAt w 0))
  | 2 => some (.pmul (decF w 16 6) (decF w 10 6) (decF w 4 6) (bitAt w 0))
  | 3 => some (.pfma (decF w 16 6) (decF w 10 6) (decF w 4 6) (bitAt w 0))
  | 4 => some (.pmin (decF w 16 6) (decF w 10 6) (decF w 4 6))
  | 5 => some (.pmax (decF w 16 6) (decF w 10 6) (decF w 4 6))
  | 6 => some (.pdot (decF w 16 6) (decF w 10 6) (decF w 4 6) (bitAt w 3) (decF w 0 2))
  | 7 => some (.pcvt (decF w 16 6) (decF w 10 6) (decF w 4 6) (bitAt w 2) (decF w 0 2))
  | 8 => some (.pscl (decF w 16 6) (decF w 10 6) (decF w 4 6) (bitAt w 0))
  | 9 => some (.pqnt (decF w 16 6) (decF w 10 6) (decF w 4 6) (decF w 2 2) (decF w 0 2))
  | _ => none

/-- Row 0x0F of the opcode map (R144): the operation of column `c`. -/
def row0F (c w : Nat) : Option Instr :=
  match c with
  | 0 => some (.mclm (decG w) (decF w 15 3) (decF w 0 2))
  | 1 => some (.mrel (decG w) (decF w 15 3))
  | 2 => some (.mld (decG w) (decF w 15 3) (decF w 12 3) (decF w 9 3) (decF w 4 3) (bitAt w 3) (bitAt w 2))
  | 3 => some (.mma (decG w) (decF w 15 3) (decF w 12 3) (decF w 9 3) (bitAt w 5) (bitAt w 4) (bitAt w 3) (bitAt w 2) (decF w 0 2))
  | 4 => some (.mdrn (decG w) (decF w 15 3) (decF w 12 3) (decF w 9 3) (bitAt w 8) (bitAt w 7) (decF w 4 3) (bitAt w 3) (bitAt w 2) (bitAt w 1) (bitAt w 0))
  | 5 => some (.mspl (decG w) (decF w 15 3) (decF w 12 3) (decF w 4 3) (bitAt w 3) (bitAt w 2))
  | 6 => some (.mrst (decG w) (decF w 15 3) (decF w 12 3) (decF w 4 3) (bitAt w 3) (bitAt w 2))
  | 7 => some (.msnd (decG w) (decF w 15 3) (decF w 12 3) (decF w 9 3))
  | 8 => some (.mzacc (decG w) (decF w 15 3))
  | 9 => if bits w 1 0 = 0 then some (.mmov (decG w) (decF w 15 3) (decF w 12 3)) else if bits w 1 0 = 1 then some (.mmovG (decG w) (decF w 15 3) (decF w 9 3)) else if bits w 1 0 = 2 then some (.mmovT (decG w) (decF w 15 3) (decF w 12 3)) else none
  | 10 => some (.mqry (decF w 16 6) (decF w 10 6))
  | 11 => some (.mwait (decF w 16 6))
  | _ => none

/-- Row 0x10 of the opcode map (R144): the operation of column `c`. -/
def row10 (c w : Nat) : Option Instr :=
  match c with
  | 0 => some (.bar (decF w 16 6) (decF w 10 6))
  | 1 => some (.join)
  | 2 => some (.lead (decF w 16 6) (decF w 10 6) (decF w 4 6))
  | 3 => some (.follow (decF w 16 6) (decF w 10 6) (decF w 4 6))
  | 4 => if bits w 3 0 = 8 then some (.sendPort (decF w 10 6) (decF w 4 6)) else some (.send (decF w 16 6) (decF w 10 6) (decF w 4 6) (decF w 0 4))
  | 5 => if bits w 3 0 = 0 then some (.recv (decF w 16 6) (decF w 10 6) (decF w 4 6)) else if bits w 3 0 = 1 then some (.recvT (decF w 16 6) (decF w 10 6)) else if bits w 3 0 = 2 then some (.recvPort (decF w 16 6) (decF w 4 6)) else if bits w 3 0 = 3 then some (.recvF (decF w 16 6) (decF w 10 6) (decF w 4 6)) else none
  | 6 => some (.precv (decF w 16 6) (decF w 10 6) (decF w 4 6))
  | 7 => if bits w 3 0 = 0 then some (.probeT (decF w 16 6) (decF w 10 6)) else if bits w 3 0 = 1 then some (.probe (decF w 16 6) (decF w 10 6) (decF w 4 6)) else none
  | 8 => some (.fence (decF w 0 4))
  | 9 => some (.tspawn (decF w 16 6) (decF w 10 6) (decF w 4 6))
  | 10 => some (.tdone (decF w 10 6))
  | 11 => some (.tdec (decF w 16 6) (decF w 10 6))
  | 12 => some (.baddq (decG w) (decF w 15 3) (decF w 12 3) (decF w 9 3) (bitAt w 1) (bitAt w 0))
  | 13 => some (.txb)
  | 14 => some (.txc (decF w 16 6) (bitAt w 0))
  | 15 => some (.txa)
  | _ => none

/-- Row 0x11 of the opcode map (R144): the operation of column `c`. -/
def row11 (c w : Nat) : Option Instr :=
  match c with
  | 0 => some (.shash (decF w 16 6) (decF w 10 6) (decF w 4 6))
  | 1 => some (.sverf (decF w 16 6) (decF w 10 6) (decF w 4 6))
  | 2 => some (.ssign (decF w 16 6) (decF w 10 6) (decF w 4 6))
  | 3 => if bits w 3 0 = 0 then some (.scryp (decF w 16 6) (decF w 10 6) (decF w 4 6)) else if bits w 3 0 = 1 then some (.scrypDec (decF w 16 6) (decF w 10 6) (decF w 4 6)) else none
  | 4 => if bits w 3 0 = 0 then some (.skey (decF w 16 6) (decF w 10 6) (decF w 4 6)) else if bits w 3 0 = 1 then some (.skeyWipe (decF w 16 6) (decF w 10 6) (decF w 4 6)) else none
  | 5 => some (.smext (decF w 16 6) (decF w 10 6) (decF w 4 6))
  | _ => none

/-- Rows 0x14 and 0x15: SBIND, opcode bits 4:0 the format code (R144, R210). -/
def rowSbind (w : Nat) : Option Instr :=
  some (.sbind (decF w 22 5) (decF w 16 6) (decF w 10 6) (decF w 4 6) (decF w 0 4))

/-- The operation that a word's opcode, and where several rows of the table share it its function field, name. -/
def shape (w : Nat) : Option Instr :=
  let o := w / 2 ^ 22
  let c := o % 16
  match o / 16 with
  | 0 => row00 c w
  | 1 => row01 c w
  | 2 => row02 c w
  | 3 => row03 c w
  | 4 => row04 c w
  | 5 => row05 c w
  | 6 => row06 c w
  | 7 => row07 c w
  | 8 => row08 c w
  | 9 => row09 c w
  | 10 => row0A c w
  | 11 => row0B c w
  | 12 => row0C c w
  | 13 => row0D c w
  | 14 => row0E c w
  | 15 => row0F c w
  | 16 => row10 c w
  | 17 => row11 c w
  | 20 => rowSbind w
  | 21 => rowSbind w
  | _ => none

/-- Map0Assigned (R141, R144): the opcodes that map 0 assigns on this core. -/
def assigned (nolorn : Bool) (o : Nat) : Bool :=
  let c := o % 16
  match o / 16 with
  | 0 => c != 0
  | 1 => true
  | 2 => c < 15
  | 3 => c < 10
  | 4 => c < 10
  | 5 => c < 14
  | 6 => c < 12
  | 7 => true
  | 8 => true
  | 9 => c < 10
  | 10 => c != 7
  | 11 => true
  | 12 => c < 14
  | 13 => c < 15
  | 14 => c < 10
  | 15 => c < 12
  | 16 => true
  | 17 => nolorn && c < 6
  | 20 => true
  | 21 => c < 4
  | _ => false

/-- Opcodes that accept HV (R135). -/
def acceptsHv (o : Nat) : Bool :=
  (0x060 ≤ o && o ≤ 0x06B) || (0x0B0 ≤ o && o ≤ 0x0BF) || (0x0C0 ≤ o && o ≤ 0x0C7) || (0x0D0 ≤ o && o ≤ 0x0D7) ||
    (0x0E0 ≤ o && o ≤ 0x0E9) || o == 0x0F4 || o == 0x10C

/-- HintSequenceFault (R136): the hint words before this opcode may not stand before it. -/
def hintFault (h : Hint) (o : Nat) : Bool :=
  match h with
  | .none => false
  | .hx ps => !(o == 0x003 || o == 0x004 || (o == 0x001 && ps.length < 2))
  | .hv _ => !acceptsHv o

/-- SupervisorOnly (R141): TRET, CTXSV, CTXLD, REVK and the security instructions (R338, R348, R349, R204, R389). -/
def supervisorOnly (o : Nat) : Bool := o == 0x008 || o == 0x00A || o == 0x00B || o == 0x0A6 || (0x110 ≤ o && o ≤ 0x115)

/-- What decoding a word answers: an instruction, or the fault of R141 that is reported. -/
inductive Decoded where
  | ok (i : Instr)
  | illegal
  | hintMisuse
  | reserved
  | privileged
deriving DecidableEq, Repr

/-- Decode (R141) of a word in map 0's numbering: illegal opcode, hint misuse, reserved field, privileged instruction, in this order. -/
def decode (nolorn user : Bool) (h : Hint) (w : Nat) : Decoded :=
  let o := w / 2 ^ 22
  if !assigned nolorn o then .illegal
  else if hintFault h o then .hintMisuse
  else
    match shape w with
    | none => .reserved
    | some i =>
      if encodeNat i != some w || !i.wf nolorn then .reserved
      else if user && supervisorOnly o then .privileged
      else .ok i

/-- The instruction of a word, where it is one. -/
def Decoded.instr? : Decoded → Option Instr
  | .ok i => some i
  | _ => none

/-- The instruction that the decoder reads from four bytes, the lowest address first (R32), in a supervisor context with no hint. -/
def decodeBytes (nolorn : Bool) (l : List Byte) : Option Instr := (decode nolorn false .none (ofBytes l)).instr?

/-- The instruction of a word of the opcode table: as an ordinary core decodes it, else as the Nolorn core does (row 0x11 and the
security registers, R144, R148). A row has 32 bits. -/
def decodeTableWord (nbits w : Nat) : Option Instr :=
  let l := toBytes 4 (w % 2 ^ nbits)
  (decodeBytes false l).orElse fun _ => decodeBytes true l

end Sys2Proof
end

