-- ==== Sys2Proof/Machine/Ops.lean ====
section
/-! DEFINITION. The named operations over cores, contexts, registers, module memory and accounts; issuing, waiting, jumping; taking
an exception and returning from one (R333, R336, R338); fault logs (R341) and accounting commits (R155). -/

namespace Sys2Proof.Machine

/-- What a step answers. -/
abbrev Out := Host.Outcome State Fault Refusal

/-! ## Cores and contexts -/

/-- Core number `c`. -/
def core (s : State) (c : Nat) : Core := tget s.cores c {}

/-- Replaces core `c`. -/
def setCore (s : State) (c : Nat) (k : Core) : State := { s with cores := tset s.cores c k }

/-- The core whose sequencer moves. -/
def curCore (s : State) : Core := core s s.cur

/-- The user (`false`) or supervisor (`true`) context of core `c`. -/
def ctxOf (s : State) (c : Nat) (sup : Bool) : Ctx := if sup then (core s c).sup else (core s c).user

/-- Replaces a context of a core. -/
def Core.put (k : Core) (sup : Bool) (x : Ctx) : Core := if sup then { k with sup := x } else { k with user := x }

/-- Replaces the context of core `c`. -/
def setCtxOf (s : State) (c : Nat) (sup : Bool) (x : Ctx) : State := setCore s c ((core s c).put sup x)

/-- The context in issue: the supervisor's while it runs, else the user's (R152, R333). -/
def cx (s : State) : Ctx := ctxOf s s.cur (curCore s).supOn

/-- Replaces the context in issue. -/
def setCx (s : State) (x : Ctx) : State := setCtxOf s s.cur (curCore s).supOn x

/-- The context in issue of a core. -/
def Core.inIssue (k : Core) : Ctx := if k.supOn then k.sup else k.user

/-- Whether the word in issue is the supervisor's. -/
def onSup (s : State) : Bool := (curCore s).supOn

/-- General register `n`: k0 reads as zero with tag 0 (R145). -/
def reg (x : Ctx) (n : Nat) : Reg := if n = 0 then {} else tget x.regs n {}

/-- Writes general register `n`: a write to k0 is discarded (R145). -/
def setReg (x : Ctx) (n : Nat) (r : Reg) : Ctx := if n = 0 then x else { x with regs := tset x.regs n r }

/-- K[r] of the context in issue. -/
def rk (s : State) (r : BitVec 6) : Reg := reg (cx s) r.toNat

/-- The 128 bits of K[r] of the context in issue. -/
def rv (s : State) (r : BitVec 6) : Word := (rk s r).val

/-- The value of K[r] as a number. -/
def rn (s : State) (r : BitVec 6) : Nat := (rv s r).toNat

/-- K[d] := r in the context in issue. -/
def putReg (d : BitVec 6) (r : Reg) (s : State) : State := setCx s (setReg (cx s) d.toNat r)

/-- K[d] := v with tag 0 (R145). -/
def putWord (d : BitVec 6) (v : Word) (s : State) : State := putReg d { val := v } s

/-- K[d] := v with tag 0, from a number. -/
def putNat (d : BitVec 6) (v : Nat) (s : State) : State := putWord d (BitVec.ofNat 128 v) s

/-- The register that a 3-bit E-format field names (R131). -/
def k48 (s : State) (v : BitVec 3) : Reg := reg (cx s) (48 + v.toNat)

/-- Bank, cluster and die of a core (R2, R106, R326): Clove and Nolorn cores lie in no cluster; Nolorn stands on die 0 (entry 9). -/
def dieOf (c : Nat) : Nat := if c < 4096 then c / 1024 else if c < 4208 then (c - 4096) / 28 else 0

/-- The cluster (0 to 63) of a core, none for a Clove core and the Nolorn core. -/
def clusterOf (c : Nat) : Option Nat := if c < 4096 then some (c / 64) else none

/-- A core's 12-bit name: the CORE layout, the Clove form (R326), zero for the Nolorn core. -/
def coreName (c : Nat) : Nat :=
  if c < 4096 then c else if c < 4208 then ((c - 4096) / 28) * 1024 + (c - 4096) % 28 else 0

/-- The core that the Clove form names (R326). -/
def cloveCore (f : Nat) : Nat := 4096 + 28 * bits f 11 10 + 4 * bits f 4 2 + bits f 1 0

/-- The Nolorn core's number. -/
def nolornCore : Nat := 4208

/-- A die's state. -/
def die (s : State) (d : Nat) : Die := tget s.dies d {}

/-- Replaces a die. -/
def setDie (s : State) (d : Nat) (x : Die) : State := { s with dies := tset s.dies d x }

/-- A function's state. -/
def func (s : State) (f : Nat) : Func := tget s.funcs f {}

/-- Replaces a function. -/
def setFunc (s : State) (f : Nat) (x : Func) : State := { s with funcs := tset s.funcs f x }

/-- Puts an event under way behind the others. -/
def send (e : Event) (s : State) : State := { s with flight := s.flight ++ [e] }

/-- Takes an event out of those under way, where it stands there. -/
def taken (e : Event) (s : State) : State := { s with flight := s.flight.erase e }

/-- The number a function has (R100, R377): 0 and 1 the physical functions, 1 + VF a virtual function. -/
def funcOf (vf pfn : Nat) : Nat := if vf = 0 then pfn else 1 + vf

/-- %elapsed on a die: the cycles since its reset was released (R148). -/
def elapsedOn (s : State) (d : Nat) : Nat := s.elapsed - (die s d).since

/-! ## Tenancy (R77) -/

/-- TenantMatch(t) under a snapshot's TENANT and TMASK. -/
def tenantMatch (t : Nat) (p : Nat × Nat) : Bool := ((t ^^^ p.1) &&& p.2) == 0

/-- A context's TENANT and TMASK: none when it has no region. -/
def tenantOf (x : Ctx) : Option (Nat × Nat) := x.region.map fun r => (r.tenant, r.tmask)

/-- The test of another context's TENANT under an issuer's snapshot: it passes when either has no region. -/
def tenantOk (issuer : Option (Nat × Nat)) (target : Ctx) : Bool :=
  match issuer, target.region with
  | some p, some r => tenantMatch r.tenant p
  | _, _ => true

/-! ## Residency (R152) and the latencies of R3 -/

/-- The resident context of a core: some false the user's, some true the supervisor's. -/
def residentOf (k : Core) : Option Bool := if k.uload then some false else if k.supOn then some true else none

/-- The latency of R3 between two places of one cluster: their quads and groups. -/
def lat3 (quadA quadB : Nat) : Nat := if quadA = quadB then 1 else if quadA / 4 = quadB / 4 then 3 else 5

/-! ## The cycle account (R152 to R157) -/

/-- Adds `n` to counter (slot, cause) of a table of counters. -/
def acctAdd (t : AList Nat) (slot cause n : Nat) : AList Nat :=
  if n = 0 then t else tset t (32 * slot + cause) (tget t (32 * slot + cause) 0 + n)

/-- What stands first for every slot of a resident context (R153): debug halt, then pre-emption drain. -/
def headCause (k : Core) (x : Ctx) : Option Nat := if x.dbg.halted then some 0 else if k.preempt then some 1 else none

/-- `n` equal records join those on their way to memory: a core's encoder holds 64, `other` of them those of its other context, and drops
what comes beyond them (R371). -/
def Debug.push (r : BitVec 64) (n other : Nat) (d : Debug) : Debug :=
  let fit := Nat.min n (64 - other - d.enc.length)
  { d with enc := d.enc ++ List.replicate fit r, trdrop := Nat.min (2 ^ 32 - 1) (d.trdrop + (n - fit)) }

/-- The run of a slot ends: at the first cycle that is not captured (R369). -/
def Debug.endRun (other slot : Nat) (d : Debug) : Debug :=
  match tfind d.runs slot with
  | some r => { d.push r 1 other with runs := tdel d.runs slot }
  | none => d

/-- The runs of the three slots end. -/
def Debug.endRuns (other : Nat) (d : Debug) : Debug := ((d.endRun other 0).endRun other 1).endRun other 2

/-- Adds `n` cycles of a slot to the encoder's runs (R158): a run goes on while PC, cause and context agree, and ends where COUNT has
reached its maximum. -/
def Debug.run (d : Debug) (other pc slot cause ctx n : Nat) : Debug :=
  if n = 0 then d else
  let key := fld (pc % 65536) 48 + fld slot 46 + fld cause 41 + fld ctx 40
  let most := 2 ^ 40 - 1
  let old := match tfind d.runs slot with | some r => if r.toNat / 2 ^ 40 = key / 2 ^ 40 then r.toNat % 2 ^ 40 else 0 | none => 0
  let d := if old = 0 then d.endRun other slot else d
  let d := d.push (BitVec.ofNat 64 (key + most)) ((old + n) / most) other
  { d with runs := if (old + n) % most = 0 then tdel d.runs slot else tset d.runs slot (BitVec.ofNat 64 (key + (old + n) % most)) }

/-- CUR of %lblst (R367). -/
def Debug.cur (d : Debug) : Nat := if d.depth = 0 then 0 else tget d.lbl (Nat.min d.depth 16 - 1) 0

/-- The filters of R369: armed, capture on, the context selected, the label under the mask. `slot`: bit of SLOTS. -/
def Debug.captures (d : Debug) (sup : Bool) (slotBit : Nat) : Bool :=
  bitAt d.trctl 0 && bitAt d.trctl 1 && bitAt d.trctl slotBit &&
    (match bits d.trctl 6 5 with | 1 => !sup | 2 => sup | _ => true) && ((d.cur ^^^ bits d.trctl 31 16) &&& bits d.trctl 47 32) == 0

/-- What a start or stop trigger of the encoder says of a cycle (R370): KIND 1 always, KIND 2 to 4 of the word `w` at `pc` where one issues,
KIND 5 in the cycle of a Dusk pulse. The word's opcode is the one that it performs (R138). -/
def Debug.trigger (d : Debug) (v : Nat) (issued : Bool) (w pc : Nat) (dusk : Bool) : Bool :=
  match v % 8 with
  | 1 => true
  | 2 => issued && pc == bits v 31 16
  | 3 => issued && w / 2 ^ 22 == 0x00D && w % 65536 == bits v 31 16
  | 4 => issued && w / 2 ^ 22 == 0x00E && d.cur == bits v 31 16
  | 5 => dusk
  | _ => false

/-- CAP is set where the start trigger holds (R370). -/
def Debug.start (d : Debug) (issued : Bool) (w pc : Nat) (dusk : Bool) : Debug :=
  if bitAt d.trctl 0 && !bitAt d.trctl 1 && d.trigger d.trstart issued w pc dusk then { d with trctl := setBits d.trctl 1 1 1 } else d

/-- CAP is cleared after a cycle in which the stop trigger holds (R370). -/
def Debug.stop (d : Debug) (issued : Bool) (w pc : Nat) (dusk : Bool) : Debug :=
  if bitAt d.trctl 0 && bitAt d.trctl 1 && d.trigger d.trstop issued w pc dusk then { d with trctl := setBits d.trctl 1 1 0 } else d

/-- `n` cycles of a slot as the encoder takes them (R369): captured, or the end of the slot's run. `bit`: of SLOTS. -/
def Debug.cycles (d : Debug) (other : Nat) (sup : Bool) (bit slot pc cause n : Nat) : Debug :=
  if n = 0 then d else if d.captures sup bit then d.run other pc slot cause (b2n sup) n else d.endRun other slot

/-- Whether an operation of the vector engine draws in mode rsto. -/
def VOp.draws : VOp → Bool
  | .cmp _ => false
  | .logic _ => false
  | .shift _ => false
  | .qnt _ _ => false
  | .baddq _ _ => false
  | .mov => false
  | .mlogic _ => false
  | .mset _ => false
  | _ => true

/-- Whether a vector command still has to draw. -/
def VCmd.rsto (v : VCmd) : Bool := v.env.mode == 5 && v.op.draws

/-- Whether a matrix command still has to draw: MDRN rounds its elements (R279). -/
def MCmd.rsto (m : MCmd) : Bool := m.env.mode == 5 && (match m.op with | .mdrn .. => true | _ => false)

/-- Whether a vector command's grant of its core's generator is still to come: an earlier command has to draw first (R48). -/
def VCmd.ungranted (k : Core) (v : VCmd) : Bool :=
  v.rsto && (((k.user.mq ++ k.sup.mq).any fun m => m.rsto && m.seq < v.seq) || (k.user.vq ++ k.sup.vq).any fun w => w.rsto && w.seq < v.seq)

/-- Whether a matrix command's grant of its core's generator is still to come (R48). -/
def MCmd.ungranted (k : Core) (m : MCmd) : Bool :=
  m.rsto && (((k.user.vq ++ k.sup.vq).any fun v => v.rsto && v.seq < m.seq) || (k.user.mq ++ k.sup.mq).any fun w => w.rsto && w.seq < m.seq)

/-- The context whose vector queue the engine serves: the one whose command runs, else the user, but where its head waits for a draw of the
supervisor's (R48) or it has none (R335). -/
def vectorSide (k : Core) : Bool :=
  match k.user.vq, k.sup.vq with
  | [], _ => true
  | _, [] => false
  | u :: _, w :: _ => u.run.isNone && (w.run.isSome || (u.rsto && k.sup.vq.any fun w => w.rsto && w.seq < u.seq))

/-- The context whose matrix queue the unit serves: the user, but where its head waits for a draw of the supervisor's (R48) or it has none
(R335). -/
def matrixSide (k : Core) : Bool :=
  match k.user.mq with
  | [] => true
  | u :: _ => u.rsto && k.sup.mq.any fun w => w.rsto && w.seq < u.seq

/-- A command at the head of an engine's queues: whether it is the supervisor's, its address, and whether its guard is unresolved. -/
structure EngineHead where
  sup : Bool
  pc : Nat
  pend : Bool
deriving DecidableEq, Repr

/-- Whether a guard is still unresolved (R184). -/
def Binding.isPend : Binding → Bool
  | .pend _ => true
  | _ => false

/-- The vector command that a core's vector engine serves. -/
def vectorHead (k : Core) : Option EngineHead :=
  (if vectorSide k then k.sup.vq else k.user.vq).head?.map fun v => ⟨vectorSide k, v.pc, v.bind.isPend⟩

/-- The matrix command that a core's matrix unit serves. -/
def matrixHead (k : Core) : Option EngineHead :=
  (if matrixSide k then k.sup.mq else k.user.mq).head?.map fun m => ⟨matrixSide k, m.pc, m.bind.isPend⟩

/-- What the cycles of a slot are charged with: the cause of those that nothing names and of the named ones, and the address and the
context of the trace records (R153, R158, R396). -/
structure Slot where
  gap : Nat
  named : Nat
  pc : Nat
  sup : Bool
deriving DecidableEq, Repr

/-- Whether the supervisor of a core runs a handler for the resident user context (R152, R396). -/
def Core.handling (k : Core) : Bool := k.uload && k.supOn && k.pendT

/-- The sequencer's slot: under a handler every cycle is the handler's (R396). -/
def sequencerSlot (k : Core) (x : Ctx) (q : Option Nat) : Slot :=
  let cover (c : Nat) : Nat := (headCause k x).getD (if k.handling then 6 else c)
  ⟨cover k.stallq, cover (q.getD k.stallq), if k.supOn then k.sup.pc else x.pc, k.supOn⟩

/-- An engine's slot: under a handler a cycle that is not of the user's command is the handler's (R396); a head whose guard is unresolved
is charged as such (R184), an empty queue as idle, and else what the engine last waited for. -/
def engineSlot (k : Core) (x : Ctx) (h : Option EngineHead) (stall : Nat) (v : Option Nat) : Slot :=
  let mine := match h with | some e => !e.sup | none => false
  let cover (c : Nat) : Nat := (headCause k x).getD (if k.handling && !mine then 6 else c)
  let gap := match h with | none => 25 | some e => if e.pend then 14 else stall
  ⟨cover gap, cover (v.getD gap), match h with | some e => e.pc | none => 0xFFFF,
    match h with | some e => e.sup | none => k.handling || !k.uload⟩

/-- Adds the cycles of a slot to its counters: `gap` that nothing names, then `n` named ones. -/
def Slot.count (t : Slot) (slot gap n : Nat) (a : AList Nat) : AList Nat := acctAdd (acctAdd a slot t.gap gap) slot t.named n

/-- The address, the cause and the context of the last cycle charged. -/
def Slot.last (t : Slot) (gap n : Nat) (old : Option (Nat × Nat × Bool)) : Option (Nat × Nat × Bool) :=
  if n ≠ 0 then some (t.pc, t.named, t.sup) else if gap ≠ 0 then some (t.pc, t.gap, t.sup) else old

/-- `n` cycles of the three slots as the encoder takes them, between the start and the stop trigger of the last of them (R158, R369, R370). -/
def Debug.slots (d : Debug) (other n : Nat) (issued : Bool) (w : Nat) (dusk : Bool) (q v m : Nat × Bool × Nat) : Debug :=
  if n = 0 then d else
  let d := d.start issued w q.1 dusk
  (((d.cycles other q.2.1 4 0 q.1 q.2.2 n).cycles other v.2.1 3 1 v.1 v.2.2 n).cycles other m.2.1 2 2 m.1 m.2.2 n).stop issued w q.1 dusk

/-- The encoder with its records, runs, drops and CAP as another leaves them: nothing else of the debug registers is changed. -/
def Debug.traced (d e : Debug) : Debug := { d with enc := e.enc, runs := e.runs, trdrop := e.trdrop, trctl := e.trctl }

/-- What the encoder makes of `gap` cycles that nothing names and `n` named ones, in the last of which the word in issue may issue. -/
def Debug.charge (d : Debug) (k : Core) (other gap n : Nat) (q v m : Slot) (issued dusk : Bool) : Debug :=
  let w := k.inIssue.op * 2 ^ 22 + k.inIssue.word.toNat % 2 ^ 22
  let part (s : Slot) (c : Nat) : Nat × Bool × Nat := (s.pc, s.sup, c)
  d.traced ((d.slots other gap false w false (part q q.gap) (part v v.gap) (part m m.gap)).slots other n issued w dusk
    (part q q.named) (part v v.named) (part m m.named))

/-- What the matrix unit waits for (R153, R273): once the first datum of a fill has arrived, its slot. -/
def Core.matrixStall (k : Core) : Nat := match k.datum with | some t => if t ≤ k.seen then 24 else k.stallm | none => k.stallm

/-- Charges `gap` cycles of a context's residency that nothing names, then `n` cycles, to the cause given for each slot (R153, R396). A word
issues in the last of them where the sequencer's cause says so; `dusk`: a Dusk pulse falls in them. -/
def chargeCtx (k : Core) (x : Ctx) (other gap n : Nat) (q v m : Option Nat) (dusk : Bool := false) : Ctx :=
  let tq := sequencerSlot k x q
  let tv := engineSlot k x (vectorHead k) k.stallv v
  let tm := engineSlot k x (matrixHead k) k.matrixStall m
  { x with acct := tm.count 2 gap n (tv.count 1 gap n (tq.count 0 gap n x.acct))
           dbg := x.dbg.charge k other gap n tq tv tm (q == some 2 || q == some 3 || q == some 4) dusk
           ctime := if x.dbg.halted then x.ctime else x.ctime + (gap + n)
           resident := if x.dbg.halted then x.resident else x.resident + (gap + n) }

/-- A context that was not resident in the cycles that have passed: none of them is captured for it, so its runs have ended (R369). -/
def Ctx.away (other n : Nat) (x : Ctx) : Ctx := { x with dbg := x.dbg.traced (if n = 0 then x.dbg else x.dbg.endRuns other) }

/-- What a slot's coming cycles go to after it was charged to a cause: a slot that has issued or discarded waits for nothing that is known. -/
def stallAfter (old : Nat) : Option Nat → Nat
  | none => old
  | some c => if c < 6 then 8 else c

/-- Charges a core, to its resident context or to its idle account (R152, R153): `gap` cycles that nothing names, then `n` cycles with the
causes given. -/
def chargeCore (k : Core) (gap n : Nat) (q v m : Option Nat) (now : Nat) (dusk : Bool := false) : Core :=
  let user (x : Ctx) : Nat := x.dbg.enc.length
  match residentOf k with
  | some true => { k with
      sup := chargeCtx k k.sup (user k.user) gap n q v m dusk, user := k.user.away (user k.sup) (gap + n)
      charged := (sequencerSlot k k.sup q).last gap n k.charged
      seen := now, stallq := stallAfter k.stallq q, stallv := stallAfter k.stallv v, stallm := stallAfter k.stallm m
      datum := if m.isSome then none else k.datum }
  | some false => { k with
      user := chargeCtx k k.user (user k.sup) gap n q v m dusk, sup := k.sup.away (user k.user) (gap + n)
      charged := (sequencerSlot k k.user q).last gap n k.charged
      seen := now, stallq := stallAfter k.stallq q, stallv := stallAfter k.stallv v, stallm := stallAfter k.stallm m
      datum := if m.isSome then none else k.datum }
  | none =>
    let cause := match k.power with | .on => 27 | _ => 26
    { k with
      idle := acctAdd (acctAdd (acctAdd k.idle 0 cause (gap + n)) 1 cause (gap + n)) 2 cause (gap + n)
      user := k.user.away (user k.sup) (gap + n), sup := k.sup.away (user k.user) (gap + n), seen := now, charged := none }

/-- The cycles since a core was last charged. -/
def unseen (s : State) (c : Nat) : Nat := s.elapsed - Nat.max (core s c).seen (die s (dieOf c)).since

/-- Time passes: `n` cycles with the causes given, charged on core `c` after what passed since it was last charged. -/
def spendFor (c n : Nat) (q v m : Option Nat) (s : State) : State :=
  let now := s.elapsed + n
  setCore { s with elapsed := now, tick := s.tick + 1 } c (chargeCore (core s c) (unseen s c) n q v m now)

/-- Time passes: one cycle. -/
def spendOn (c : Nat) (q v m : Option Nat) (s : State) : State := spendFor c 1 q v m s

/-- The end of a step: a free number of stall cycles passes where the clock runs (entry 3), and the accounts of every core are brought up to
the present, so that what the next step changes is never charged for cycles that passed before it. -/
def elapse (s : State) : State :=
  let now := s.elapsed + (if s.mgmt.clockStopped then 0 else Config.stallCycles s.tick)
  let t := { s with elapsed := now, tick := s.tick + 1 }
  { t with cores := s.cores.map fun p => (p.1, chargeCore p.2 (unseen t p.1) 0 none none none now) }

/-- A cycle of the sequencer in issue, charged to a cause. -/
def spend (cause : Nat) (s : State) : State := spendOn s.cur (some cause) none none s

/-- Brings a core's accounts up to the present with no further time. -/
def settle (c : Nat) (s : State) : State :=
  if unseen s c = 0 then s else setCore s c (chargeCore (core s c) (unseen s c) 0 none none none s.elapsed)

/-! ## Issue -/

/-- The place after a word: the next word, the next pass of the innermost repetition that ends there, or the word after it (R180,
R182: the inner repetition first). -/
def repAdvance (pc : Nat) : List Rep → Nat × List Rep
  | [] => (pc, [])
  | r :: rs =>
    if pc = (r.start + 4 * r.n) % 65536 then
      if r.pass + 1 < r.count then (r.start, { r with pass := r.pass + 1 } :: rs) else repAdvance pc rs
    else (pc, r :: rs)

/-- Whether a word issues on a second or later pass of an active repetition (R153). -/
def replaying (x : Ctx) : Bool := x.reps.any fun r => r.pass != 0

/-- The context after the word in issue: the program counter moves on and the hints are used up. -/
def Ctx.advance (x : Ctx) : Ctx :=
  let p := repAdvance ((x.pc + 4) % 65536) x.reps
  { x with pc := p.1, reps := p.2, hint := .none, waiting := none }

/-- The issue cause: replay or issued (R153). -/
def issueCause (x : Ctx) : Nat := if replaying x then 3 else 2

/-- Marks the word as issued: a forwarded word is used up by the user context's issue alone (R126). -/
def Core.marked_ (k : Core) : Core := { k with issued := true, took := false, fwd := if k.supOn then k.fwd else none }

/-- Marks the word in issue as issued. -/
def markIssued (s : State) : State := setCore s s.cur (curCore s).marked_

/-- The word in issue is complete: one cycle is charged, and the next word is next. -/
def finish (s : State) : State :=
  let s := spend (issueCause (cx s)) s
  markIssued (setCx s (cx s).advance)

/-- The word in issue is complete, with an effect that it has at the end of its cycle. -/
def finishWith (f : State → State) (s : State) : State :=
  let s := f (spend (issueCause (cx s)) s)
  markIssued (setCx s (cx s).advance)

/-- A taken transfer of control: it ends every active repetition (R182). -/
def jump (target : Nat) (s : State) : State :=
  let s := spend (issueCause (cx s)) s
  let s := markIssued (setCx s { cx s with pc := target % 65536, reps := [], hint := .none, waiting := none })
  setCore s s.cur { curCore s with took := true }

/-- Whether the engines of a context of a core take no further command: Saffron pre-empts the user context, and the supervisor's work with
it (R343). -/
def Core.enginesStop (k : Core) (sup : Bool) : Bool := k.preempt && (!sup || k.udisp)

/-- The word in issue waits: a cycle is charged to the cause. -/
def wait (cause : Nat) (s : State) : State := spend cause s

/-- The word in issue waits in a named wait (R308, R312, R314). -/
def waitIn (cause : Nat) (w : Waiting) (s : State) : State := wait cause (setCx s { cx s with waiting := some w })

/-- Names register `d` as one whose result is outstanding, and the cause that a wait for it is charged to (R151, R307, R319). -/
def pendReg (d : BitVec 6) (cause : Nat) (s : State) : State :=
  if d = 0 then s else setCx s { cx s with pend := tset (cx s).pend d.toNat cause }

/-- A leader's result reaches the word that a follower still holds (R322). -/
def FwdWord.learn (n : Nat) (v : Word) (f : FwdWord) : FwdWord :=
  if f.needs = some n then { f with needs := none, res := some v } else f

/-- The leader's result reaches each of its followers. -/
def learnAll (n : Nat) (v : Word) : List Nat → State → State
  | [], s => s
  | f :: t, s =>
    let k := core s f
    learnAll n v t (setCore s f { k with fwd := k.fwd.map (FwdWord.learn n v),
                                         user := { k.user with fwdq := k.user.fwdq.map (FwdWord.learn n v) } })

/-- Writes a result that was outstanding into register `n` of a context. -/
def deliver (c : Nat) (sup : Bool) (n : Nat) (v : Word) (s : State) : State :=
  let x := ctxOf s c sup
  let s := setCtxOf s c sup { setReg x n { val := v } with pend := tdel x.pend n }
  match x.role with | .leader fs => learnAll n v fs s | _ => s

/-! ## Saved contexts -/

/-- Where a saved context stands among the cores while something is done for it: beyond every core, by the address of its area. -/
def savedCore (a : Nat) : Nat := 8418 + a

/-- Something is done for the context saved at an area. -/
def onSaved (a : Nat) (f : State → State) (s : State) : State :=
  match tfind s.areas a with
  | none => s
  | some (c, x) =>
    let s := f (setCtxOf s (savedCore a) false x)
    { s with areas := tset s.areas a (c, ctxOf s (savedCore a) false), cores := tdel s.cores (savedCore a) }

/-- Something is done for the user context of a core, or for a saved context by its place. -/
def onHome (home : Nat) (f : State → State) (s : State) : State := if home < 8418 then f s else onSaved (home - 8418) f s

/-! ## Module memory (R216 to R220) -/

/-- Whether an address is in module LPDDR. -/
def isLpddr (pa : Nat) : Bool := pa < 0x018000000000

/-- The decoded capacity of a CXL port, rounded up to 1 GiB (R381). -/
def cxlSize (s : State) (port : Nat) : Nat := ceilDiv (tget s.mgmt.cxlCap port 0) 0x40000000 * 0x40000000

/-- The CXL port that holds an address, if one decodes it (R216, R381). -/
def cxlPort (s : State) (pa : Nat) : Option Nat :=
  if pa < 0x100000000000 ∨ 0x180000000000 ≤ pa then none
  else if pa < 0x100000000000 + cxlSize s 0 then some 0
  else if pa < 0x100000000000 + cxlSize s 0 + cxlSize s 1 then some 1 else none

/-- Whether an address is within the ranges of R216. -/
def physOk (s : State) (pa : Nat) : Bool := isLpddr pa || (cxlPort s pa).isSome

/-- Whether the whole extent is within the ranges of R216. -/
def physExtent (s : State) (pa n : Nat) : Bool := n == 0 || (physOk s pa && physOk s (pa + n - 1))

/-- The home die of an address (R216). -/
def homeDie (s : State) (pa : Nat) : Nat :=
  if isLpddr pa then pa / 0x006000000000 else if cxlPort s pa = some 1 then 3 else 0

/-- Whether an address lies behind a CXL link that is down (R381). -/
def cxlDead (s : State) (pa : Nat) : Bool :=
  match cxlPort s pa with | some p => s.mgmt.cxlDown.contains p | none => false

/-- Reads bytes at their home: behind a link that is down they read as zero (R381). -/
def homeBytes (s : State) (pa n : Nat) : List Byte := if cxlDead s pa then List.replicate n 0 else memBytes s.mem pa n

/-- Reads a value at its home. -/
def homeRead (s : State) (pa n : Nat) : Nat := ofBytes (homeBytes s pa n)

/-- The tag of the unit at an address (R218): CXL memory holds none. -/
def homeTag (s : State) (pa : Nat) : Bool := isLpddr pa && s.tags.contains (pa / 16)

/-- Clears the tags of the units that an extent touches. -/
def clearTags (t : List Nat) (pa n : Nat) : List Nat := t.filter fun u => !(pa / 16 ≤ u && u * 16 < pa + n)

/-- Writes bytes at their home, clearing the tags of the units touched (R218). -/
def homeWrite (s : State) (pa : Nat) (b : List Byte) : State :=
  if cxlDead s pa ∨ b.isEmpty then s else { s with mem := memPut s.mem pa b, tags := clearTags s.tags pa b.length }

/-- Writes an `n`-byte value at its home. -/
def homeWriteNat (s : State) (pa n v : Nat) : State := homeWrite s pa (toBytes n v)

/-- Sets the tag of a 16-byte unit of module LPDDR. -/
def setTag (s : State) (pa : Nat) (t : Bool) : State :=
  if isLpddr pa then { s with tags := if t then sortedAdd s.tags (pa / 16) else sortedDel s.tags (pa / 16) } else s

/-- Writes a 16-byte unit with its tag (R218). -/
def homeWriteTagged (s : State) (pa : Nat) (v : Word) (t : Bool) : State :=
  let s' := homeWrite s pa (toBytes 16 v.toNat)
  if t then setTag s' pa true else s'

/-- An atomic add of 64 bits at the home. -/
def homeAdd64 (s : State) (pa n : Nat) : State :=
  if n = 0 then s else homeWriteNat s pa 8 ((homeRead s pa 8 + n) % 2 ^ 64)

/-! ## Fault logs (R341, R342, R395) -/

/-- A fault record (R341). -/
def record (cause : Nat) (imp : Bool) (inst node launch cor pc cycle : Nat) (val : Word) : Nat :=
  cause % 256 + fld (b2n imp) 8 + fld (inst % 2 ^ 32) 96 + fld (launch % 65536) 128 + fld (node % 4096) 144 + fld (cor % 4096) 156 +
    fld (pc % 65536) 168 + fld (cycle % 2 ^ 64) 192 + fld val.toNat 256

/-- Writes a record into a log, or counts it as dropped: slot 1 + (WR mod (S - 1)) when WR - RD < S - 1. -/
def logRecord (base pages rec_ : Nat) (s : State) : State :=
  if pages = 0 then s else
  let slots := pages * 64
  let wr := homeRead s base 8
  let rd := homeRead s (base + 8) 8
  if (wr + 2 ^ 64 - rd) % 2 ^ 64 < slots - 1 then
    let s := homeWriteNat s (base + 64 * (1 + wr % (slots - 1))) 64 rec_
    homeWriteNat s base 8 ((wr + 1) % 2 ^ 64)
  else homeWriteNat s (base + 16) 4 (Nat.min (2 ^ 32 - 1) (homeRead s (base + 16) 4 + 1))

/-- Writes a record into the management log and raises LOGNEW (R378). -/
def mgmtLog (rec_ : Nat) (s : State) : State :=
  let s := logRecord s.mgmt.mlogBase s.mgmt.mlogPages rec_ s
  { s with mgmt := { s.mgmt with logNew := true } }

/-- An uncorrectable loss is counted (R121, R215, R220), by the unit of R354. -/
def countLoss (unit : Nat) (s : State) : State :=
  { s with mgmt := { s.mgmt with losses := tset s.mgmt.losses unit (tget s.mgmt.losses unit 0 + 1) } }

/-- VAL of a data-loss record (R354): the unit lost, and its address or index. -/
def lossVal (unit ix : Nat) : Word := BitVec.ofNat 128 (unit + fld (ix % 2 ^ 60) 4)

/-- Whether an access of `n` bytes at the home fails for a CXL link that is down (R381). -/
def lostAt (s : State) (pa n : Nat) : Bool := n != 0 && cxlDead s pa

/-- The loss that an access of no region finds at the home, if it does (R220): counted, and in the management log. -/
def lostToMgmt (pa n : Nat) (s : State) : State :=
  if lostAt s pa n then countLoss 4 (mgmtLog (record 0x60 false 0 0 0 0 0xFFFF (elapsedOn s (homeDie s pa)) (lossVal 4 pa)) s) else s

/-- Writes a record into the fault domain of a snapshot, whose handler is then to be started (R341, R342). The dies share the domains,
which the first holds. -/
def domainLog (d : Nat) (snap : Snapshot) (rec_ : Nat) (s : State) : State :=
  let s := logRecord snap.flog snap.flogn rec_ (lostToMgmt snap.flog (64 * snap.flogn) s)
  let x := die s 0
  let m : Domain := tget x.domains snap.flog { snap := snap }
  let s := setDie s 0 { x with domains := tset x.domains snap.flog { m with snap := snap } }
  if m.running ∨ s.flight.contains (.faultHandlerStart d snap.flog) then s else send (.faultHandlerStart d snap.flog) s

/-- The record of a context: its instance, or zeros (R341). -/
def ctxRecord (s : State) (c : Nat) (x : Ctx) (cause : Nat) (imp : Bool) (pc : Nat) (val : Word) : Nat :=
  match x.inst with
  | some i => record cause imp i.n i.node i.launch (coreName c) pc (elapsedOn s (dieOf c)) val
  | none => record cause imp 0 0 0 (coreName c) pc (elapsedOn s (dieOf c)) val

/-- A record of a context goes to its domain; a handler's own records and those of a context with no region go to the management
log (R341). -/
def logFor (c : Nat) (x : Ctx) (cause : Nat) (imp : Bool) (pc : Nat) (val : Word) (s : State) : State :=
  let r := ctxRecord s c x cause imp pc val
  match x.region, x.handler with
  | some g, none => domainLog (dieOf c) g r s
  | _, _ => mgmtLog r s

/-- The loss that an access of Saffron's for a region finds at the home, if it does (R220). -/
def lostToRegion (d : Nat) (g : Snapshot) (pa n : Nat) (s : State) : State :=
  if lostAt s pa n then countLoss 4 (domainLog d g (record 0x60 false 0 0 0 0 0xFFFF (elapsedOn s d) (lossVal 4 pa)) s) else s

/-- The loss that an access made for a context finds at the home, if it does (R220). -/
def lostToCtx (c : Nat) (x : Ctx) (pa n : Nat) (s : State) : State :=
  if lostAt s pa n then countLoss 4 (logFor c x 0x60 false 0xFFFF (lossVal 4 pa) s) else s

/-- A data-loss record (R354): the unit lost and its address or index; to the domain of the context concerned, the supervisor's where `sup`,
or to the management log. -/
def lossRecord (c : Nat) (sup : Bool) (unit ix : Nat) (s : State) : State :=
  let s := countLoss unit s
  let val := lossVal unit ix
  if sup || (core s c).uload then logFor c (ctxOf s c sup) 0x60 false 0xFFFF val s
  else mgmtLog (record 0x60 false 0 0 0 (coreName c) 0xFFFF (elapsedOn s (dieOf c)) val) s

/-! ## Region control blocks read afresh (R64 to R68) -/

/-- The chain of blocks from a region to its root, at most `fuel` of them: addresses and contents (2,048 bits). -/
def rcbChain (s : State) : Nat → Nat → List (Nat × Nat)
  | 0, _ => []
  | fuel + 1, pa =>
    let v := homeRead s pa 256
    (pa, v) :: (if bits v 113 64 = 0 then [] else rcbChain s fuel (bits v 113 64))

/-- The nearest block of a chain that sets bit `b` of OVR (R65). -/
def ovrBlock (l : List (Nat × Nat)) (b : Nat) : Option (Nat × Nat) := l.find? fun p => bitAt (bits p.2 63 48) b

/-- An effective field (R65): the block that sets the OVR bit gives it; zero where none does. -/
def effField (l : List (Nat × Nat)) (b hi lo : Nat) : Nat :=
  match ovrBlock l b with | some p => bits p.2 hi lo | none => 0

/-- The snapshot that a chain resolves to (R67). -/
def resolveSnap (l : List (Nat × Nat)) : Snapshot :=
  { rcb := match l with | p :: _ => p.1 | [] => 0
    prio := effField l 3 120 118, fhimg := effField l 4 271 256, fhent := effField l 4 287 272, flog := effField l 4 337 288,
    flogn := effField l 4 367 352, acct := effField l 5 433 384, tenant := effField l 6 239 224, tmask := effField l 6 255 240,
    vf := effField l 7 127 122, pfn := effField l 7 121 121, witbase := effField l 8 499 448, witn := effField l 8 528 512 }

/-- Adds committed cycles to CYCUSED of a block, with the budget record where it now reaches the block's own CYCBUD (R66, R395); the record
that a fault handler's commit causes goes to the management log (R341). -/
def addCycles (c : Nat) (x : Ctx) (n : Nat) (l : List (Nat × Nat)) (s : State) : State :=
  match l with
  | [] => s
  | (pa, v) :: up =>
    let old := homeRead s (pa + 68) 6
    let s := lostToCtx c x pa 256 (homeWriteNat s (pa + 68) 6 ((old + n) % 2 ^ 48))
    let bud := bits v 175 128
    let s :=
      if bitAt (bits v 63 48) 0 && bud != 2 ^ 48 - 1 && decide (old < bud) && decide (bud ≤ old + n) then
        let snap := resolveSnap ((pa, v) :: up)
        let r := ctxRecord s c x 0x6B false 0xFFFF (BitVec.ofNat 128 pa)
        if x.handler.isSome then mgmtLog r s else domainLog (dieOf c) snap r s
      else s
    addCycles c x n up s

/-- Adds a context's counters into the store at `acct`. -/
def addAccounts (acct : Nat) : List (Nat × Nat) → State → State
  | [], s => s
  | (key, n) :: t, s => addAccounts acct t (homeAdd64 s (acct + 256 * (key / 32) + 8 * (key % 32)) n)

/-- Sums of two tables of counters. -/
def acctMerge (t : AList Nat) : List (Nat × Nat) → AList Nat
  | [] => t
  | (k, n) :: r => acctMerge (if n = 0 then t else tset t k (tget t k 0 + n)) r

/-- The committed cycles of the sequencer slot, less those of cause 0 (R155). -/
def budgetCycles : List (Nat × Nat) → Nat
  | [] => 0
  | (key, n) :: t => (if key / 32 = 0 ∧ key % 32 ≠ 0 then n else 0) + budgetCycles t

/-- One accounting commit (R155): the counters of a context go to its store and to CYCUSED, or to the supervisor account, and are
cleared. `row3`: the count of row 3 that is raised (0 retired, 1 re-run, 2 killed), if any. -/
def commitAccounts (c : Nat) (sup : Bool) (row3 : Option Nat) (s : State) : State :=
  let s := settle c s
  let k := core s c
  let x := if sup then k.sup else k.user
  match x.region with
  | none => setCore s c ({ k with supAcct := acctMerge k.supAcct x.acct }.put sup { x with acct := [] })
  | some r =>
    let s := setCtxOf s c sup { x with acct := [] }
    let s := if r.acct = 0 then s else
      let s := lostToCtx c x r.acct 1024 (addAccounts r.acct x.acct s)
      match row3 with | some i => homeAdd64 s (r.acct + 768 + 8 * i) 1 | none => s
    addCycles c x (budgetCycles x.acct) (rcbChain s 4 r.rcb) s

/-- A user context is about to be resident on a core whose supervisor was: the supervisor's counters commit, as no others are kept (R152,
R155). -/
def commitSup (c : Nat) (s : State) : State := if residentOf (core s c) = some true then commitAccounts c true none s else settle c s

/-! ## Taking an exception (R331, R333, R335, R336) and killing (R340, R356) -/

/-- The class of a cause (R332). -/
def causeClass (cause : Nat) : Nat :=
  if cause < 0x10 then 0 else if cause < 0x20 then 1 else if cause < 0x40 then 2 else if cause < 0x50 then 3
  else if cause < 0x60 then 4 else if cause < 0x80 then 5 else 6

/-- A trap aborts an open control transaction with ABCAUSE `why`, unless it is aborted already (R353). -/
def Ctx.abortTx (x : Ctx) (why : Nat) : Ctx :=
  match x.tx with
  | some t => if t.abort = 0 then { x with tx := some { t with abort := why } } else x
  | none => x

/-- A follower that traps detaches, with no repetition in progress (R127); one that was joining leaves its JOIN to issue again. -/
def Ctx.detach (x : Ctx) : Ctx :=
  match x.role with
  | .attached l => { x with role := .detached l, fwdq := [], reps := [] }
  | .joining l _ => { x with role := .detached l }
  | _ => x

/-- The bodies of active repetitions are to be captured afresh (R183). -/
def Ctx.recapture (x : Ctx) : Ctx := { x with reps := x.reps.map fun r => { r with body := [] } }

/-- The kill of a user context is decided (R356): the core refuses hand-overs and messages, and the kill is under way (R340). -/
def beginKill (c cause : Nat) (imp : Bool) (pc : Nat) (val : Word) (s : State) : State :=
  let k := core s c
  if !k.uload ∨ k.killing then s
  else send (.contextKill c (BitVec.ofNat 8 cause) (BitVec.ofNat 16 pc) val) (setCore s c { k with killing := true, killImp := imp })

/-- A core becomes idle: the cycles without residency count from now (R119). -/
def markIdle (c : Nat) (s : State) : State :=
  let k := core s c
  if k.uload || k.supOn then s else setCore s c { k with idleSince := s.elapsed }

/-- A trap of the user context (R333): the context is killed when traps are off; otherwise the trap is recorded, the user context
held, and the supervisor starts at the vector of the cause's class (R331). -/
def userTrap (c cause : Nat) (imp : Bool) (val : Word) (s : State) : State :=
  let s := settle c s
  let k := core s c
  let x := (k.user.abortTx 3).detach
  let pc := if imp || x.hint == Hint.none then x.pc else x.hintPc
  let x := { x with pc := pc, hint := .none, waiting := none }
  if k.tvec % 2 = 0 then beginKill c cause imp pc val (setCore s c { k with user := x, fwd := none, fwdh := [], walkFail := none })
  else
    setCore s c { k with
      user := x, fwd := none, fwdh := [], walkFail := none, tcause := cause + fld (b2n imp) 8, tpc := pc, tval := val, pendT := true, supOn := true
      sup := { k.sup with pc := (k.tvec / 512 * 512 + 64 * causeClass cause) % 65536, hint := .none, waiting := none } }

/-- A double trap (R336): the supervisor becomes idle, a loaded user context is killed with cause 0x6C, the record goes to the
management log as well, and the core accepts only a CORESTART. -/
def doubleTrap (c cause pc : Nat) (s : State) : State :=
  let k := core s c
  let val := BitVec.ofNat 128 (cause + (if k.spend then fld (k.stcause % 256) 8 + fld 1 16 else 0))
  let s := settle c (mgmtLog (ctxRecord s c (if k.uload then k.user else k.sup) 0x6C false pc val) s)
  let k := core s c
  let s := setCore s c { k with supOn := false, dead := true, repShadow := none,
                                sup := { k.sup with hint := .none, waiting := none, reps := [] } }
  beginKill c 0x6C false pc val (markIdle c s)

/-- A trap raised by the supervisor context itself (R336). -/
def supTrap (c cause : Nat) (imp : Bool) (val : Word) (s : State) : State :=
  let k := core s c
  let x := k.sup.abortTx 3
  let pc := if imp || x.hint == Hint.none then x.pc else x.hintPc
  if k.spend ∨ k.tvec % 2 = 0 then doubleTrap c cause pc s
  else
    setCore s c { k with
      stcause := cause + fld (b2n imp) 8, stpc := pc, stval := val, spend := true, repShadow := some x.reps
      sup := { x with pc := (k.tvec / 512 * 512 + 0x1C0) % 65536, hint := .none, waiting := none, reps := [] } }

/-- Taking an exception: of the supervisor context where it runs, else of the user context. -/
def takeTrap (c cause : Nat) (imp : Bool) (val : Word) (s : State) : State :=
  if (core s c).supOn then supTrap c cause imp val s else userTrap c cause imp val s

/-- A precise trap of the word in issue, which has had no effect (R332): its cycle is charged, and the trap is taken. -/
def trapVal (cause : Nat) (val : Word) (s : State) : State := takeTrap s.cur cause false val (spend 8 s)

/-- A precise trap of class 0: %tval is the trapping word (R333). -/
def trapWord (cause : Nat) (s : State) : State := trapVal cause (BitVec.ofNat 128 (cx s).word.toNat) s

/-- A precise trap whose %tval is a number: an address. -/
def trapAt (cause addr : Nat) (s : State) : State := trapVal cause (BitVec.ofNat 128 addr) s

/-- A precise trap of a local access: %tval is the address, or the trapping word for the class 0 cause of a staged slot (R333, R350). -/
def trapLocal (cause va : Nat) (s : State) : State := if causeClass cause = 0 then trapWord cause s else trapAt cause va s

/-- A precise engine-class trap: %tval is the address of the command (R333). -/
def trapCmd (cause : Nat) (s : State) : State := trapAt cause (cx s).pc s

/-- Return from a user trap (R338): the user context issues from %tpc, as after an IFENCE (R123), from bodies captured afresh (R183), and
the supervisor becomes idle. -/
def returnUser (c : Nat) (s : State) : State :=
  let s := settle c s
  let k := core s c
  setCore s c { k with pendT := false, supOn := false, user := { k.user.recapture with pc := k.tpc, stale := [] } }

/-- Return from a supervisor trap (R338). -/
def returnSup (c : Nat) (s : State) : State :=
  let k := core s c
  setCore s c { k with spend := false, repShadow := none, smapOld := none,
                       sup := { k.sup with pc := k.stpc, stale := [], reps := (k.repShadow.getD []).map fun r => { r with body := [] } } }

/-- An imprecise cause of the context waits for its boundary; one that waits already is not queued again (R335). -/
def raiseImprecise (c : Nat) (sup : Bool) (cause : Nat) (val : Word) (s : State) : State :=
  let x := ctxOf s c sup
  if x.imprecise.any (fun p => p.1 == cause) then s
  else setCtxOf s c sup { x with imprecise := x.imprecise ++ [(cause, val)] }

/-- A status word (R195): the code, and the bank concerned in bits 16:8. -/
def statusWord (code bank : Nat) : Nat := code + fld (bank % 512) 8

/-- Completes the word in issue with a status and a bank in K[d]. -/
def doneStatus (d : BitVec 6) (code bank : Nat) (s : State) : State := finish (putNat d (statusWord code bank) s)

end Sys2Proof.Machine
end

