-- ==== Sys2Proof/Machine/Fetch.lean ====
section
/-! DEFINITION. Fetching a word (R121 to R124), the decode tables (R138 to R140), staggering under repetition (R181), the registers a
word names, and the checks at an instruction boundary (R335, R364). -/

namespace Sys2Proof.Machine

/-! ## The instruction store -/

/-- The place of a core's instruction store in `istore`. -/
def istoreAt (c a : Nat) : Nat := c * 65536 + a % 65536

/-- The word of a core's store at an address. -/
def storeWord (s : State) (c a : Nat) : BitVec 32 := BitVec.ofNat 32 (memRead s.istore (istoreAt c a) 4)

/-- A write to a word of a store (R122): each context that has not fenced since may still fetch the old value (R123). -/
def writeStore (c a : Nat) (w : BitVec 32) (s : State) : State :=
  let old := storeWord s c a
  let k := core s c
  let mark (x : Ctx) : Ctx := { x with stale := tset x.stale (a % 65536) (tget x.stale (a % 65536) [] ++ [old]) }
  setCore { s with istore := memWrite s.istore (istoreAt c a) 4 w.toNat } c { k with user := mark k.user, sup := mark k.sup }

/-- The word a context fetches from the store: a word written since its last fetch fence may read as any value that it has had since then
(R123), a free choice (entry 4). -/
def fetchStore (s : State) (c : Nat) (x : Ctx) (a : Nat) : BitVec 32 :=
  match tget x.stale (a % 65536) [] with
  | [] => storeWord s c a
  | v :: l => ((storeWord s c a :: v :: l)[Config.fetchWhich s.tick % (l.length + 2)]?).getD (storeWord s c a)

/-- The word of an address that an active repetition has captured (R124). -/
def capturedWord (a : Nat) : List Rep → Option (BitVec 32)
  | [] => none
  | r :: rs =>
    match (tfind r.body a : Option (BitVec 32)) with
    | some w => some w
    | none => capturedWord a rs

/-- Captures a word into every active repetition that has not captured it: on the first pass, or since the repetition resumed (R183). -/
def captureWord (a : Nat) (w : BitVec 32) (l : List Rep) : List Rep :=
  l.map fun r => if (tfind r.body a : Option (BitVec 32)).isSome then r else { r with body := tset r.body a w }

/-! ## The registers a word names -/

/-- The places of the general-register fields of a word (R130, R131): formats A, I, L, B and S. -/
def regFields (o w : Nat) : List Nat :=
  let abc := [16, 10, 4]
  let ab := [16, 10]
  match o / 16 with
  | 0 => if o = 3 ∨ o = 4 ∨ o = 5 ∨ o = 6 then [16] else if o = 7 then [10] else if o = 0xA ∨ o = 0xB then ab else []
  | 1 => abc
  | 2 => if o = 0x21 ∨ o = 0x22 ∨ o = 0x23 ∨ o = 0x2B ∨ o = 0x2C then ab else abc
  | 3 => ab
  | 4 => if o < 0x43 then abc else ab
  | 5 => if o < 0x56 ∨ o = 0x5A then ab else if o = 0x5B then [16] else []
  | 6 => if o = 0x69 ∨ o = 0x6A then ab else abc
  | 7 => if o < 0x7E then ab else abc
  | 8 => if o < 0x8E then ab else abc
  | 9 => abc
  | 0xA => if o = 0xA1 ∨ o = 0xA3 ∨ o = 0xAE then ab else if o = 0xA5 then [16] else if o < 0xA7 ∨ o = 0xAD then abc else []
  | 0xC => if o = 0xCC then [16] else []
  | 0xD => if o = 0xD8 ∨ o = 0xD9 ∨ o = 0xDB then abc else if o = 0xDA then ab else if o = 0xDC then [10] else []
  | 0xE => if o = 0xE7 ∨ o = 0xE9 then ab else abc
  | 0xF => if o = 0xFA then ab else if o = 0xFB then [16] else []
  | 0x10 =>
    if o = 0x100 ∨ o = 0x10B then ab
    else if o = 0x104 then (if w % 16 = 8 then [4] else abc)
    else if o = 0x105 then (if w % 16 = 0 then abc else if w % 16 = 1 then ab else [16])
    else if o = 0x10A then [10] else if o = 0x10E then [16]
    else if o = 0x101 ∨ o = 0x108 ∨ o = 0x10C ∨ o = 0x10D ∨ o = 0x10F then [] else abc
  | 0x11 => abc
  | 0x14 => [10, 4]
  | 0x15 => [10, 4]
  | _ => []

/-- The general registers that an E-format word, a companion field (R59, R264) or JAL (R178) names. -/
def fixedRegs (o w : Nat) : List Nat :=
  let x := 48 + bits w 17 15
  let y := 48 + bits w 14 12
  let z := 48 + bits w 11 9
  if o = 0x59 then [63]
  else if 0xA8 ≤ o ∧ o ≤ 0xAC then [x, y, z]
  else if o = 0xC2 then (if bitAt w 0 then [z] else [])
  else if o = 0xC3 then [x]
  else if o = 0xC6 then [y]
  else if o = 0xCD then (if bitAt w 0 then [] else [y, z])
  else if 0xD0 ≤ o ∧ o ≤ 0xD7 then (if bitAt w 0 then [z] else [])
  else if o = 0xE6 then (if bitAt w 3 then [48 + 2 * bits w 1 0, 49 + 2 * bits w 1 0] else [])
  else if o = 0xE9 then [48 + 2 * bits w 3 2]
  else if o = 0xF2 then [y, z]
  else if o = 0xF4 then (if bitAt w 0 then [y, y + 1, z] else [y, z])
  else if o = 0xF5 ∨ o = 0xF6 then [y]
  else if o = 0xF7 then [x, y, z, z + 1]
  else if o = 0xF9 then (if w % 4 = 1 then [z] else [])
  else []

/-- Every general register that a word names. -/
def wordRegs (w : Nat) : List Nat :=
  (regFields (w / 2 ^ 22) w).map (fun p => bits w (p + 5) p) ++ fixedRegs (w / 2 ^ 22) w

/-! ## Staggering (R181) -/

/-- Raises one register field by `k`, modulo 64: a field of 0 keeps naming k0. -/
def staggerField (k w p : Nat) : Nat :=
  let v := bits w (p + 5) p
  if v = 0 then w else setBits w (p + 5) p ((v + k) % 64)

/-- Raises the register fields of a word by the passes of every active repetition (R181). -/
def stagger (x : Ctx) (w : Nat) : Nat :=
  let k := (x.reps.map fun r => r.pass * r.stride).sum
  if k = 0 then w else (regFields (w / 2 ^ 22) w).foldl (staggerField k) w

/-! ## Decode tables (R138 to R140) -/

/-- An entry of map 0 (R138). -/
def map0Entry (nolorn : Bool) (o : Nat) : Nat := (if assigned nolorn o then 0x8000 else 0) + o

/-- An entry of a decode table (R138): what a table does not list equals map 0. -/
def tableEntry (nolorn : Bool) (t : AList (BitVec 16)) (o : Nat) : Nat := (tget t o (BitVec.ofNat 16 (map0Entry nolorn o))).toNat

/-- The map and the table a context decodes by: a supervisor that has not fenced since it wrote its own may use the old ones (R140). -/
def decodeMap (s : State) (k : Core) : Bool × AList (BitVec 16) :=
  if k.supOn then
    match k.smapOld with
    | some m => if Config.fetchOld s.tick then m else (k.smap, k.sup.dtab)
    | none => (k.smap, k.sup.dtab)
  else (k.umap, k.user.dtab)

/-- The word in map 0's numbering (R138): none where the entry does not decode. -/
def mapped (nolorn : Bool) (m : Bool × AList (BitVec 16)) (w : Nat) : Option Nat :=
  let o := w / 2 ^ 22
  if o = 0 ∨ o = 0x3FF then none
  else if !m.1 then some w
  else
    let e := tableEntry nolorn m.2 o
    if bitAt e 15 then some ((e % 1024) * 2 ^ 22 + w % 2 ^ 22) else none

/-! ## The boundary -/

/-- The forwarded word that is in issue on a core: the user context's alone (R126). -/
def Core.forwardedWord (k : Core) : Option FwdWord := if k.supOn then none else k.fwd

/-- The next word of the context in issue: forwarded, captured, or from the store. -/
def nextWord (s : State) (x : Ctx) : BitVec 32 :=
  match (curCore s).forwardedWord with
  | some f => f.word
  | none => (capturedWord x.pc x.reps).getD (fetchStore s s.cur x x.pc)

/-- The word that the context in issue will find at an address of its instruction: none while it has not been forwarded yet. -/
def wordAt (s : State) (x : Ctx) (a : Nat) : Option (BitVec 32) :=
  match (curCore s).forwardedWord with
  | some f => ((f :: x.fwdq).find? fun g => g.pc == a).map (·.word)
  | none => some ((capturedWord a x.reps).getD (fetchStore s s.cur x a))

/-- Whether an instruction breakpoint of a context stands at an address, with its action and index (R364). -/
def ibpAt (d : Debug) (a : Nat) : Nat → Option (Nat × Nat)
  | 0 => none
  | n + 1 =>
    match ibpAt d a n with
    | some r => some r
    | none =>
      let v := tget d.ibp n 0
      if bits v 17 16 != 0 && bits v 15 0 == a then some (bits v 17 16, n) else none

/-- What looking for a breakpoint at the next instruction comes to. -/
inductive IbpRes where
  | clear
  | hit (act idx addr : Nat)
  | later

/-- The breakpoint that the next instruction meets: of its word, or of any word of a hint sequence that starts here (R137, R364), as the
context decodes them (R138). A follower learns the rest of a sequence as it is forwarded. -/
def ibpHere (s : State) (x : Ctx) : Nat → Nat → IbpRes
  | 0, _ => .clear
  | n + 1, a =>
    match ibpAt x.dbg a 4 with
    | some (act, i) => .hit act i a
    | none =>
      match wordAt s x a with
      | none => .later
      | some w =>
        let o := ((mapped (s.cur == nolornCore) (decodeMap s (curCore s)) w.toNat).getD 0) / 2 ^ 22
        if o = 1 ∨ o = 2 then ibpHere s x n ((a + 4) % 65536) else .clear

/-- The debug port is open (R386, R387): lifecycle 0 or 1, or unlocked. -/
def portOpen (s : State) : Bool := s.nolorn.fuse < 2 || (s.nolorn.unlk && s.nolorn.fuse != 7)

/-- The words of the instruction that a follower has begun go back to its queue, and the hint words that a leader has not forwarded are
dropped: the instruction issues again from its first word (R137). -/
def Core.unissue (k : Core) : Core :=
  match k.user.role with
  | .attached _ =>
    if k.fwd.isSome ∨ k.user.hint ≠ Hint.none then { k with fwd := none, fwdh := [], user := { k.user with fwdq := k.fwdh ++ k.user.fwdq } }
    else { k with fwdh := [] }
  | _ => { k with fwdh := [] }

/-- Whether a wait goes on through a halt (R362): its time-out stands still, and what is left of it is left at the release. -/
def Waiting.lasts : Waiting → Bool
  | .recv _ _ _ _ => true
  | .probe _ _ _ _ _ _ => true
  | _ => false

/-- The user context halts before its next instruction (R362, R363). -/
def haltUser (c reason idx : Nat) (s : State) : State :=
  let s := settle c s
  let k := (core s c).unissue
  let x := k.user
  let pc := if x.hint == Hint.none then x.pc else x.hintPc
  setCore s c { k with walkFail := none
                       user := { x with pc := pc, hint := .none, waiting := x.waiting.filter Waiting.lasts,
                                        dbg := { x.dbg with halted := true, reason := reason, idx := idx, step := false } } }

end Sys2Proof.Machine
end

