-- ==== Sys2Proof/Machine/Control.lean ====
section
/-! DEFINITION. Branches, state conditions, jumps, repetition, EXIT, guards, IFENCE, JOIN and the label stack (R123, R128, R176 to R186,
R315, R365, R368). -/

namespace Sys2Proof.Machine

/-! ## Compare branches (R176) -/

/-- A branch: taken to PC + 4 x off, or on to the next word (R176). -/
def branch (taken : Bool) (off : BitVec 10) (s : State) : State :=
  if taken then jump (wrap 16 ((cx s).pc + 4 * signed 10 off.toNat)) s else finish s

/-- BEQ (R176). -/
def execBeq (a b : BitVec 6) (o : BitVec 10) (s : State) : Out := .next (branch (rv s a == rv s b) o s)

/-- BNE (R176). -/
def execBne (a b : BitVec 6) (o : BitVec 10) (s : State) : Out := .next (branch (rv s a != rv s b) o s)

/-- BLT (R176): signed. -/
def execBlt (a b : BitVec 6) (o : BitVec 10) (s : State) : Out := .next (branch (BitVec.slt (rv s a) (rv s b)) o s)

/-- BGE (R176): signed. -/
def execBge (a b : BitVec 6) (o : BitVec 10) (s : State) : Out := .next (branch (!BitVec.slt (rv s a) (rv s b)) o s)

/-- BLTU (R176): unsigned. -/
def execBltu (a b : BitVec 6) (o : BitVec 10) (s : State) : Out := .next (branch (BitVec.ult (rv s a) (rv s b)) o s)

/-- BGEU (R176): unsigned. -/
def execBgeu (a b : BitVec 6) (o : BitVec 10) (s : State) : Out := .next (branch (!BitVec.ult (rv s a) (rv s b)) o s)

/-! ## Banks and ports as the conditions test them -/

/-- A bank of the pool, by its number in the package. -/
def bankAt (s : State) (gb : Nat) : Bank := tget s.banks gb {}

/-- Replaces a bank. -/
def setBank (s : State) (gb : Nat) (b : Bank) : State := { s with banks := tset s.banks gb b }

/-- The number in the package of bank `id` of a core's cluster (R2). -/
def bankOf (c id : Nat) : Nat := c / 64 * 512 + id

/-- An entry of an attach table (R192). -/
def entry (x : Ctx) (slot : Nat) : Entry := tget x.attach slot {}

/-- The ring of the bank at a slot of class ring (R177, R206). -/
def slotRing (s : State) (c : Nat) (x : Ctx) (slot : Nat) : Option Ring :=
  let e := entry x slot
  if e.valid && e.cls == 2 then (bankAt s (bankOf c e.bank)).ring else none

/-- The neighbour of a core through a port (R309): 0 pn, 1 pe, 2 ps, 3 pw; none outside the clusters. -/
def neighbour (c port : Nat) : Option Nat :=
  if 4096 ≤ c then none else
  let g := c / 16 % 4
  let q := c / 4 % 4
  let k := c % 4
  let x := 4 * (g % 2) + 2 * (q % 2) + k % 2
  let y := 4 * (g / 2) + 2 * (q / 2) + k / 2
  let x' := (match port with | 1 => x + 1 | 3 => x + 7 | _ => x) % 8
  let y' := (match port with | 0 => y + 7 | 2 => y + 1 | _ => y) % 8
  some (c / 64 * 64 + 16 * (x' / 4 + 2 * (y' / 4)) + 4 * (x' / 2 % 2 + 2 * (y' / 2 % 2)) + (x' % 2 + 2 * (y' % 2)))

/-- The words on their way to a port queue (R309). -/
def portFlight (s : State) (c port : Nat) : Nat :=
  (s.flight.filter fun e => match e with | .portWordArrival c' p' _ => c' == c && p' == port | _ => false).length

/-- Whether a port of a core accepts a write (R177, R309): the neighbour has a resident context and room in the queue that faces it. -/
def portAccepts (s : State) (c port : Nat) : Bool :=
  match neighbour c port with
  | none => false
  | some n =>
    match residentOf (core s n) with
    | none => false
    | some sup => (tget (ctxOf s n sup).ports ((port + 2) % 4) []).length + portFlight s n ((port + 2) % 4) < 4

/-- The state condition of BC and BNC (R177), as the state stands at the start of the issue cycle. -/
def condition (c sel : Nat) (s : State) : Bool :=
  let x := cx s
  match c with
  | 0 => !x.inbox.isEmpty
  | 1 => !(tget x.ports sel []).isEmpty
  | 2 => portAccepts s s.cur sel
  | 3 => match slotRing s s.cur x sel with | some r => 0 < r.filled | none => false
  | 4 => match slotRing s s.cur x sel with | some r => 0 < r.free | none => false
  | 5 => (entry x sel).valid && (entry x sel).st == 0
  | 6 => tget x.guards sel .free == .isTrue
  | _ => tget x.guards sel .free == .isTrue || tget x.guards sel .free == .isFalse

/-- BC (R177). -/
def execBc (c e : BitVec 6) (o : BitVec 10) (s : State) : Out := .next (branch (condition c.toNat e.toNat s) o s)

/-- BNC (R177). -/
def execBnc (c e : BitVec 6) (o : BitVec 10) (s : State) : Out := .next (branch (!condition c.toNat e.toNat s) o s)

/-! ## Jumps (R178) -/

/-- J (R178). -/
def execJ (o : BitVec 22) (s : State) : Out := .next (jump (wrap 16 ((cx s).pc + 4 * signed 22 o.toNat)) s)

/-- JAL (R178): the link goes to k63. -/
def execJal (o : BitVec 22) (s : State) : Out :=
  let pc := (cx s).pc
  .next (jump (wrap 16 (pc + 4 * signed 22 o.toNat)) (putNat 63 ((pc + 4) % 65536) s))

/-- JR (R178): a misaligned target traps; the link is written after K[a] is read. -/
def execJr (d a : BitVec 6) (s : State) : Out :=
  let target := rn s a % 65536
  if target % 4 ≠ 0 then .next (trapWord 0x06 s)
  else .next (jump target (putNat d (((cx s).pc + 4) % 65536) s))

/-! ## Repetition (R180 to R182) -/

/-- Control transfers and hint words, which may not end a body (R182, R137). -/
def endsBody (o : Nat) : Bool :=
  (0x50 ≤ o && o ≤ 0x5A) || o == 0x07 || o == 0x08 || o == 0x5D || o == 0x10A || o == 0x01 || o == 0x02

/-- The opcode of the word at an address of the body, in map 0's numbering. -/
def bodyOpcode (s : State) (a : Nat) : Nat :=
  let x := cx s
  let w := (capturedWord a x.reps).getD (fetchStore s s.cur x a)
  ((mapped (s.cur == nolornCore) (decodeMap s (curCore s)) w.toNat).getD 0) / 2 ^ 22

/-- Whether a body of `n` words after `pc` ends beyond the outer body (R182). -/
def beyondOuter (pc n : Nat) : List Rep → Bool
  | r :: _ => 4 * r.n < (pc + 4 + 4 * n + 65536 - r.start) % 65536
  | [] => false

/-- REP (R180, R182): the body is the n words after it; a count of 0 skips it. On an attached follower it has no effect (R126). -/
def execRep (d : BitVec 6) (c : BitVec 8) (t n : BitVec 4) (s : State) : Out :=
  let x := cx s
  let len := n.toNat + 1
  let count := if d = 0 then c.toNat else rn s d % 2 ^ 32
  match x.role with
  | .attached _ => .next (finish s)
  | _ =>
    if 2 ≤ x.reps.length || endsBody (bodyOpcode s ((x.pc + 4 * len) % 65536)) || beyondOuter x.pc len x.reps then .next (trapWord 0x05 s)
    else
      let s := spend (issueCause x) s
      let x := cx s
      if count = 0 then
        let p := repAdvance ((x.pc + 4 + 4 * len) % 65536) x.reps
        .next (markIssued (setCx s { x with pc := p.1, reps := p.2 }))
      else
        let r : Rep := { start := (x.pc + 4) % 65536, n := len, stride := t.toNat, count := count }
        .next (markIssued (setCx s { x with pc := (x.pc + 4) % 65536, reps := r :: x.reps }))

/-- NOP (R179). -/
def execNop (s : State) : Out := .next (finish s)

/-! ## Guards (R184 to R186) -/

/-- The state of a guard. -/
def guardOf (x : Ctx) (g : Nat) : GuardState := tget x.guards g .free

/-- What a command binds to at its issue (R184). -/
def bindTo (x : Ctx) (g : Option (BitVec 3)) : Binding :=
  match g with
  | none => .run
  | some n =>
    match guardOf x n.toNat with
    | .free => .run
    | .isTrue => .run
    | .isFalse => .discard
    | .pending => .pend n.toNat

/-- A binding once guard `g` resolves (R185). -/
def Binding.resolve (g : Nat) (v : Bool) (b : Binding) : Binding := if b = .pend g then (if v then .run else .discard) else b

/-- The commands bound to the pending resolution of a guard take its value. -/
def Ctx.resolve (x : Ctx) (g : Nat) (v : Bool) : Ctx :=
  { x with vq := x.vq.map fun m => { m with bind := m.bind.resolve g v }
           mq := x.mq.map fun m => { m with bind := m.bind.resolve g v }
           cq := x.cq.map fun m => { m with bind := m.bind.resolve g v } }

/-- GCLR (R185): no effect where the guard is PENDING already. -/
def execGclr (d : BitVec 6) (s : State) : Out :=
  let x := cx s
  .next (finish (setCx s { x with guards := tset x.guards d.toNat .pending }))

/-- Whether a command bound to the guard remains in a queue (R185): a matrix command holds its entry until it completes (R151). -/
def guardBusy (x : Ctx) (g : Nat) : Bool :=
  x.vq.any (fun m => m.grd == some g) || x.mq.any (fun m => m.grd == some g) || x.cq.any (fun m => m.grd == some g) ||
    x.fills.any (fun f => f.cmd.grd == some g) || x.mstores.any (fun p => p.cmd.grd == some g) || x.mmas.any (fun a => a.grd == some g) ||
    x.msnds.contains (some g)

/-- GWAIT (R185): waits, charged to operand wait, until no command bound to the guard remains; then the guard is FREE. -/
def execGwait (d : BitVec 6) (s : State) : Out :=
  let x := cx s
  if guardBusy x d.toNat then .next (wait 8 s)
  else .next (finish (setCx s { x with guards := tset x.guards d.toNat .free }))

/-! ## Engines idle, EXIT (R179) -/

/-- Whether a context has an engine command or a copy that has not completed. -/
def enginesBusy (x : Ctx) : Bool :=
  !x.vq.isEmpty || !x.mq.isEmpty || !x.cq.isEmpty || !x.copies.isEmpty || !x.fills.isEmpty || !x.mstores.isEmpty || !x.fresh.isEmpty ||
    !x.mmas.isEmpty || !x.msnds.isEmpty

/-- Whether a member of a chorus that is attached, or that a JOIN at `y` reattaches, still holds forwarded words or engine work (R128). -/
def followerBusy (s : State) (y f : Nat) : Bool :=
  let k := core s f
  match k.user.role with
  | .attached _ => k.fwd.isSome || !k.user.fwdq.isEmpty || enginesBusy k.user
  | .joining _ a => a == y && enginesBusy k.user
  | _ => false

/-- The followers that keep a leader's JOIN from issuing (R128): detached, and neither joining nor held in a trap. -/
def followersAway (s : State) (fs : List Nat) : Bool :=
  fs.any fun f => match (core s f).user.role with | .detached _ => !(core s f).pendT && !(core s f).killing | _ => false

/-- A leader's JOIN at address `y` (R128): followers that join there are reattached; those that join elsewhere trap. -/
def joinAll (y : Nat) : List Nat → State → State
  | [], s => s
  | f :: t, s =>
    let k := core s f
    match k.user.role with
    | .joining l a =>
      if a = y then joinAll y t (setCore s f { k with user := { k.user with role := .attached l, fwdq := [], reps := [] } })
      else
        let s := setCore s f { k with user := { k.user with role := .detached l } }
        joinAll y t (userTrap f 0x08 false (BitVec.ofNat 128 k.user.word.toNat) s)
    | _ => joinAll y t s

/-- JOIN (R128, R315). -/
def execJoin (s : State) : Out :=
  let x := cx s
  if onSup s then .next (finish s) else
  match x.role with
  | .single => .next (finish s)
  | .attached _ => .next (finish s)
  | .joining _ _ => .next (wait 7 s)
  | .detached l =>
    let s := spend 7 s
    .next (setCx s { cx s with role := .joining l x.pc })
  | .leader fs => if followersAway s fs then .next (wait 7 s) else .next (finish (joinAll x.pc fs s))

/-- EXIT (R179, R128, R350): waits for the engines; the supervisor becomes idle, and a user context is killed with task exit. -/
def execExit (s : State) : Out :=
  let x := cx s
  if x.tx.isSome then .next (trapWord 0x0A s)
  else if onSup s then
    if enginesBusy x then .next (wait 22 s)
    else
      let s := commitAccounts s.cur true none (spend (issueCause x) s)
      let k := curCore s
      .next (markIdle s.cur (setCore s s.cur { k with supOn := false, issued := true, sup := { k.sup with hint := .none, waiting := none } }))
  else
    match x.role with
    | .detached _ => .next (trapWord 0x09 s)
    | .joining _ _ => .next (wait 7 s)
    | .attached _ => if enginesBusy x then .next (wait 22 s) else .next (finish s)
    | .single =>
      if enginesBusy x then .next (wait 22 s)
      else .next (beginKill s.cur 0x66 false x.pc 0 (spend (issueCause x) s))
    | .leader fs =>
      if followersAway s fs then .next (wait 7 s)
      else if enginesBusy x || fs.any (followerBusy s x.pc) then .next (wait 22 s)
      else .next (beginKill s.cur 0x66 false x.pc 0 (spend (issueCause x) (joinAll x.pc fs s)))

/-- IFENCE (R123, R140): later fetches of the context see every write performed before it. -/
def execIfence (s : State) : Out :=
  let s := if onSup s then setCore s s.cur { curCore s with smapOld := none } else s
  .next (finish (setCx s { cx s with stale := [] }))

/-! ## The label stack (R367, R368), BRK (R365) -/

/-- A push (R368). -/
def Debug.labelPush (n : Nat) (d : Debug) : Debug :=
  { d with beyond := d.beyond || 16 ≤ d.depth, lbl := if d.depth < 16 then tset d.lbl d.depth n else d.lbl
           depth := if d.depth < 255 then d.depth + 1 else d.depth }

/-- A pop (R368). -/
def Debug.labelPop (d : Debug) : Debug := if d.depth = 0 then { d with under := true } else { d with depth := d.depth - 1 }

/-- LBLPUSH (R368): CUR changes at the end of its cycle. -/
def execLblpush (i : BitVec 16) (s : State) : Out :=
  let s := finish s
  .next (setCx s { cx s with dbg := (cx s).dbg.labelPush i.toNat })

/-- LBLPOP (R368). -/
def execLblpop (s : State) : Out :=
  let s := finish s
  .next (setCx s { cx s with dbg := (cx s).dbg.labelPop })

/-- BRK (R365): halts before itself where BRKH is set and the port is open; otherwise raises cause 0x50. -/
def execBrk (s : State) : Out :=
  let x := cx s
  if x.dbg.brkh && portOpen s && !onSup s then .next (haltUser s.cur 3 0 (spend 8 s))
  else .next (trapAt 0x50 x.pc s)

end Sys2Proof.Machine
end

