-- ==== Sys2Proof/Machine/Local.lean ====
section
/-! DEFINITION. Local addresses (R189, R190, R194, R201, R380), accesses at a bank port with its write trace (R302), watchpoints (R364),
and the local loads and stores (R208). -/

namespace Sys2Proof.Machine

/-! ## Where a local address lies -/

/-- A byte behind a local address: of a bank (or of a Clove core's own memory, entry 9), or of the Nolorn SRAM (R380). -/
inductive Place where
  | bank (i : Nat)
  | sram (i : Nat)
deriving DecidableEq, Repr

/-- What a local address comes to: a byte, a wait for a hand-over's answer (R201), or a trap cause (R189, R190, R194). -/
inductive LocalRes where
  | ok (p : Place)
  | wait
  | bad (cause : Nat)
deriving DecidableEq, Repr

/-- The permissions an access may need, as bits of PERM (R194). -/
def permR : Nat := 1
def permW : Nat := 2
def permST : Nat := 4
def permML : Nat := 8

/-- Whether PERM holds every permission needed. -/
def permits (perm need : Nat) : Bool := perm &&& need == need

/-- The place of a byte of a bank. -/
def bankPlace (gb byte : Nat) : Nat := gb * 32768 + byte

/-- The number of banks in the package. -/
def bankCount : Nat := 32768

/-- The identifiers of a cluster in service, rising (R187). -/
def inService (s : State) (cl : Nat) : List Nat := (List.range 512).filter fun b => (bankAt s (cl * 512 + b)).cond != .out

/-- CBN of a cluster (R188). -/
def cbn (s : State) (cl : Nat) : Nat :=
  let k := tget s.clusters cl {}
  if k.en then 2 ^ k.cbl else 0

/-- The common banks of a cluster, rising (R187). -/
def commonBanks (s : State) (cl : Nat) : List Nat :=
  let l := inService s cl
  l.drop (l.length - cbn s cl)

/-- Whether a context may use the striped window of its cluster (R190): a supervisor, or a user whose chain contains OWNER. -/
def stripedOk (s : State) (cl : Nat) (sup : Bool) (x : Ctx) : Bool :=
  sup || (match x.region with
    | some r => (rcbChain s 4 r.rcb).any fun p => p.1 == (tget s.clusters cl {}).owner
    | none => false)

/-- The striped window (R190). -/
def stripedPlace (s : State) (cl : Nat) (sup : Bool) (x : Ctx) (va : Nat) : LocalRes :=
  let n := cbn s cl
  let o := va - 0x1000000
  if o < n * 0x8000 then
    if stripedOk s cl sup x then
      let line := o / 128
      match (commonBanks s cl)[line % n]? with
      | some b => .ok (.bank (bankPlace (cl * 512 + b) (line / n * 128 + o % 128)))
      | none => .bad 0x11
    else .bad 0x12
  else .bad 0x11

/-- Whether an open group has staged a slot for hand-over or detachment (R350). -/
def Ctx.staged (x : Ctx) (slot : Nat) : Bool :=
  match x.tx with
  | some t => t.abort == 0 && t.acts.any fun a => a.status == 0 &&
      (match a.kind with | .hand r => r.slot == slot | .det i => i == slot | _ => false)
  | none => false

/-- A slot of the local window (R192, R194): the issuer's own later access to a draining slot waits (R201), and one to a slot staged in
an open group is misuse (R350). -/
def slotPlace (c : Nat) (x : Ctx) (va need : Nat) (own : Bool) : LocalRes :=
  let e := entry x (va / 32768)
  if own && x.staged (va / 32768) then .bad 0x0A
  else if !e.valid || e.st == 3 then .bad 0x13
  else if e.st == 1 && own then .wait
  else if permits e.perm need then .ok (.bank (bankPlace (bankOf c e.bank) (va % 32768)))
  else .bad 0x14

/-- LocalMap (R189): the place of a local address in a context of core `c`. `own`: a later access by the context itself. -/
def localMap (s : State) (c : Nat) (sup : Bool) (x : Ctx) (va need : Nat) (own : Bool) : LocalRes :=
  if c = nolornCore then (if va < 0x40000 then .ok (.sram va) else if va < 0x200000 then .bad 0x13 else .bad 0x11)
  else
    match clusterOf c with
    | some cl =>
      if va < 0x200000 then slotPlace c x va need own
      else if 0x1000000 ≤ va then stripedPlace s cl sup x va else .bad 0x11
    | none => if va < 0x200000 then .ok (.bank (bankPlace bankCount ((c - 4096) * 0x200000 + va))) else .bad 0x11

/-! ## Clocks (R295) -/

/-- The entrywise maximum of two clocks. -/
def clockMax : List Nat → List Nat → List Nat
  | a :: l, b :: r => Nat.max a b :: clockMax l r
  | [], r => r
  | l, [] => l

/-- Merges a clock into a die's. -/
def mergeClock (d : Nat) (clk : List Nat) (s : State) : State := setDie s d { die s d with vc := clockMax (die s d).vc clk }

/-- A clock with one entry raised by one. -/
def clockTick (d : Nat) (l : List Nat) : List Nat := (List.range 4).map fun i => l.getD i 0 + (if i = d then 1 else 0)

/-- The clock of `n` bytes: the greatest of the clocks that the bytes have from their last writes. -/
def locationClock (s : State) (pa n : Nat) : List Nat :=
  if s.locClock.isEmpty then [0, 0, 0, 0]
  else (List.range n).foldl (fun k i => clockMax k (tget s.locClock (pa + i) [0, 0, 0, 0])) [0, 0, 0, 0]

/-- OnApply: a write's clock becomes that of each byte that it writes. Only clocks that are not zero are listed. -/
def setLocationClock (pa n : Nat) (clk : List Nat) (s : State) : State :=
  if s.locClock.isEmpty ∧ clk.all (· == 0) then s else
  (List.range n).foldl (fun s i =>
    { s with locClock := if clk.all (· == 0) then tdel s.locClock (pa + i) else tset s.locClock (pa + i) clk }) s

/-- A local place as a location: beyond every physical address. -/
def Place.loc : Place → Nat
  | .bank i => 2 ^ 53 + i
  | .sram i => 2 ^ 54 + i

/-- A read's clock reaches the reader's die (R295). -/
def readClock (c : Nat) (p : Place) (n : Nat) (s : State) : State :=
  if s.locClock.isEmpty then s else mergeClock (dieOf c) (locationClock s p.loc n) s

/-! ## Accesses at a port -/

/-- Reads bytes at a place. -/
def placeBytes (s : State) (p : Place) (n : Nat) : List Byte :=
  match p with
  | .bank i => memBytes s.bankMem i n
  | .sram i => memBytes s.sram i n

/-- The size code of the first record of a write of `n` bytes at offset `o`: the largest aligned power of two, at most 128. -/
def pieceSize (o n : Nat) : Nat → Nat
  | 0 => 0
  | k + 1 => if 2 ^ (k + 1) ≤ n ∧ o % 2 ^ (k + 1) = 0 then k + 1 else pieceSize o n k

/-- The write trace records of a write (R302): one for each aligned piece. -/
def pieces (cycle src kind : Nat) : Nat → Nat → Nat → List (BitVec 64)
  | 0, _, _ => []
  | fuel + 1, o, n =>
    if n = 0 then [] else
    let z := pieceSize o n 7
    BitVec.ofNat 64 (fld (cycle % 2 ^ 32) 32 + fld (src % 4096) 20 + fld kind 18 + fld z 15 + o % 32768) ::
      pieces cycle src kind fuel (o + 2 ^ z) (n - 2 ^ z)

/-- Appends records to a bank's write trace ring, or counts those it drops. -/
def Bank.append (b : Bank) : List (BitVec 64) → Bank
  | [] => b
  | r :: t =>
    if b.trace.length < 64 then Bank.append { b with trace := b.trace ++ [r] } t
    else Bank.append { b with drops := (b.drops + 1) % 2 ^ 32 } t

/-- The die of a bank of the pool. -/
def bankDie (gb : Nat) : Nat := gb / 8192

/-- A write of `n` bytes at a place from die `d` is noted: its clock, that of the source's die, becomes the place's, and the write trace ring
of the bank records it while it is on, with the cycle of the port's die, source and kind. -/
def noteWriteBy (d src kind : Nat) (p : Place) (n : Nat) (s : State) : State :=
  let s := setLocationClock p.loc n (die s d).vc s
  match p with
  | .bank i =>
    let gb := i / 32768
    let k := bankAt s gb
    if k.traceOn && gb < bankCount then
      setBank s gb (k.append (pieces (elapsedOn s (bankDie gb)) src kind n (i % 32768) n))
    else s
  | .sram _ => s

/-- A core's write at a place is noted. `kind`: 0 sequencer, 1 vector, 2 matrix, 3 copy. -/
def noteWrite (c kind : Nat) (p : Place) (n : Nat) (s : State) : State := noteWriteBy (dieOf c) (coreName c) kind p n s

/-- Bytes are stored at a place, with nothing noted. -/
def putPlace (p : Place) (b : List Byte) (s : State) : State :=
  match p with
  | .bank i => { s with bankMem := memPut s.bankMem i b }
  | .sram i => { s with sram := memPut s.sram i b }

/-- Writes bytes at a place. -/
def writePlace (c kind : Nat) (p : Place) (b : List Byte) (s : State) : State := noteWrite c kind p b.length (putPlace p b s)

/-! ## Watchpoints (R364) -/

/-- The first byte address of an access that a watchpoint compares equal. -/
def watchByte (mask addr a : Nat) : Nat → Option Nat
  | 0 => none
  | n + 1 => if (a ^^^ addr) &&& mask = 0 then some a else watchByte mask addr (a + 1) n

/-- The first watchpoint that an access meets: its action, index and the address matched. `kind`: 1 read, 2 write, 3 both. -/
def watchHit (d : Debug) (space kind a n : Nat) : List Nat → Option (Nat × Nat × Nat)
  | [] => none
  | i :: t =>
    let v := tget d.wpa i 0
    if bits v 56 55 ≠ 0 ∧ bits v 54 53 &&& kind ≠ 0 ∧ bits v 52 52 = space then
      match watchByte (tget d.wpm i 0) (bits v 51 0) a n with
      | some b => some (bits v 56 55, i, b)
      | none => watchHit d space kind a n t
    else watchHit d space kind a n t

/-- An access of the sequencer, unless a watchpoint stops the context before it: by a halt where the port is open, else by a trap
(R362, R364). -/
def watched (space kind a n : Nat) (f : State → Out) (s : State) : Out :=
  match watchHit (cx s).dbg space kind a n [0, 1, 2, 3] with
  | none => f s
  | some (act, i, b) =>
    if act = 2 && portOpen s && !onSup s then .next (haltUser s.cur 5 i (spend 8 s)) else .next (trapAt 0x52 b s)

/-! ## Loads and stores (R208) -/

/-- The value of a load: sign- or zero-extended from `n` bytes. -/
def extend (sg : Bool) (n : Nat) (l : List Byte) : Word := if sg then sext (8 * n) (ofBytes l) else zext (8 * n) (ofBytes l)

/-- LocalAccess (R208): the checks in their order, then the access at the place found. -/
def localAccess (va n need : Nat) (f : Place → State → Out) (s : State) : Out :=
  if va % n ≠ 0 then .next (trapAt 0x10 va s)
  else
    match localMap s s.cur (onSup s) (cx s) va need true with
    | .bad cause => .next (trapLocal cause va s)
    | .wait => .next (wait 8 s)
    | .ok p => watched 0 need va n (f p) s

/-- The cycles that pass before the next word issues are those of a wait for a load's datum: bank latency (R153, R208; DEDUCED, entry 130). -/
def awaitDatum (s : State) : State := setCore s s.cur { curCore s with stallq := 10 }

/-- A local load of `n` bytes. -/
def loadLocal (d : BitVec 6) (va n : Nat) (sg : Bool) (s : State) : Out :=
  localAccess va n permR (fun p s => .next (awaitDatum (finish (putWord d (extend sg n (placeBytes s p n)) (readClock s.cur p n s))))) s

/-- A local store of `n` bytes. -/
def storeLocal (d : BitVec 6) (va n : Nat) (s : State) : Out :=
  localAccess va n permW (fun p s => .next (finish (writePlace s.cur 0 p (toBytes n (rn s d)) s))) s

/-- The address of an I-format access: imm10 counts units of the size. -/
def addrImm (a : BitVec 6) (i : BitVec 10) (n : Nat) (s : State) : Nat := wrap 32 (rn s a % 2 ^ 32 + signed 10 i.toNat * n)

/-- The address of an A-format access. -/
def addrReg (a b : BitVec 6) (s : State) : Nat := (rn s a + rn s b) % 2 ^ 32

/-- LD.B.S (R208). -/
def execLdBS (d a : BitVec 6) (i : BitVec 10) (s : State) : Out := loadLocal d (addrImm a i 1 s) 1 true s

/-- LD.B.Z (R208). -/
def execLdBZ (d a : BitVec 6) (i : BitVec 10) (s : State) : Out := loadLocal d (addrImm a i 1 s) 1 false s

/-- LD.H.S (R208). -/
def execLdHS (d a : BitVec 6) (i : BitVec 10) (s : State) : Out := loadLocal d (addrImm a i 2 s) 2 true s

/-- LD.H.Z (R208). -/
def execLdHZ (d a : BitVec 6) (i : BitVec 10) (s : State) : Out := loadLocal d (addrImm a i 2 s) 2 false s

/-- LD.W.S (R208). -/
def execLdWS (d a : BitVec 6) (i : BitVec 10) (s : State) : Out := loadLocal d (addrImm a i 4 s) 4 true s

/-- LD.W.Z (R208). -/
def execLdWZ (d a : BitVec 6) (i : BitVec 10) (s : State) : Out := loadLocal d (addrImm a i 4 s) 4 false s

/-- LD.D.S (R208). -/
def execLdDS (d a : BitVec 6) (i : BitVec 10) (s : State) : Out := loadLocal d (addrImm a i 8 s) 8 true s

/-- LD.D.Z (R208). -/
def execLdDZ (d a : BitVec 6) (i : BitVec 10) (s : State) : Out := loadLocal d (addrImm a i 8 s) 8 false s

/-- LD.Q (R208). -/
def execLdQ (d a : BitVec 6) (i : BitVec 10) (s : State) : Out := loadLocal d (addrImm a i 16 s) 16 false s

/-- ST.B (R208). -/
def execStB (d a : BitVec 6) (i : BitVec 10) (s : State) : Out := storeLocal d (addrImm a i 1 s) 1 s

/-- ST.H (R208). -/
def execStH (d a : BitVec 6) (i : BitVec 10) (s : State) : Out := storeLocal d (addrImm a i 2 s) 2 s

/-- ST.W (R208). -/
def execStW (d a : BitVec 6) (i : BitVec 10) (s : State) : Out := storeLocal d (addrImm a i 4 s) 4 s

/-- ST.D (R208). -/
def execStD (d a : BitVec 6) (i : BitVec 10) (s : State) : Out := storeLocal d (addrImm a i 8 s) 8 s

/-- ST.Q (R208): the tag is dropped. -/
def execStQ (d a : BitVec 6) (i : BitVec 10) (s : State) : Out := storeLocal d (addrImm a i 16 s) 16 s

/-- The size and the extension that fn of an indexed load gives (R208, R228). -/
def loadShape (n : Nat) : Nat × Bool := if n < 8 then (2 ^ (n / 2), n % 2 == 0) else (16, false)

/-- LD at [kA + kB] (R208). -/
def execLdIndexed (d a b : BitVec 6) (n : BitVec 4) (s : State) : Out :=
  loadLocal d (addrReg a b s) (loadShape n.toNat).1 (loadShape n.toNat).2 s

/-- ST at [kA + kB] (R208). -/
def execStIndexed (d a b : BitVec 6) (n : BitVec 4) (s : State) : Out := storeLocal d (addrReg a b s) (2 ^ n.toNat) s

end Sys2Proof.Machine
end

