-- ==== Sys2Proof/Machine/Power.lean ====
section
/-! DEFINITION. Gating and waking of cores and clusters (R119). -/

namespace Sys2Proof.Machine

/-- Whether a core exists (R2, R326, R380). -/
def isCore (c : Nat) : Bool := c ≤ nolornCore

/-- A cluster's record. -/
def cluster (s : State) (cl : Nat) : Cluster := tget s.clusters cl {}

/-- Replaces a cluster's record. -/
def setCluster (s : State) (cl : Nat) (k : Cluster) : State := { s with clusters := tset s.clusters cl k }

/-- The cores of a cluster. -/
def clusterCores (cl : Nat) : List Nat := (List.range 64).map (64 * cl + ·)

/-- Whether a core has power. -/
def powered (k : Core) : Bool := match k.power with | .on => true | _ => false

/-- A wake's effect on a power state (R119): before the commit point the gating is aborted, after it the wake is held to power-off, and
from power-off power-up begins (`true`: now). -/
def Power.wake : Power → Power × Bool
  | .on => (.on, false)
  | .gating false _ => (.on, false)
  | .gating true _ => (.gating true true, false)
  | .off => (.waking, true)
  | .waking => (.waking, false)

/-- Wakes a cluster. -/
def wakeCluster (cl : Nat) (s : State) : State :=
  let k := cluster s cl
  let p := k.power.wake
  let s := setCluster s cl { k with power := p.1 }
  if p.2 then send (.powerUpDone true cl) s else s

/-- Wakes a core, and its cluster before it. -/
def wakeCore (c : Nat) (s : State) : State :=
  let s := settle c (match clusterOf c with | some cl => wakeCluster cl s | none => s)
  let k := core s c
  let p := k.power.wake
  let s := setCore s c { k with power := p.1 }
  if p.2 then send (.powerUpDone false c) s else s

/-- Whether a message to a core is pending (R119): on its way, or held at its interface. -/
def messagePending (s : State) (c : Nat) : Bool :=
  !(core s c).niq.isEmpty || (core s c).start.isSome || (s.flight.any fun e => match e with
    | .messageArrival m => m.target == c
    | .taggedMessageArrival m => m.target == c
    | .startMessage c' => c' == c
    | .contextRestore c' _ => c' == c
    | .istoreHostWrite _ c' _ _ => c' == c
    | .handoverRequest r => r.target == c
    | .msndAccept r => r.target == c
    | .portWordArrival c' _ _ => c' == c
    | _ => false)

/-- CORE_GATING_START (R119). The cycles without residency count afresh from a gating that was given up and from the end of a power-up (DESIGN
CHOICE, entry 124). -/
def execCoreGatingStart (c : Nat) (s : State) : Out :=
  let s := settle c (taken (.coreGatingStart c) s)
  if !isCore c then .next s else
  let k := core s c
  if powered k && (residentOf k).isNone && !messagePending s c && decide (k.idleSince + 16384 ≤ s.elapsed) then
    .next (send (.coreGatingCommit c) (setCore s c { k with power := .gating false false, idleSince := s.elapsed }))
  else .next s

/-- CORE_GATING_COMMIT (R119): at g + 32. -/
def execCoreGatingCommit (c : Nat) (s : State) : Out :=
  let s := taken (.coreGatingCommit c) s
  if !isCore c then .next s else
  let k := core s c
  match k.power with
  | .gating false h =>
    if k.idleSince + 32 ≤ s.elapsed then .next (send (.corePowerOff c) (setCore s c { k with power := .gating true h }))
    else .next (send (.coreGatingCommit c) s)
  | _ => .next s

/-- CORE_POWER_OFF (R119): at g + 64; a wake held since the commit point begins power-up. -/
def execCorePowerOff (c : Nat) (s : State) : Out :=
  let s := taken (.corePowerOff c) s
  if !isCore c then .next s else
  let k := core s c
  match k.power with
  | .gating true h =>
    if k.idleSince + 64 ≤ s.elapsed then
      let s := setCore s c { k with power := if h then .waking else .off }
      .next (if h then send (.powerUpDone false c) s else s)
    else .next (send (.corePowerOff c) s)
  | _ => .next s

/-- Whether a core is gated: it has no power. -/
def gated (k : Core) : Bool := match k.power with | .off => true | _ => false

/-- Whether no bank of a cluster is attached or parked, and no striped window of it is live (R119). -/
def banksIdle (s : State) (cl : Nat) : Bool :=
  !(cluster s cl).en && (List.range 512).all fun b =>
    match (bankAt s (512 * cl + b)).cond with
    | .attached => false
    | .parked _ _ => false
    | _ => true

/-- The last cycle in which a cluster was not idle: its cores' own times, which count from when each began to gate. -/
def clusterIdleSince (s : State) (cl : Nat) : Nat :=
  (clusterCores cl).foldl (fun m c => Nat.max m (core s c).idleSince) (cluster s cl).idleSince

/-- CLUSTER_GATING_START (R119). -/
def execClusterGatingStart (cl : Nat) (s : State) : Out :=
  let s := taken (.clusterGatingStart cl) s
  if 64 ≤ cl then .next s else
  let k := cluster s cl
  match k.power with
  | .on =>
    if (clusterCores cl).all (fun c => gated (core s c)) && banksIdle s cl && decide (clusterIdleSince s cl + 65536 ≤ s.elapsed) then
      .next (send (.clusterGatingCommit cl) (setCluster s cl { k with power := .gating false false, idleSince := s.elapsed }))
    else .next s
  | _ => .next s

/-- CLUSTER_GATING_COMMIT (R119): at g + 256. -/
def execClusterGatingCommit (cl : Nat) (s : State) : Out :=
  let s := taken (.clusterGatingCommit cl) s
  if 64 ≤ cl then .next s else
  let k := cluster s cl
  match k.power with
  | .gating false h =>
    if k.idleSince + 256 ≤ s.elapsed then .next (send (.clusterPowerOff cl) (setCluster s cl { k with power := .gating true h }))
    else .next (send (.clusterGatingCommit cl) s)
  | _ => .next s

/-- CLUSTER_POWER_OFF (R119, R117): at g + 512; the cores of the cluster hold no image any more. -/
def execClusterPowerOff (cl : Nat) (s : State) : Out :=
  let s := taken (.clusterPowerOff cl) s
  if 64 ≤ cl then .next s else
  let k := cluster s cl
  match k.power with
  | .gating true h =>
    if k.idleSince + 512 ≤ s.elapsed then
      let s := setCluster s cl { k with power := if h then .waking else .off }
      let s := (clusterCores cl).foldl (fun s c => setCore s c { core s c with image := none }) s
      .next (if h then send (.powerUpDone true cl) s else s)
    else .next (send (.clusterPowerOff cl) s)
  | _ => .next s

/-- WAKE (R119). -/
def execWake (isCluster : Bool) (ix : Nat) (s : State) : Out :=
  let s := taken (.wake isCluster ix) s
  if isCluster then (if 64 ≤ ix then .next s else .next (wakeCluster ix s))
  else if isCore ix then .next (wakeCore ix s) else .next s

/-- POWER_UP_DONE (R119): a core's power-up ends only once its cluster has power, whose stores then hold zero words (R121). -/
def execPowerUpDone (isCluster : Bool) (ix : Nat) (s : State) : Out :=
  let s := taken (.powerUpDone isCluster ix) s
  if isCluster then
    if 64 ≤ ix then .next s else
    let k := cluster s ix
    match k.power with
    | .waking => .next (setCluster { s with istore := s.istore.filter fun p => p.1 / 2 ^ 22 != ix } ix { k with power := .on, idleSince := s.elapsed })
    | _ => .next s
  else if !isCore ix then .next s
  else
    let s := settle ix s
    let k := core s ix
    match k.power with
    | .waking =>
      match (clusterOf ix).map fun cl => (cluster s cl).power with
      | some .on => .next (setCore s ix { k with power := .on, idleSince := s.elapsed })
      | none => .next (setCore s ix { k with power := .on, idleSince := s.elapsed })
      | some _ => .next (send (.powerUpDone false ix) s)
    | _ => .next s

end Sys2Proof.Machine
end

