-- ==== Sys2Proof/Machine/Flags.lean ====
section
/-! DEFINITION. The floating-point exception flags (R49, R50) and the stochastic generator (R48). -/

namespace Sys2Proof.Machine

/-! ## Flags: bits of %fexc (R49) -/

def flagNV : Nat := 1
def flagDZ : Nat := 2
def flagOF : Nat := 4
def flagUF : Nat := 8
def flagNX : Nat := 16

/-- Flags that are raised are ORed in (R49). -/
def Ctx.raise (x : Ctx) (flags : Nat) : Ctx := { x with fexc := x.fexc ||| flags }

/-- One step of the generator (R48): the next state; the draw is its bits 31:8. -/
def drawState (x : BitVec 32) : BitVec 32 :=
  let x := x ^^^ (x <<< 13)
  let x := x ^^^ (x >>> 17)
  x ^^^ (x <<< 5)

/-- What an instruction's roundings have come to: the generator's state and the flags raised. -/
structure NumSt where
  seed : BitVec 32
  flags : Nat
deriving DecidableEq, Repr

/-- Raises flags. -/
def NumSt.raise (n : NumSt) (f : Nat) : NumSt := { n with flags := n.flags ||| f }

/-- The state at the start of roundings on a core: its generator, and no flag raised. -/
def Core.num (k : Core) : NumSt := { seed := k.rseed, flags := 0 }

/-- The roundings of an instruction of a context are done: the core's generator and the context's %fexc take them. -/
def putNum (c : Nat) (sup : Bool) (n : NumSt) (s : State) : State :=
  let s := setCtxOf s c sup ((ctxOf s c sup).raise n.flags)
  setCore s c { core s c with rseed := n.seed }

end Sys2Proof.Machine
end

