-- ==== Sys2Proof/Machine/Numbers.lean ====
section
/-! DEFINITION. The element formats, exact values, rounding and conversion (R34 to R40, R47 to R55), and exact sums and products with
their special cases (R62, R168, R169). -/

namespace Sys2Proof.Machine

/-! ## Formats (R34, R35, R39) -/

/-- A floating-point format: exponent bits, fraction bits, bias, and its special values: 0 with infinities and NaNs, 1 E4M3, 2 none. -/
structure FFmt where
  eb : Nat
  fb : Nat
  bias : Nat
  kind : Nat
deriving DecidableEq, Repr

/-- The floating-point format of a code; the scaled codes 15 and 16 read as E4M3 and E2M1 (R40). -/
def floatFmt : Nat → Option FFmt
  | 0 => some ⟨8, 23, 127, 0⟩
  | 1 => some ⟨8, 10, 127, 0⟩
  | 2 => some ⟨5, 10, 15, 0⟩
  | 3 => some ⟨8, 7, 127, 0⟩
  | 4 => some ⟨5, 2, 15, 0⟩
  | 5 => some ⟨4, 3, 7, 1⟩
  | 6 => some ⟨3, 2, 3, 2⟩
  | 7 => some ⟨2, 3, 1, 2⟩
  | 8 => some ⟨2, 1, 1, 2⟩
  | 15 => some ⟨4, 3, 7, 1⟩
  | 16 => some ⟨2, 1, 1, 2⟩
  | _ => none

/-- The integer format of a code: width and whether signed; code 14 reads as INT8 (R40). -/
def intFmt : Nat → Option (Nat × Bool)
  | 9 => some (16, true)
  | 10 => some (8, true)
  | 11 => some (8, false)
  | 12 => some (4, true)
  | 13 => some (4, false)
  | 14 => some (8, true)
  | _ => none

/-- Element bits of a code (R34). -/
def elemBits (f : Nat) : Nat :=
  match f with
  | 0 => 32 | 1 => 19 | 2 => 16 | 3 => 16 | 4 => 8 | 5 => 8 | 6 => 6 | 7 => 6 | 8 => 4 | 9 => 16 | 10 => 8 | 11 => 8 | 12 => 4 | 13 => 4
  | 14 => 8 | 15 => 8 | 16 => 4 | 17 => 7 | 18 => 4 | 19 => 2 | _ => 0

/-- Storage bits of an element of codes 0 to 16 (R34). -/
def storeBits (f : Nat) : Nat :=
  match f with
  | 0 => 32 | 1 => 32 | 2 => 16 | 3 => 16 | 4 => 8 | 5 => 8 | 6 => 8 | 7 => 8 | 8 => 4 | 9 => 16 | 10 => 8 | 11 => 8 | 12 => 4 | 13 => 4
  | 14 => 8 | 15 => 8 | 16 => 4 | _ => 0

/-- Integer formats (R34). -/
def isIntFmt (f : Nat) : Bool := 9 ≤ f && f ≤ 13

/-- The canonical NaN of a format that has one (R37). -/
def canonNan (f : FFmt) : Nat := if f.kind = 1 then 0x7F else (2 ^ f.eb - 1) * 2 ^ f.fb + 2 ^ (f.fb - 1)

/-- The largest finite magnitude, as significand and exponent (R35). -/
def largest (f : FFmt) : Nat × Int :=
  if f.kind = 0 then (2 ^ (f.fb + 1) - 1, (2 ^ f.eb - 2 : Nat) - (f.bias : Int) - f.fb)
  else (2 ^ (f.fb + 1) - (if f.kind = 1 then 2 else 1), (2 ^ f.eb - 1 : Nat) - (f.bias : Int) - f.fb)

/-! ## Values of patterns (R36, R37, R39) -/

/-- The value of a floating-point pattern. -/
def floatVal (f : FFmt) (p : Nat) : FV :=
  let neg := bitAt p (f.eb + f.fb)
  let e := bits p (f.eb + f.fb - 1) f.fb
  let m := p % 2 ^ f.fb
  if f.kind = 0 ∧ e = 2 ^ f.eb - 1 then (if m = 0 then .inf neg else .nan (m < 2 ^ (f.fb - 1)))
  else if f.kind = 1 ∧ e = 15 ∧ m = 7 then .nan false
  else if e = 0 then .fin neg m (1 - (f.bias : Int) - f.fb)
  else .fin neg (2 ^ f.fb + m) ((e : Int) - f.bias - f.fb)

/-- The value of an integer. -/
def intVal (i : Int) : FV := .fin (decide (i < 0)) i.natAbs 0

/-- The value of a pattern of a format of codes 0 to 16. -/
def valueOf (fmt p : Nat) : FV :=
  match floatFmt fmt with
  | some f => floatVal f p
  | none =>
    match intFmt fmt with
    | some (w, true) => intVal (signed w p)
    | some (w, false) => intVal (p % 2 ^ w : Nat)
    | none => .fin false 0 0

/-! ## Rounding (R47, R48) -/

/-- The length of a number in bits. -/
def bitLen (m : Nat) : Nat := if m = 0 then 0 else Nat.log2 m + 1

/-- Rounds m x 2^e to a multiple of 2^k (R47): the multiple, and whether it is inexact. -/
def roundTo (neg : Bool) (m : Nat) (e k : Int) (mode rho : Nat) : Nat × Bool :=
  if k ≤ e then (m * 2 ^ (e - k).toNat, false)
  else
    let d := (k - e).toNat
    let a := m / 2 ^ d
    let r := m % 2 ^ d
    if r = 0 then (a, false)
    else
      let up := match mode with
        | 0 => 2 ^ d < 2 * r || (2 * r == 2 ^ d && a % 2 == 1)
        | 1 => false
        | 2 => !neg
        | 3 => neg
        | 4 => 2 ^ d ≤ 2 * r
        | _ => rho * 2 ^ d < r * 2 ^ 24
      (if up then a + 1 else a, true)

/-- The draw of a rounding (R48): in mode rsto the state moves on, and the draw is its bits 31:8. -/
def NumSt.draw (mode : Nat) (n : NumSt) : Nat × NumSt :=
  if mode = 5 then
    let x := drawState n.seed
    (x.toNat / 256, { n with seed := x })
  else (0, n)

/-- m x 2^k as a pattern of a format that represents it. -/
def packMag (f : FFmt) (neg : Bool) (m : Nat) (k : Int) : Nat :=
  let s := fld (b2n neg) (f.eb + f.fb)
  let emin : Int := 1 - f.bias
  let p := (bitLen m : Int) - 1 + k
  if m = 0 then s
  else if p < emin then s + m * 2 ^ (k - (emin - f.fb)).toNat
  else
    let t := (bitLen m : Int) - 1 - f.fb
    let fr := if 0 ≤ t then m / 2 ^ t.toNat else m * 2 ^ (-t).toNat
    s + (p + f.bias).toNat * 2 ^ f.fb + (fr - 2 ^ f.fb)

/-- Whether m x 2^k exceeds m' x 2^k'. -/
def magGt (m : Nat) (k : Int) (m' : Nat) (k' : Int) : Bool :=
  if k' ≤ k then m' < m * 2 ^ (k - k').toNat else m' * 2 ^ (k' - k).toNat < m

/-- An infinity of a format that has it. -/
def packInf (f : FFmt) (neg : Bool) : Nat := fld (b2n neg) (f.eb + f.fb) + (2 ^ f.eb - 1) * 2 ^ f.fb

/-- What overflow delivers (R52). -/
def overflowed (f : FFmt) (neg : Bool) (mode : Nat) (sat : Bool) : Nat :=
  let big := packMag f neg (largest f).1 (largest f).2
  if f.kind = 1 then (if sat then big else 0x7F)
  else if f.kind = 2 || sat then big
  else if mode = 0 || mode = 4 || mode = 5 || (mode = 2 && !neg) || (mode = 3 && neg) then packInf f neg
  else big

/-- A finite value rounded to a floating-point format (R47, R50, R52, R53): under rsto a zero draws as well (DESIGN CHOICE, entry 95). -/
def roundFloat (f : FFmt) (neg : Bool) (m : Nat) (e : Int) (mode : Nat) (sat : Bool) (n : NumSt) : Nat × NumSt :=
  let r := n.draw mode
  if m = 0 then (packMag f neg 0 0, r.2)
  else
    let emin : Int := 1 - f.bias
    let p := (bitLen m : Int) - 1 + e
    let k := (if p < emin then emin else p) - f.fb
    let q := roundTo neg m e k mode r.1
    if magGt q.1 k (largest f).1 (largest f).2 then (overflowed f neg mode sat, r.2.raise (flagOF ||| flagNX))
    else
      let small := q.1 ≠ 0 && decide ((bitLen q.1 : Int) - 1 + k < emin)
      (packMag f neg q.1 k, r.2.raise (if q.2 then flagNX ||| (if small then flagUF else 0) else 0))

/-- The range of an integer format (R39). -/
def intMin (w : Nat) (sg : Bool) : Int := if sg then -((2 ^ (w - 1) : Nat) : Int) else 0
def intMax (w : Nat) (sg : Bool) : Int := (if sg then 2 ^ (w - 1) else 2 ^ w : Nat) - 1

/-- A finite value rounded to an integer format (R50, R52, R55). -/
def roundInt (w : Nat) (sg neg : Bool) (m : Nat) (e : Int) (mode : Nat) (n : NumSt) : Nat × NumSt :=
  let r := n.draw mode
  let q := roundTo neg m e 0 mode r.1
  let v : Int := if neg then -(q.1 : Int) else q.1
  if v < intMin w sg then (wrap w (intMin w sg), r.2.raise flagNV)
  else if intMax w sg < v then (wrap w (intMax w sg), r.2.raise flagNV)
  else (wrap w v, r.2.raise (if q.2 then flagNX else 0))

/-- Conversion of a value to a floating-point format (R51, R54). -/
def toFloat (f : FFmt) (v : FV) (mode : Nat) (sat : Bool) (n : NumSt) : Nat × NumSt :=
  match v with
  | .nan sig => if f.kind = 2 then (0, n.raise flagNV) else (canonNan f, n.raise (if sig then flagNV else 0))
  | .inf neg =>
    if f.kind = 0 then (packInf f neg, n)
    else if f.kind = 1 && !sat then (0x7F, n.raise flagNV)
    else (packMag f neg (largest f).1 (largest f).2, n.raise flagNV)
  | .fin neg m e => roundFloat f neg m e mode sat n

/-- Conversion of a value to an integer format (R51, R54). -/
def toInt (w : Nat) (sg : Bool) (v : FV) (mode : Nat) (n : NumSt) : Nat × NumSt :=
  match v with
  | .nan _ => (0, n.raise flagNV)
  | .inf neg => (wrap w (if neg then intMin w sg else intMax w sg), n.raise flagNV)
  | .fin neg m e => roundInt w sg neg m e mode n

/-- Conversion of a value to a format of codes 0 to 16 (R51 to R55). -/
def convert (fmt : Nat) (v : FV) (mode : Nat) (sat : Bool) (n : NumSt) : Nat × NumSt :=
  match floatFmt fmt with
  | some f => toFloat f v mode sat n
  | none =>
    match intFmt fmt with
    | some (w, sg) => toInt w sg v mode n
    | none => (0, n)

/-! ## Exact arithmetic (R62, R168, R169) -/

/-- A signed integer with the sign of a value at exponent `e`. -/
def FV.at (e : Int) : FV → Int
  | .fin neg m e' =>
    let x : Int := m * 2 ^ (e' - e).toNat
    if neg then -x else x
  | _ => 0

/-- Whether a value is a zero. -/
def FV.isZero : FV → Bool
  | .fin _ 0 _ => true
  | _ => false

/-- Whether a value is a NaN. -/
def FV.isNan : FV → Bool
  | .nan _ => true
  | _ => false

/-- Whether a value is a signalling NaN. -/
def FV.isSig : FV → Bool
  | .nan true => true
  | _ => false

/-- Whether a value is an infinity. -/
def FV.isInf : FV → Bool
  | .inf _ => true
  | _ => false

/-- The sign of a value: a NaN has none. -/
def FV.neg : FV → Bool
  | .nan _ => false
  | .inf s => s
  | .fin s _ _ => s

/-- A value with the sign given. -/
def FV.withSign (neg : Bool) : FV → FV
  | .nan s => .nan s
  | .inf _ => .inf neg
  | .fin _ m e => .fin neg m e

/-- A value times 2^k. -/
def FV.scale (k : Int) : FV → FV
  | .fin s m e => .fin s m (e + k)
  | v => v

/-- The exponent of a value. -/
def FV.expo : FV → Int
  | .fin _ _ e => e
  | _ => 0

/-- A quiet NaN result with the flags of its operands. -/
def nanOf (l : List FV) : FV × Nat := (.nan false, if l.any FV.isSig then flagNV else 0)

/-- A finite sum at a common exponent, with the sign of an exact zero (R168). -/
def sumFin (a b : FV) (mode : Nat) : FV :=
  let e := if a.expo ≤ b.expo then a.expo else b.expo
  let t := a.at e + b.at e
  if t ≠ 0 then .fin (decide (t < 0)) t.natAbs e
  else if a.isZero && b.isZero && a.neg == b.neg then .fin a.neg 0 0
  else .fin (mode == 3) 0 0

/-- An exact sum with its special cases (R168), and the flags raised. -/
def addV (a b : FV) (mode : Nat) : FV × Nat :=
  if a.isNan || b.isNan then nanOf [a, b]
  else
    match a, b with
    | .inf s, .inf t => if s = t then (.inf s, 0) else (.nan false, flagNV)
    | .inf s, _ => (.inf s, 0)
    | _, .inf t => (.inf t, 0)
    | _, _ => (sumFin a b mode, 0)

/-- Whether a product is 0 x infinity. -/
def zeroTimesInf (a b : FV) : Bool := (a.isZero && b.isInf) || (a.isInf && b.isZero)

/-- An exact product with its special cases (R168), and the flags raised. -/
def mulV (a b : FV) : FV × Nat :=
  if zeroTimesInf a b then (.nan false, flagNV)
  else if a.isNan || b.isNan then nanOf [a, b]
  else
    match a, b with
    | .fin s m e, .fin t m' e' => (.fin (s != t) (m * m') (e + e'), 0)
    | _, _ => (.inf (a.neg != b.neg), 0)

/-- An exact a x b + d with its special cases in the order of R168, and the flags raised. -/
def fmaV (a b d : FV) (mode : Nat) : FV × Nat :=
  if zeroTimesInf a b then (.nan false, flagNV)
  else if a.isNan || b.isNan || d.isNan then nanOf [a, b, d]
  else addV (mulV a b).1 d mode

/-- The order of two values that are not NaNs: a zero's sign does not count. -/
def cmpV (a b : FV) : Ordering :=
  match a, b with
  | .inf s, .inf t => if s = t then .eq else if s then .lt else .gt
  | .inf s, _ => if s then .lt else .gt
  | _, .inf t => if t then .gt else .lt
  | _, _ =>
    let e := if a.expo ≤ b.expo then a.expo else b.expo
    compare (a.at e) (b.at e)

/-- The order of two values that are not NaNs, with -0 below +0. -/
def cmpZ (a b : FV) : Ordering :=
  match cmpV a b with
  | .eq => if a.neg == b.neg then .eq else if a.neg then .lt else .gt
  | o => o

/-- The lesser or the greater of two values (R169), and the flags raised. -/
def minmaxV (max : Bool) (a b : FV) : FV × Nat :=
  let fl := if a.isSig || b.isSig then flagNV else 0
  if a.isNan && b.isNan then (.nan false, fl)
  else if a.isNan then (b, fl)
  else if b.isNan then (a, fl)
  else
    match cmpZ a b with
    | .lt => (if max then b else a, fl)
    | .gt => (if max then a else b, fl)
    | .eq => (a, fl)

end Sys2Proof.Machine
end

