-- ==== Sys2Proof/Machine/Operands.lean ====
section
/-! DEFINITION. The operands that number handling takes: the items of an HV hint and the defaults of %fmt (R57, R134, R248), scalar values
in registers (R38), and the wait for the stochastic generator (R48). -/

namespace Sys2Proof.Machine

/-! ## %fmt (R57) -/

def fmtTol (f : Nat) : Nat := bits f 23 16
def fmtSat (f : Nat) : Bool := bitAt f 12
def fmtMz (f : Nat) : Bool := bitAt f 11
def fmtRm (f : Nat) : Nat := bits f 10 8
def fmtPw (f : Nat) : Nat := bits f 4 0

/-! ## The items of a hint (R134) -/

/-- The payload of an HV hint: with none, every item says "default". -/
def hvPayload : Hint → Nat
  | .hv p => p
  | _ => 0x70

def hvTol (p : Nat) : Option Nat := if bitAt p 21 then some (bits p 20 13) else none
def hvMask (p : Nat) : Option Nat := if bitAt p 12 then some (bits p 11 9) else none
def hvPol (p : Nat) : Nat := bits p 8 7
def hvRm (p : Nat) : Nat := bits p 6 4
def hvOp4 (p : Nat) : Option Nat := if bitAt p 3 then some (bits p 2 0) else none

/-- The rounding mode of the word in issue: RM 0 to 5 of its hint, else %fmt.RM (R167, R248). -/
def roundMode (x : Ctx) : Nat := if hvRm (hvPayload x.hint) < 6 then hvRm (hvPayload x.hint) else fmtRm x.fmt

/-- Whether off lanes are zeroed (R134, R247): POL 2, or POL 0 with %fmt.MZ. -/
def zeroPolicy (x : Ctx) : Bool := hvPol (hvPayload x.hint) == 2 || (hvPol (hvPayload x.hint) == 0 && fmtMz x.fmt)

/-! ## Scalar values (R38) -/

/-- The value of a register read in a format of codes 0 to 13: the low bits of the element width. -/
def scalarVal (fmt r : Nat) : FV := valueOf fmt (r % 2 ^ elemBits fmt)

/-! ## The generator's grant (R48) -/

/-- Whether an earlier command of either context of a core still has to draw. -/
def rstoBusy (k : Core) : Bool := (k.user.vq ++ k.sup.vq).any VCmd.rsto || (k.user.mq ++ k.sup.mq).any MCmd.rsto

/-- A sequencer instruction that rounds (R48, R167): in mode rsto it waits until every earlier command has drawn its last value. -/
def rounding (f : State → Out) (s : State) : Out :=
  if roundMode (cx s) = 5 && rstoBusy (curCore s) then .next (wait 8 s) else f s

/-- Writes a pattern to K[d], the roundings' flags and draws to the context, and completes the word. -/
def numDone (d : BitVec 6) (p : Nat) (n : NumSt) (s : State) : State :=
  finish (putNat d p (putNum s.cur (onSup s) n s))

end Sys2Proof.Machine
end

