-- ==== Sys2Proof/Machine/Special.lean ====
section
/-! DEFINITION. The special functions (R93, R265, R266, R267) as functions of one element: the FP32 result, and whether it is the exact
value of the function. -/

namespace Sys2Proof.Machine

/-! ## FP32 arithmetic of the procedures (R267) -/

/-- The format FP32 (R35). -/
def fp32 : FFmt := ⟨8, 23, 127, 0⟩

/-- C(v): a value rounded to FP32 under nearest-even. -/
def f32 (v : FV) : FV := floatVal fp32 (toFloat fp32 v 0 false ⟨0, 0⟩).1

/-- Fma(p, q, r). -/
def fma32 (p q r : FV) : FV := f32 (fmaV p q r 0).1

/-- A constant that the procedures round once: its FP32 pattern. -/
def k32 (p : Nat) : FV := floatVal fp32 p

def one32 : FV := .fin false 1 0
def zero32 : FV := .fin false 0 0

/-- The negative of a value. -/
def neg32 (v : FV) : FV := v.withSign (!v.neg)

/-- Horner's evaluation, coefficients from the highest down. -/
def horner (w : FV) (coefs : List FV) : FV := coefs.foldl (fun acc k => fma32 acc w k) zero32

/-- The first `n` of a list of patterns, highest first. -/
def coefsOf (n : Nat) (l : List Nat) : List FV := ((l.take n).map k32).reverse

/-- Split(a): the significand, 1 <= u < 2, and the exponent of a finite nonzero value. -/
def split (a : FV) : FV × Int :=
  match a with
  | .fin _ m e => (.fin false m (1 - (bitLen m : Int)), (bitLen m : Int) - 1 + e)
  | v => (v, 0)

/-- `n` steps of an iteration. -/
def iter (f : FV → FV) : Nat → FV → FV
  | 0, y => y
  | n + 1, y => iter f n (f y)

/-- RcpCore. -/
def rcpCore (a : FV) (n : Nat) : FV :=
  let u := (split a).1
  let y := fma32 (neg32 (k32 0x3EF0F0F1)) u (k32 0x3FB4B4B5)
  let y := iter (fun y => fma32 y (fma32 (neg32 u) y one32) y) n y
  (y.withSign a.neg).scale (-(split a).2)

/-- RsqCore, of a positive value. -/
def rsqCore (a : FV) (n : Nat) : FV :=
  let e := (split a).2
  let odd := e % 2 = 1
  let u := if odd then (split a).1.scale 1 else (split a).1
  let e := if odd then e - 1 else e
  let y := if odd then fma32 (neg32 (k32 0x3DD413CD)) u (k32 0x3F6A09E6) else fma32 (neg32 (k32 0x3E95F61A)) u (k32 0x3FA57D86)
  let y := iter (fun y =>
    let t := fma32 y y zero32
    let h := fma32 (neg32 u) t one32
    fma32 (fma32 y (.fin false 1 (-1)) zero32) h y) n y
  y.scale (-(e / 2))

/-- The nearest integer to a finite value, ties to even, with its sign. -/
def nearestInt (a : FV) : Int :=
  match a with
  | .fin s m e => let r := (roundTo s m e 0 0 0).1; if s then -(r : Int) else r
  | _ => 0

/-- Exp2Core, for -150 <= a < 128. -/
def exp2Core (a : FV) (n : Nat) : FV :=
  let i := nearestInt a
  let f := sumFin a (intVal (-i)) 0
  (horner f (coefsOf (2 * n + 2) [0x3F800000, 0x3F317218, 0x3E75FDF0, 0x3D635847, 0x3C1D955B, 0x3AAEC3FF, 0x39218489, 0x377FE5FE])).scale i

/-- Exp2Core': Exp2Core with the bounds of R266. -/
def exp2Bounded (a : FV) (n : Nat) : FV :=
  match a with
  | .inf s => if s then zero32 else .inf false
  | _ =>
    if cmpV a (intVal 128) != .lt then .inf false
    else if cmpV a (intVal (-150)) == .lt then zero32
    else exp2Core a n

/-- Log2Core, of a positive value. -/
def log2Core (a : FV) (n : Nat) : FV :=
  let u := (split a).1
  let e := (split a).2
  let big := cmpV u (k32 0x3FB504F3) != .lt
  let u := if big then u.scale (-1) else u
  let e := if big then e + 1 else e
  let t := fma32 (sumFin u (intVal (-1)) 0) (f32 (rcpCore (fma32 u one32 one32) 3)) zero32
  let q := horner (fma32 t t zero32) (coefsOf (n + 1) [0x4038AA3B, 0x3F76384F, 0x3F13BB63, 0x3ED30BB1])
  fma32 t q (intVal e)

/-- SigmCore. -/
def sigmCore (a : FV) (n : Nat) : FV :=
  let g := f32 (exp2Bounded (fma32 (neg32 a) (k32 0x3FB8AA3B) zero32) n)
  if g.isInf then zero32 else rcpCore (fma32 g one32 one32) n

/-- TanhCore. -/
def tanhCore (a : FV) (n : Nat) : FV :=
  let g := f32 (exp2Bounded (fma32 (a.withSign false) (k32 0x4038AA3B) zero32) n)
  let m := if g.isInf then one32 else fma32 (.fin true 1 1) (f32 (rcpCore (fma32 g one32 one32) n)) one32
  if a.neg then neg32 m else m

/-- The number pi to 400 fraction bits, which every FP32 argument's reduction is exact to. -/
def piBits : Nat := 0x3243f6a8885a308d313198a2e03707344a4093822299f31d0082efa98ec4e6c89452821e638d01377be5466cf34e90c6cc0ac

/-- The nearest integer to a x 2/pi, of the magnitude of a finite value. -/
def quadrant (m : Nat) (e : Int) : Nat :=
  let k := e + 401
  let num := if 0 ≤ k then m * 2 ^ k.toNat else m
  let den := if 0 ≤ k then piBits else piBits * 2 ^ (-k).toNat
  (2 * num + den) / (2 * den)

/-- SinCosCore. -/
def sinCosCore (a : FV) (n : Nat) (cosine : Bool) : FV :=
  match a with
  | .fin s m e =>
    let k := quadrant m e
    let r := f32 (sumFin a (.fin (!s) (k * piBits) (-401)) 0)
    let w := fma32 r r zero32
    let ts := match n with | 0 => 1 | 1 => 2 | 2 => 4 | _ => 6
    let tc := match n with | 0 => 2 | 1 => 3 | 2 => 5 | _ => 6
    let sn := fma32 r (horner w (coefsOf ts [0x3F800000, 0xBE2AAAAB, 0x3C088889, 0xB9500D01, 0x3638EF1D, 0xB2D7322B])) zero32
    let cs := horner w (coefsOf tc [0x3F800000, 0xBF000000, 0x3D2AAAAB, 0xBAB60B61, 0x37D00D01, 0xB493F27E])
    let ki : Int := if s then -(k : Int) else k
    match ((ki + (if cosine then 1 else 0)) % 4).toNat with
    | 0 => sn
    | 1 => cs
    | 2 => neg32 sn
    | _ => neg32 cs
  | v => v

/-! ## Iterations (R93) -/

/-- The guaranteed codes of a function: 0 rcp, 1 rsq, the others one row. -/
def guarantees (k : Nat) : List Nat :=
  match k with
  | 0 => [32, 60, 120, 184]
  | 1 => [32, 56, 112, 184]
  | _ => [24, 64, 120, 176]

/-- The smallest count whose guarantee meets the tolerance, at most 3. -/
def iterations (k tol : Nat) : Nat :=
  if tol = 255 then 3 else Nat.min 3 ((guarantees k).takeWhile fun g => g < tol).length

/-! ## One element (R265, R266) -/

/-- What a function gives: the FP32 value, flags that it raises by itself, whether the value is one that R266 fixes, and the exact
value of the function where that is a number of the form m x 2^e. -/
structure SpecialRes where
  val : FV
  flags : Nat := 0
  fixed : Bool := false
  exact : Option FV := none
deriving DecidableEq, Repr

/-- Whether the function's exact value is infinite. -/
def SpecialRes.endless (r : SpecialRes) : Bool := match r.exact with | some v => v.isInf | none => false

/-- A value that R266 fixes. -/
def fixedVal (v : FV) (flags : Nat) : SpecialRes := { val := v, flags := flags, fixed := true, exact := some v }

/-- A NaN result with NV. -/
def invalidNan : SpecialRes := fixedVal (.nan false) flagNV

/-- The exponent of a magnitude m x 2^e that is a power of two. -/
def powerOf (m : Nat) (e : Int) : Option Int := if m = 2 ^ (bitLen m - 1) then some ((bitLen m : Int) - 1 + e) else none

/-- A result of a procedure, rounded once to FP32: OF where it overflows. -/
def procVal (v : FV) (exact : Option FV) : SpecialRes :=
  let r := toFloat fp32 v 0 false ⟨0, 0⟩
  { val := floatVal fp32 r.1, flags := r.2.flags &&& flagOF, exact := exact }

/-- 1 / a for |a| > 2^126, with its last bit standing for the rest (R266). -/
def exactRcp (s : Bool) (m : Nat) (e : Int) : FV := .fin s (2 * (2 ^ 400 / m) + (if 2 ^ 400 % m = 0 then 0 else 1)) (-401 - e)

/-- A special function of one element: `k` 0 rcp, 1 rsq, 2 exp2, 3 log2, 4 tanh, 5 sigm, 6 sin, 7 cos, at `n` iterations. -/
def specialFn (k n : Nat) (a : FV) : SpecialRes :=
  match a with
  | .nan sig => fixedVal (.nan false) (if sig then flagNV else 0)
  | .inf s =>
    match k with
    | 0 => fixedVal (.fin s 0 0) 0
    | 1 => if s then invalidNan else fixedVal zero32 0
    | 2 => fixedVal (if s then zero32 else .inf false) 0
    | 3 => if s then invalidNan else fixedVal (.inf false) 0
    | 4 => fixedVal (.fin s 1 0) 0
    | 5 => fixedVal (if s then zero32 else one32) 0
    | _ => invalidNan
  | .fin s 0 _ =>
    match k with
    | 0 => fixedVal (.inf s) flagDZ
    | 1 => fixedVal (.inf s) flagDZ
    | 2 => fixedVal one32 0
    | 3 => fixedVal (.inf true) flagDZ
    | 4 => fixedVal (.fin s 0 0) 0
    | 5 => fixedVal (.fin false 1 (-1)) 0
    | 6 => fixedVal (.fin s 0 0) 0
    | _ => fixedVal one32 0
  | .fin s m e =>
    match k with
    | 0 =>
      let x := (powerOf m e).map fun p => FV.fin s 1 (-p)
      if cmpV (a.withSign false) (.fin false 1 126) == .gt then procVal (exactRcp s m e) x else procVal (rcpCore a n) x
    | 1 =>
      if s then invalidNan
      else procVal (rsqCore a n) ((powerOf m e).bind fun p => if p % 2 = 0 then some (.fin false 1 (-(p / 2))) else none)
    | 2 =>
      if cmpV a (intVal 128) != .lt then { val := .inf false, flags := flagOF ||| flagNX, fixed := true }
      else if cmpV a (intVal (-150)) == .lt then { val := zero32, flags := flagUF ||| flagNX, fixed := true }
      else procVal (exp2Core a n) (if cmpV a (intVal (nearestInt a)) == .eq then some (.fin false 1 (nearestInt a)) else none)
    | 3 => if s then invalidNan else procVal (log2Core a n) ((powerOf m e).map intVal)
    | 4 => procVal (tanhCore a n) none
    | 5 => procVal (sigmCore a n) none
    | 6 => procVal (sinCosCore a n false) none
    | _ => procVal (sinCosCore a n true) none

/-- The flags of a delivered pattern `p`, of which its conversion raised `raised`, against the function's exact value (R50, R265): NX
where the two differ, UF where the delivered value is then nonzero and below the smallest normal magnitude. An integer that a source
out of range gives raises NV alone; a special value that R266 fixes keeps its conversion's flags. -/
def specialFlags (r : SpecialRes) (fmt p raised : Nat) : Nat :=
  let kept := raised &&& (flagNV ||| flagDZ ||| flagOF)
  let out := valueOf fmt p
  if r.val.isNan || r.endless then raised ||| r.flags
  else if (intFmt fmt).isSome && raised &&& flagNV != 0 then flagNV ||| (r.flags &&& flagDZ)
  else if out.isNan then raised ||| r.flags
  else
    let same : Bool := match r.exact with | some v => cmpV v out == .eq | none => false
    let small : Bool :=
      match floatFmt fmt, out with
      | some f, .fin _ m e => m ≠ 0 && decide ((bitLen m : Int) - 1 + e < 1 - (f.bias : Int))
      | _, _ => false
    kept ||| (if (intFmt fmt).isSome then r.flags &&& flagDZ else r.flags) ||| (if same then 0 else flagNX ||| (if small then flagUF else 0))

/-- A special function's result delivered to a format (R246, R265): unchanged to FP32, else converted. A value that R266 fixes draws
nothing where it is delivered exactly. -/
def deliverSpecial (r : SpecialRes) (fmt mode : Nat) (sat : Bool) (n : NumSt) : Nat × NumSt :=
  let n0 : NumSt := { n with flags := 0 }
  let p :=
    if fmt = 0 then convert 0 r.val 0 false n0
    else
      let q := convert fmt r.val 1 sat n0
      if r.fixed && q.2.flags &&& flagNX == 0 then q else convert fmt r.val mode sat n0
  (p.1, { p.2 with flags := n.flags ||| specialFlags r fmt p.1 p.2.flags })

end Sys2Proof.Machine
end

