-- ==== Sys2Proof/Machine/Access.lean ====
section
/-! DEFINITION. The ordering machine (R291 to R296): accesses on their way from a source to a bank port, a home or an instruction store,
the clocks that keep causal order between dies (R295), and the steps of R293 that move an access on. -/

namespace Sys2Proof.Machine

/-! ## Accesses under way -/

/-- Whether an access writes. -/
def Access.writes (a : Access) : Bool := a.write.isSome || a.amo.isSome

/-- The die that an access goes to. -/
def destDie (s : State) (d : Dest) : Nat :=
  match d with
  | .home pa => homeDie s pa
  | .bank c _ _ _ => dieOf c
  | .istore c _ => dieOf c

/-- The slice of its home die that holds an address (R217). -/
def sliceOf (pa : Nat) : Nat :=
  let l := pa / 128
  (l % 64) ^^^ (l / 64 % 64) ^^^ (l / 4096 % 64)

/-- Whether two accesses come from one source (R292). -/
def Access.sameSource (a b : Access) : Bool := a.core == b.core && a.sup == b.sup && a.eng == b.eng

/-- Whether two accesses go to one slice of one die. -/
def sameSlice (s : State) (a b : Access) : Bool :=
  match a.dest, b.dest with
  | .home p, .home q => homeDie s p == homeDie s q && sliceOf p == sliceOf q
  | _, _ => false

/-- Whether two accesses touch one location: an aligned 16-byte unit of a home. -/
def sameLocation (a b : Access) : Bool :=
  match a.dest, b.dest with
  | .home p, .home q => decide (p / 16 * 16 < q + b.size) && decide (q / 16 * 16 < p + a.size)
  | _, _ => false

/-- The bank that an access to a table comes to as the table stands, whether or not it is permitted there. -/
def laneBank (s : State) (a : Access) : Option Nat :=
  match a.dest with
  | .bank c sup la _ => match localMap s c sup (ctxOf s c sup) la 0 false with | .ok (.bank i) => some (i / 32768) | _ => none
  | _ => none

/-- Whether two accesses stand in one bank port, through whichever tables (R209, R292), or go to one instruction store. -/
def sameLane (s : State) (a b : Access) : Bool :=
  match a.dest, b.dest with
  | .bank c _ _ _, .bank k _ _ _ => (match laneBank s a, laneBank s b with | some p, some q => p == q | _, _ => c == k)
  | .istore c _, .istore k _ => c == k
  | _, _ => false

/-- The accesses before the one with a name. -/
def before (id : Nat) (l : List Access) : List Access := l.takeWhile fun a => a.id != id

/-- The access with a name. -/
def access (s : State) (id : Nat) : Option Access := s.accesses.find? fun a => a.id == id

/-- An access moves on to its next place, behind those that stand there already: the list holds the accesses of one place in the order in
which they came to it (R217, R292). -/
def moveAccess (a : Access) (s : State) : State := { s with accesses := (s.accesses.filter fun b => b.id != a.id) ++ [a] }

/-- Replaces an access. -/
def putAccess (a : Access) (s : State) : State := { s with accesses := s.accesses.map fun b => if b.id = a.id then a else b }

/-- Takes an access out. -/
def dropAccess (id : Nat) (s : State) : State := { s with accesses := s.accesses.filter fun a => a.id != id }

/-! ## Clocks (R295) -/

/-- CaughtUp(h, e, n): every write issued on die e with a number up to n and homed on die h has been applied. -/
def caughtUp (s : State) (h e n : Nat) : Bool :=
  s.accesses.all fun a => !(a.writes && a.die == e && a.seq != 0 && decide (a.seq ≤ n) && destDie s a.dest == h && a.stage != .served)

/-- ApplyPermitted and ServePermitted. -/
def permitted (s : State) (a : Access) : Bool :=
  let h := destDie s a.dest
  [0, 1, 2, 3].all fun e =>
    e == h || caughtUp s h e (if a.writes && e == a.die then a.seq - 1 else a.clock.getD e 0)

/-! ## Issuing an access (R293, R295) -/

/-- An access enters the machine: it is named, and numbered if it is a write to another die. -/
def post (a : Access) (s : State) : State :=
  let d := dieOf a.core
  let far := destDie s a.dest != d
  let s := if a.writes && far then setDie s d { die s d with vc := clockTick d (die s d).vc } else s
  let vc := (die s d).vc
  let stage : Stage := match a.dest with | .home _ => .buffer | _ => if far then .link else .port
  let a := { a with id := s.nextId, die := d, clock := vc, linked := s.tick, seq := if a.writes && far then vc.getD d 0 else 0, stage := stage }
  let s := { s with nextId := s.nextId + 1, accesses := s.accesses ++ [a] }
  match a.dest with
  | .bank c _ _ true => wakeCore c s
  | .istore c _ => wakeCore c s
  | _ => s

/-! ## Performed at a scope (R296) -/

/-- Whether an access that is still under way has been performed at a scope. -/
def performedAt (s : State) (scope : Nat) (a : Access) : Bool :=
  match a.dest with
  | .home pa =>
    if scope = 0 then a.stage != .buffer
    else if scope ≤ 4 ∧ homeDie s pa ≠ a.die then a.stage == .link || a.stage == .slice || a.stage == .served
    else a.stage == .served
  | _ => a.stage == .served

/-- The accesses of a context. -/
def ctxAccesses (s : State) (c : Nat) (sup : Bool) : List Access := s.accesses.filter fun a => a.core == c && a.sup == sup

/-- Whether every access of a context issued before a tick has been performed at a scope. -/
def quiet (s : State) (c : Nat) (sup : Bool) (scope born : Nat) : Bool :=
  (ctxAccesses s c sup).all fun a => born ≤ a.born || performedAt s scope a

/-- Whether every access of a context has been performed at a scope. -/
def quietAll (s : State) (c : Nat) (sup : Bool) (scope : Nat) : Bool := (ctxAccesses s c sup).all (performedAt s scope)

/-! ## The parts of a copy -/

/-- Changes a copy in flight. -/
def onCopy (c : Nat) (sup : Bool) (id : Nat) (f : Copy → Copy) (s : State) : State :=
  let x := ctxOf s c sup
  setCtxOf s c sup { x with copies := x.copies.map fun p => if p.id = id then f p else p }

/-- The receivers of CMCST (R238): the cores at the operand's position in every selected cluster of every selected die. -/
def CCmd.receivers (m : CCmd) : List Nat :=
  let v := m.len.val.toNat
  let pos := bits m.dst.val.toNat 37 32
  ((List.range 64).filter fun i => bitAt v (48 + i / 16) && bitAt v (32 + i % 16)).map fun i => 64 * i + pos

/-- Whether a command moves elements. -/
def CCmd.elementwise (m : CCmd) : Bool := m.op == .cgth || m.op == .csct

/-- CDST's block size and targets (R237). -/
def CCmd.block (m : CCmd) : Nat := 2 ^ (bits m.len.val.toNat 35 32 + 7)
def CCmd.targets (m : CCmd) : Nat := bits m.len.val.toNat 39 36 + 1

/-- Where a byte of CDST at a target's offset lies in the source (R237). -/
def CCmd.dealt (m : CCmd) (target o : Nat) : Nat := (o / m.block * m.targets + target) * m.block + o % m.block

/-- The pieces of the source that a part takes, each an offset and a size: in CDST one for each block. -/
def Copy.pieces (p : Copy) (part : Nat) : List (Nat × Nat) :=
  let q := p.parts.getD part (0, 0)
  if p.cmd.op = .cdst then
    let t := q.1 / 2 ^ 32
    let o := q.1 % 2 ^ 32
    let m := Nat.min q.2 (p.cmd.block - o % p.cmd.block)
    (p.cmd.dealt t o, m) :: (if m < q.2 then [(p.cmd.dealt t (o + m), q.2 - m)] else [])
  else [q]

/-- The read that brings a byte of the source to a part: its line's, or the element's. -/
def Copy.readAt (p : Copy) (part b : Nat) : Nat :=
  if p.cmd.elementwise then part
  else
    let f := (p.srcs.headD (0, 0)).2
    if b < f then 0 else (b - f) / 128 + 1

/-- The reads that a part takes its bytes from. -/
def Copy.reads (p : Copy) (part : Nat) : List Nat :=
  ((p.pieces part).flatMap fun q => [p.readAt part q.1, p.readAt part (q.1 + q.2 - 1)]).eraseDups

/-- The parts that take bytes from a read. -/
def Copy.partsOf (p : Copy) (read : Nat) : List Nat :=
  if p.cmd.elementwise then [read] else (List.range p.parts.length).filter fun i => (p.reads i).contains read

/-- A fault of a copy: the lowest element's status is kept (R241). -/
def Copy.fault (status elem : Nat) (p : Copy) : Copy :=
  if p.status = 0 ∨ elem < p.elem then { p with status := status, elem := elem } else p

/-- The ELEM of a part (R241): an element, the line of the destination, or the mask position of a receiver. -/
def Copy.elemOf (p : Copy) (part core : Nat) : Nat :=
  match p.cmd.op with
  | .cgth => part
  | .csct => part
  | .cmcst => core / 1024 * 16 + core / 64 % 16
  | _ =>
    let d := bits p.cmd.dst.val.toNat 31 0
    (d % 128 + ((p.pieces part).headD (0, 0)).1) / 128

/-- A part is done. -/
def Copy.finishPart (part : Nat) (p : Copy) : Copy :=
  { p with left := tdel p.left part, done := if p.done.contains part then p.done else p.done ++ [part] }

/-- A part faults before anything of it is written. -/
def Copy.failPart (status core : Nat) (p : Copy) (part : Nat) : Copy := (p.fault status (p.elemOf part core)).finishPart part

/-- A read faults (R241): every part that takes bytes from it is done with nothing written. A multicast's fault is its first receiver's. -/
def Copy.failRead (status core : Nat) (p : Copy) (read : Nat) : Copy :=
  (p.partsOf read).foldl (Copy.failPart status (if p.cmd.op = .cmcst then p.cmd.receivers.headD core else core)) p

/-! ## Performing at a bank port (R194, R201, R233, R293, R301) -/

/-- What the check at the port comes to: the place, a wait, or a status of R241. -/
inductive PortRes where
  | ok (p : Place)
  | wait
  | bad (status : Nat)
deriving DecidableEq, Repr

/-- The status of a local cause (R241). -/
def localStatus (cause : Nat) : Nat := if cause = 0x13 then 4 else if cause = 0x14 then 5 else if cause = 0x0A then 4 else 6

/-- The table check of a bank access at this moment. -/
def portCheck (s : State) (a : Access) (c : Nat) (sup : Bool) (la : Nat) (check : Bool) : PortRes :=
  let k := core s c
  let own := if check then c == a.core && !a.sup else true
  if check && !powered k then .wait
  else if check && !k.uload then .bad (if a.eng = 2 then 4 else 7)
  else if check && k.killing then .bad 7
  else if check && (match a.tenant with | some p => !tenantOk p k.user | none => false) then .bad 7
  else
    match localMap s c sup (ctxOf s c sup) la a.need own with
    | .ok p => .ok p
    | .wait => .wait
    | .bad e => .bad (localStatus e)

/-- The ring whose slots a copy's line fills (R207): the bank's, where a copy writes into one. -/
def lineRing (s : State) (a : Access) (p : Place) : Option (Nat × Ring × Nat) :=
  match p with
  | .bank i => if a.eng = 3 ∧ i / 32768 < bankCount then (bankAt s (i / 32768)).ring.map fun r => (i / 32768, r, i % 32768) else none
  | .sram _ => none

/-- The slots that copies have written whole are filled, in the order in which they were taken (R207). -/
def Ring.settle (r : Ring) : List (Nat × Nat) → Ring
  | (k, n) :: t => if 2 ^ r.sz ≤ n then Ring.settle { r with filled := r.filled + 1 } t else { r with begun := (k, n) :: t }
  | [] => { r with begun := [] }

/-- Whether a copy's line at an offset of a ring's bank waits (R207): it would begin a slot that is not TAIL, or none is free (DEDUCED, entry
101). -/
def Ring.lineWaits (r : Ring) (off : Nat) : Bool :=
  let k := off / 2 ^ r.sz
  decide (k < r.cnt) && !(r.begun.any fun p => p.1 == k) && (r.free == 0 || r.tail != k)

/-- A copy's line meets the ring's counters (R207): the first line of a slot to be performed takes slot TAIL, and the slot is filled once its
last byte has been performed, after the slots taken before it. -/
def ringLine (gb : Nat) (r : Ring) (off n : Nat) (s : State) : State :=
  let k := off / 2 ^ r.sz
  if r.cnt ≤ k then s
  else
    let r := if r.begun.any fun p => p.1 == k then r
      else { r with free := r.free - 1, tail := (r.tail + 1) % r.cnt, begun := r.begun ++ [(k, 0)] }
    setBank s gb { bankAt s gb with ring := some (r.settle (r.begun.map fun p => if p.1 = k then (k, p.2 + n) else p)) }

/-- A part's write has been performed; the part is done when none is left. -/
def Copy.written (part : Nat) (p : Copy) : Copy :=
  let n := tget p.left part 1
  if n ≤ 1 then p.finishPart part else { p with left := tset p.left part (n - 1) }

/-- Adds to a receiving context's byte barrier (R238). -/
def addBarrier (c : Nat) (sup : Bool) (bar n : Nat) (s : State) : State :=
  if bar = 0 then s
  else
    let x := ctxOf s c sup
    setCtxOf s c sup { x with barr := tset x.barr bar ((tget x.barr bar 0 + n) % 2 ^ 64) }

/-- Changes a command on the store path of the matrix unit. -/
def onStore (c : Nat) (sup : Bool) (id : Nat) (f : MStore → MStore) (s : State) : State :=
  let x := ctxOf s c sup
  setCtxOf s c sup { x with mstores := x.mstores.map fun p => if p.id = id then f p else p }

/-- A line of a matrix store fails: the lowest one's status is kept (R283, R285). -/
def MStore.fault (status elem : Nat) (p : MStore) : MStore :=
  if p.status = 0 ∨ elem < p.elem then { p with status := status, elem := elem } else p

/-- The matrix unit's code for a table's status (R285). -/
def matrixStatus (status : Nat) : Nat := if status = 6 then 17 else if status = 7 then 14 else status

/-- A copy's write that has been performed. -/
def noteWritten (a : Access) (s : State) : State := if a.eng = 3 then onCopy a.core a.sup a.copy (Copy.written a.part) s else s

/-- An access of an engine that failed with a status: nothing of it is written. -/
def noteFault (a : Access) (status core : Nat) (s : State) : State :=
  if a.eng = 3 then
    onCopy a.core a.sup a.copy (fun p =>
      if a.write.isNone then p.failRead status core a.part else (p.fault status (p.elemOf a.part core)).written a.part) s
  else onStore a.core a.sup a.copy (MStore.fault (matrixStatus status) a.part) s

/-- Whether the port may perform an access now: it is its source's oldest there, and the causal rule permits a write that has
crossed a die link (R295). -/
def portTurn (s : State) (a : Access) : Bool :=
  (before a.id s.accesses).all (fun b => !(b.stage == .port && a.sameSource b && sameLane s a b)) && (!a.writes || a.seq == 0 || permitted s a)

/-- Whether a bank access waits at the port. -/
def portWaits (s : State) (a : Access) : Bool :=
  match a.dest with
  | .bank c sup la check =>
    match portCheck s a c sup la check with
    | .wait => true
    | .bad _ => false
    | .ok p =>
      match a.write, lineRing s a p with
      | some _, some (_, r, off) => r.lineWaits off
      | _, _ => false
  | .istore c _ => !powered (core s c)
  | .home _ => false

/-- Words reach an instruction store, each as a whole, unless the word belongs to the supervisor (R122, R334). -/
def remoteStores (c : Nat) (own : Bool) : Nat → List Byte → State → State
  | a, b0 :: b1 :: b2 :: b3 :: t, s =>
    let s := if (core s c).tlim ≤ a % 65536 ∧ !own then s else writeStore c a (BitVec.ofNat 32 (ofBytes [b0, b1, b2, b3])) s
    remoteStores c own (a + 4) t s
  | _, _, s => s

/-- An access performed at its port: a read is served, a write is written, and a failed check ends the access with its status. -/
def performPort (a : Access) (s : State) : State :=
  match a.dest with
  | .istore c addr =>
    noteWritten a (remoteStores c (a.core == c && a.sup) addr (a.write.getD []) (dropAccess a.id s))
  | .home _ => s
  | .bank c sup la check =>
    match portCheck s a c sup la check with
    | .wait => s
    | .bad status => noteFault a status c (dropAccess a.id s)
    | .ok p =>
      match a.write with
      | none => putAccess { a with stage := .served, clock := locationClock s p.loc a.size, val := placeBytes s p a.size } s
      | some b =>
        let s := dropAccess a.id s
        let s := match lineRing s a p with | some (gb, r, off) => ringLine gb r off a.size s | none => s
        noteWritten a (addBarrier c sup a.bar a.size (setLocationClock p.loc a.size a.clock (writePlace a.core (Nat.min a.eng 3) p b s)))

/-! ## At the home -/

/-- FRADD's sum (R231): FADD's rules under nearest-even, every NaN 0x7FC0_0000. -/
def fraddSum (old y : Nat) : Nat := (toFloat fp32 (addV (floatVal fp32 old) (floatVal fp32 y) 0).1 0 false ⟨0, 0⟩).1

/-- The new value that an atomic of `n` bytes gives (R230). -/
def amoResult (op n old y cmp : Nat) : Nat :=
  let w := 8 * n
  match op with
  | 0 => (old + y) % 2 ^ w
  | 1 => if signed w y < signed w old then y else old
  | 2 => if signed w old < signed w y then y else old
  | 3 => Nat.min old y
  | 4 => Nat.max old y
  | 5 => old &&& y
  | 6 => old ||| y
  | 7 => old ^^^ y
  | 8 => y
  | 9 => if old = cmp then y else old
  | _ => fraddSum old y

/-- Sets the tags that a write carries, unit by unit (R218). -/
def setTags (u : Nat) : List Bool → State → State
  | [], s => s
  | t :: r, s => setTags (u + 1) r (if t then setTag s (16 * u) true else s)

/-- The tags of the units of an extent of whole units. -/
def unitTags (s : State) (pa n : Nat) : List Bool :=
  if pa % 16 = 0 ∧ n % 16 = 0 then (List.range (n / 16)).map fun i => homeTag s (pa + 16 * i) else []

/-- An atomic at its home: the read, the operation and the write as one step (R231); `.q` moves the unit's tag (R230). -/
def applyAmo (a : Access) (m : Amo) (pa : Nat) (s : State) : State × Nat × Bool :=
  let old := homeRead s pa a.size
  let tag := a.size == 16 && homeTag s pa
  let y := m.y.val.toNat % 2 ^ (8 * a.size)
  let skip := m.op == 9 && old != m.cmp.toNat % 2 ^ (8 * a.size)
  let s := if skip then s else
    let s := homeWriteNat s pa a.size (amoResult m.op a.size old y (m.cmp.toNat % 2 ^ (8 * a.size)))
    if a.size == 16 && m.y.tag && m.sc then setTag s pa true else s
  (s, old, tag)

/-- Whether an access is its source's oldest to its location at a slice, and the causal rule permits it: it is not held (R217). -/
def sliceReady (s : State) (a : Access) : Bool :=
  (before a.id s.accesses).all (fun b => !(b.stage == .slice && a.sameSource b && sameLocation a b)) && permitted s a

/-- Whether a home may take an access now (R217): it is not held, and every earlier arrival at its location is. -/
def homeTurn (s : State) (a : Access) : Bool :=
  sliceReady s a && (before a.id s.accesses).all fun b => !(b.stage == .slice && sameLocation a b && sliceReady s b)

/-- An access applied or served at its home (R293, R294). -/
def performHome (a : Access) (pa : Nat) (s : State) : State :=
  match a.write, a.amo with
  | some b, _ =>
    let s := setTags (pa / 16) a.tags (homeWrite (dropAccess a.id s) pa b)
    noteWritten a (setLocationClock pa a.size a.clock s)
  | none, some m =>
    let clk := locationClock s pa a.size
    let r := applyAmo a m pa s
    let s := setLocationClock pa a.size a.clock r.1
    if a.reg.isSome then putAccess { a with stage := .served, clock := clk, val := toBytes a.size r.2.1, vtags := [r.2.2] } s
    else dropAccess a.id s
  | none, none =>
    putAccess { a with stage := .served, clock := locationClock s pa a.size, val := homeBytes s pa a.size, vtags := unitTags s pa a.size } s

/-- HOME_APPLY (R293, R295). -/
def execHomeApply (id : Nat) (s : State) : Out :=
  let s := taken (.homeApply id) s
  match access s id with
  | some a =>
    match a.dest with
    | .home pa =>
      .next (if a.stage == .slice && homeTurn s a then performHome a pa (if cxlDead s pa then lossRecord a.core a.sup 4 pa s else s) else s)
    | _ => .next s
  | none => .next s

/-! ## On the way (R293) -/

/-- ACCESS_FORWARD (R293): the oldest global access of a buffer enters the interface lane of its slice. -/
def execAccessForward (id : Nat) (s : State) : Out :=
  let s := taken (.accessForward id) s
  match access s id with
  | some a =>
    if a.stage == .buffer && (before id s.accesses).all fun b => !(b.stage == .buffer && a.sameSource b && sameSlice s a b) then
      .next (moveAccess { a with stage := .lane } s)
    else .next s
  | none => .next s

/-- ACCESS_SEND (R293): the oldest access of a lane enters the slice's queue, or the die link. -/
def execAccessSend (id : Nat) (s : State) : Out :=
  let s := taken (.accessSend id) s
  match access s id with
  | some a =>
    if a.stage == .lane && (before id s.accesses).all fun b => !(b.stage == .lane && a.core == b.core && sameSlice s a b) then
      .next (moveAccess { a with stage := if destDie s a.dest = a.die then .slice else .link, linked := s.tick } s)
    else .next s
  | none => .next s

/-- The message that an event carries. -/
def msgOf : Event → Option Msg
  | .messageArrival m => some m
  | .taggedMessageArrival m => some m
  | _ => none

/-- Whether a message crosses the link from one die to another (R292). -/
def onLink (d h : Nat) (m : Msg) : Bool := d != h && dieOf m.src == d && dieOf m.target == h

/-- Whether a message entered an access's die link before it. -/
def msgAhead (s : State) (a : Access) : Bool :=
  s.flight.any fun e => match msgOf e with | some m => onLink a.die (destDie s a.dest) m && decide (m.sent < a.linked) | none => false

/-- LINK_CROSS (R293): the oldest entry of a die link, messages among them, reaches its slice or its bank port. -/
def execLinkCross (id : Nat) (s : State) : Out :=
  let s := taken (.linkCross id) s
  match access s id with
  | some a =>
    let ahead (b : Access) : Bool := b.stage == .link && b.die == a.die && destDie s b.dest == destDie s a.dest
    if a.stage == .link && !msgAhead s a && (before id s.accesses).all fun b => !ahead b then
      .next (moveAccess { a with stage := match a.dest with | .home _ => .slice | _ => .port } s)
    else .next s
  | none => .next s

/-! ## Returning (R293, R298) -/

/-- A value delivered to a register with its tag. -/
def deliverReg (c : Nat) (sup : Bool) (n : Nat) (r : Reg) (s : State) : State :=
  let s := deliver c sup n r.val s
  if r.tag then
    let x := ctxOf s c sup
    setCtxOf s c sup (setReg x n r)
  else s

/-- A read's bytes reach the register of the sequencer. -/
def returnToReg (a : Access) (n : Nat) (s : State) : State :=
  deliverReg a.core a.sup n { val := extend a.sg a.size a.val, tag := a.size == 16 && a.lc && a.vtags.headD false } s

end Sys2Proof.Machine
end

