-- ==== Sys2Proof/Machine/Float.lean ====
section
/-! DEFINITION. The scalar floating-point instructions (R167 to R171). -/

namespace Sys2Proof.Machine

/-- An operand of a scalar float instruction: K[r] read in the format coded. -/
def fval (f : BitVec 2) (r : BitVec 6) (s : State) : FV := scalarVal f.toNat (rn s r)

/-- An exact result with its flags, rounded once under the mode of R167 without saturation, is written to K[d] (R167). -/
def floatDone (d : BitVec 6) (f : BitVec 2) (r : FV × Nat) (s : State) : State :=
  let p := convert f.toNat r.1 (roundMode (cx s)) false ((curCore s).num.raise r.2)
  numDone d p.1 p.2 s

/-- FADD (R168). -/
def execFadd (d a b : BitVec 6) (f : BitVec 2) (s : State) : Out :=
  rounding (fun s => .next (floatDone d f (addV (fval f a s) (fval f b s) (roundMode (cx s))) s)) s

/-- The negative of a value, as FSUB and VSUB use it. -/
def negV (v : FV) : FV := v.withSign (!v.neg)

/-- FSUB (R168). -/
def execFsub (d a b : BitVec 6) (f : BitVec 2) (s : State) : Out :=
  rounding (fun s => .next (floatDone d f (addV (fval f a s) (negV (fval f b s)) (roundMode (cx s))) s)) s

/-- FMUL (R168). -/
def execFmul (d a b : BitVec 6) (f : BitVec 2) (s : State) : Out :=
  rounding (fun s => .next (floatDone d f (mulV (fval f a s) (fval f b s)) s)) s

/-- FFMA (R168): the addend is the old K[d]. -/
def execFfma (d a b : BitVec 6) (f : BitVec 2) (s : State) : Out :=
  rounding (fun s => .next (floatDone d f (fmaV (fval f a s) (fval f b s) (fval f d s) (roundMode (cx s))) s)) s

/-- A result that is one of the operands (R169): exact, so nothing is drawn for it. -/
def pickDone (d : BitVec 6) (f : BitVec 2) (r : FV × Nat) (s : State) : State :=
  let p := convert f.toNat r.1 0 false ((curCore s).num.raise r.2)
  numDone d p.1 p.2 s

/-- FMIN (R169). -/
def execFmin (d a b : BitVec 6) (f : BitVec 2) (s : State) : Out := .next (pickDone d f (minmaxV false (fval f a s) (fval f b s)) s)

/-- FMAX (R169). -/
def execFmax (d a b : BitVec 6) (f : BitVec 2) (s : State) : Out := .next (pickDone d f (minmaxV true (fval f a s) (fval f b s)) s)

/-- A comparison's truth value and flags: `quiet` raises NV for a signalling NaN alone (R169). -/
def compareV (quiet : Bool) (test : Ordering → Bool) (a b : FV) : Bool × Nat :=
  if a.isNan || b.isNan then (false, if !quiet || a.isSig || b.isSig then flagNV else 0) else (test (cmpV a b), 0)

/-- Writes a comparison's truth value. -/
def cmpDone (d : BitVec 6) (r : Bool × Nat) (s : State) : State :=
  finish (putNat d (b2n r.1) (setCx s ((cx s).raise r.2)))

/-- FEQ (R169). -/
def execFeq (d a b : BitVec 6) (f : BitVec 2) (s : State) : Out :=
  .next (cmpDone d (compareV true (· == .eq) (fval f a s) (fval f b s)) s)

/-- FLT (R169). -/
def execFlt (d a b : BitVec 6) (f : BitVec 2) (s : State) : Out :=
  .next (cmpDone d (compareV false (· == .lt) (fval f a s) (fval f b s)) s)

/-- FLE (R169). -/
def execFle (d a b : BitVec 6) (f : BitVec 2) (s : State) : Out :=
  .next (cmpDone d (compareV false (fun o => o == .lt || o == .eq) (fval f a s) (fval f b s)) s)

/-- FCVT (R171): a conversion of R51 to R55; between equal formats the value is unchanged but for NaNs. -/
def execFcvt (d a : BitVec 6) (sf tf : BitVec 5) (s : State) : Out :=
  rounding (fun s =>
    let x := cx s
    let p := convert tf.toNat (scalarVal sf.toNat (rn s a)) (roundMode x) (fmtSat x.fmt) (curCore s).num
    .next (numDone d p.1 p.2 s)) s

/-- The class of a pattern as its bit number (R170). -/
def classOf (fmt p : Nat) : Nat :=
  match scalarVal fmt p with
  | .inf true => 0
  | .inf false => 7
  | .nan true => 8
  | .nan false => 9
  | .fin neg m e =>
    if m = 0 then (if neg then 3 else 4)
    else
      let small := match floatFmt fmt with | some f => decide ((bitLen m : Int) - 1 + e < 1 - f.bias) | none => false
      if small then (if neg then 2 else 5) else (if neg then 1 else 6)

/-- FCLAS (R170). -/
def execFclas (d a : BitVec 6) (f : BitVec 4) (s : State) : Out := .next (finish (putNat d (2 ^ classOf f.toNat (rn s a)) s))

/-- FSGNJ (R170): on patterns, with no flag. -/
def execFsgnj (d a b : BitVec 6) (v f : BitVec 2) (s : State) : Out :=
  let w := elemBits f.toNat
  let sa := bitAt (rn s a) (w - 1)
  let sb := bitAt (rn s b) (w - 1)
  let sg := if v = 0 then sb else if v = 1 then !sb else sa != sb
  .next (finish (putNat d (rn s a % 2 ^ (w - 1) + fld (b2n sg) (w - 1)) s))

end Sys2Proof.Machine
end

