-- ==== Sys2Proof/Machine/Capability.lean ====
section
/-! DEFINITION. Capabilities (R146) and the capability instructions (R172 to R175). -/

namespace Sys2Proof.Machine

/-! ## Fields (R146) -/

def capAddr (c : Nat) : Nat := bits c 51 0
def capBase (c : Nat) : Nat := bits c 65 52
def capTop (c : Nat) : Nat := bits c 79 66
def capExp (c : Nat) : Nat := bits c 85 80
def capLD (c : Nat) : Bool := bitAt c 86
def capSD (c : Nat) : Bool := bitAt c 87
def capLC (c : Nat) : Bool := bitAt c 88
def capSC (c : Nat) : Bool := bitAt c 89
def capML (c : Nat) : Bool := bitAt c 90
def capMC (c : Nat) : Bool := bitAt c 91
def capIS (c : Nat) : Bool := bitAt c 92
def capAT (c : Nat) : Bool := bitAt c 93
def capSeal (c : Nat) : Nat := bits c 105 102

/-- CapBounds (R146), on exact integers: [base, top). -/
def capBounds (c : Nat) : Int × Int :=
  let e := capExp c
  let a := capAddr c
  let hi : Int := a / 2 ^ (e + 14)
  let hi := if (a / 2 ^ e) % 2 ^ 14 < capBase c then hi - 1 else hi
  let base := (hi * 2 ^ 14 + capBase c) * 2 ^ e
  (base, base + capTop c * 2 ^ e)

/-- The access check (R146): n bytes at address a lie within the bounds. -/
def capIn (c : Nat) (a : Int) (n : Nat) : Bool := decide ((capBounds c).1 ≤ a) && decide (a + n ≤ (capBounds c).2)

/-- Representable (R146): the value with its new ADDR has the bounds of the old one. -/
def representable (c c' : Nat) : Bool := capBounds c == capBounds c'

/-- Whether an address is in the core space (R233). -/
def inCoreSpace (a : Nat) : Bool := bits a 51 44 == 0xFF

/-- Writes a register with the tag given, and completes the word. -/
def capDone (d : BitVec 6) (v : Nat) (t : Bool) (s : State) : State := finish (putReg d { val := BitVec.ofNat 128 v, tag := t } s)

/-! ## The instructions -/

/-- The least exponent from `e` on, at most 38, at which the rounded bounds fit in TOP (R173). -/
def leastExp (base len : Nat) : Nat → Nat → Option Nat
  | 0, _ => none
  | fuel + 1, e =>
    if ceilDiv (base + len) (2 ^ e) - base / 2 ^ e ≤ 16383 then some e else leastExp base len fuel (e + 1)

/-- CSETB's result and tag (R173). -/
def csetbResult (c len : Nat) (t exact : Bool) : Nat × Bool :=
  let base := capAddr c
  match leastExp base len 39 0 with
  | none => (c, false)
  | some e =>
    let nb := base / 2 ^ e * 2 ^ e
    let nt := ceilDiv (base + len) (2 ^ e) * 2 ^ e
    let n := setBits (setBits (setBits c 85 80 e) 65 52 (nb / 2 ^ e)) 79 66 ((nt - nb) / 2 ^ e)
    let pb := (capBounds c).1
    let pt := (capBounds c).2
    let ok := t && capSeal c == 0 && decide (pb ≤ nb) && decide ((nt : Int) ≤ pt) && decide (nt ≤ 2 ^ 52)
    (n, ok && !(exact && (nb != base || nt != base + len)))

/-- CSETB (R173). -/
def execCsetb (d a b : BitVec 6) (x : Bool) (s : State) : Out :=
  let r := csetbResult (rn s a) (rn s b) (rk s a).tag x
  .next (capDone d r.1 r.2 s)

/-- CPERM (R174). -/
def execCperm (d a b : BitVec 6) (s : State) : Out :=
  let c := rn s a
  .next (capDone d (setBits c 93 86 (bits c 93 86 &&& bits (rn s b) 7 0)) ((rk s a).tag && capSeal c == 0) s)

/-- COFF (R174). -/
def execCoff (d a b : BitVec 6) (s : State) : Out :=
  let c := rn s a
  let v : Int := capAddr c + signed 128 (rn s b)
  let n := setBits c 51 0 (wrap 52 v)
  .next (capDone d n ((rk s a).tag && capSeal c == 0 && decide (0 ≤ v) && decide (v < (2 ^ 52 : Nat)) && representable c n) s)

/-- CSEAL (R174). -/
def execCseal (d a : BitVec 6) (s : State) : Out :=
  .next (capDone d (setBits (rn s a) 105 102 1) ((rk s a).tag && capSeal (rn s a) == 0) s)

/-- CGADR (R175). -/
def execCgadr (d a : BitVec 6) (s : State) : Out := .next (capDone d (capAddr (rn s a)) false s)

/-- CGBAS (R175). -/
def execCgbas (d a : BitVec 6) (s : State) : Out := .next (capDone d (wrap 128 (capBounds (rn s a)).1) false s)

/-- CGLEN (R175). -/
def execCglen (d a : BitVec 6) (s : State) : Out :=
  let b := capBounds (rn s a)
  .next (capDone d (wrap 128 (b.2 - b.1)) false s)

/-- CGPRM (R175). -/
def execCgprm (d a : BitVec 6) (s : State) : Out :=
  let c := rn s a
  .next (capDone d (bits c 93 86 + fld (capSeal c) 8 + fld (b2n (rk s a).tag) 12) false s)

/-- CCLRT (R175). -/
def execCclrt (d a : BitVec 6) (s : State) : Out := .next (capDone d (rn s a) false s)

/-- CAPMV (R175). -/
def execCapmv (d a : BitVec 6) (s : State) : Out := .next (capDone d (rn s a) (rk s a).tag s)

end Sys2Proof.Machine
end

