-- ==== Sys2Proof/Machine/Segments.lean ====
section
/-! DEFINITION. Segments: their layout (R41 to R45), measured error (R46, R80, R92), and encoding (R56, R91, R260). -/

namespace Sys2Proof.Machine

/-! ## Layout (R43, R44) -/

/-- A block-exponent format: element width, magnitude bits, fraction shift, pair bits, elements of each block. -/
structure BxFmt where
  w : Nat
  mb : Nat
  fs : Nat
  pb : Nat
  per : List Nat
deriving DecidableEq, Repr

/-- The block-exponent format of a code (R44). -/
def bxFmt : Nat → Option BxFmt
  | 17 => some ⟨7, 6, 5, 15, [64, 64, 64, 64]⟩
  | 18 => some ⟨4, 3, 2, 9, [96, 96, 64]⟩
  | 19 => some ⟨2, 1, 0, 5, [128, 128]⟩
  | _ => none

/-- How a segment is read (R43). -/
inductive SegHead where
  | z
  | bx (f : Nat)
  | fp16
  | malformed
deriving DecidableEq, Repr

/-- Bytes 0 and 1 of block 0 decide how a segment is read (R43). -/
def segHead (wide : Bool) (b0 b1 : Nat) : SegHead :=
  if b0 = 31 ∨ (b0 = 0 ∧ b1 = 0) then .z
  else if b0 = 17 ∨ b0 = 18 ∨ b0 = 19 then .bx b0
  else if b0 = 2 ∧ wide then .fp16
  else .malformed

/-- The block and the place in it of element `k` of a BX segment. -/
def bxPlace (f : BxFmt) (k : Nat) : Nat × Nat := (k / f.per.headD 1, k % f.per.headD 1)

/-- Element `i` of a BX block of which `v` is the whole 64-byte value (R44). -/
def bxElem (f : BxFmt) (v i : Nat) : FV :=
  let e := bits v 15 8
  let pair := v / 2 ^ (16 + f.pb * (i / 2)) % 2 ^ f.pb
  let el := if i % 2 = 0 then bits pair f.w 1 else bits pair (2 * f.w) (f.w + 1)
  if e = 255 then .fin false 0 0
  else .fin (bitAt el (f.w - 1)) (el % 2 ^ (f.w - 1)) ((e : Int) - 127 - (pair % 2 : Nat) - f.fs)

/-- An element of an FP16 segment: its pattern under block 0's SCALE (R45). -/
def fp16Elem (scale p : Nat) : FV := if scale = 255 then .fin false 0 0 else (valueOf 2 p).scale ((scale : Int) - 127)

/-- The blocks in use of a segment (R43). -/
def blocksOf : SegHead → Nat
  | .z => 1
  | .bx 17 => 4
  | .bx 18 => 3
  | .bx _ => 2
  | .fp16 => 9
  | .malformed => 1

/-! ## Measured error (R46, R80, R92) -/

/-- The least exponent among values. -/
def leastExpo (l : List FV) : Int := l.foldl (fun e v => if v.isZero || v.isInf || v.isNan then e else if v.expo < e then v.expo else e) 0

/-- The greatest of a list. -/
def maxNat (l : List Nat) : Nat := l.foldl Nat.max 0

/-- The largest k, at most 254, with 2^k x dev^8 <= big^8: the floor of -8 log2 of their ratio. -/
def errFloor (dev big : Nat) : Nat :=
  let nu := big ^ 8
  let de := dev ^ 8
  if nu < de then 0
  else
    let k := bitLen nu - bitLen de
    Nat.min 254 (if nu < de * 2 ^ k then k - 1 else k)

/-- ERR of stored values `qs` for inputs `xs` (R46, R92). -/
def measureErr (xs qs : List FV) : Nat :=
  if xs.any fun x => x.isNan || x.isInf then 0
  else
    let e := leastExpo (xs ++ qs)
    let big := maxNat (xs.map fun x => (x.at e).natAbs)
    let dev := maxNat (List.zipWith (fun x q => (x.at e - q.at e).natAbs) xs qs)
    if dev = 0 then 255 else errFloor dev big

/-- Whether a measured code meets a requirement (R80). -/
def meets (err share : Nat) : Bool := if share = 255 then err == 255 else share ≤ err

/-! ## Encoding (R56, R260) -/

/-- The segment's flags (R42). -/
def segSat : Nat := 1
def segNan : Nat := 2
def segMet : Nat := 4

/-- The floor of log2 of a nonzero finite magnitude. -/
def log2V : FV → Int
  | .fin _ m e => (bitLen m : Int) - 1 + e
  | _ => 0

/-- The greatest floor of log2 among the finite nonzero values, if there is one. -/
def maxLog (l : List FV) : Option Int :=
  l.foldl (fun r v =>
    match v with
    | .fin _ (_ + 1) _ => (match r with | none => some (log2V v) | some k => some (if k < log2V v then log2V v else k))
    | _ => r) none

/-- A magnitude rounded to a multiple of 2^k: to nearest, ties away under rna, else to even. -/
def nearest (rna : Bool) (m : Nat) (e k : Int) : Nat × Bool := roundTo false m e k (if rna then 4 else 0) 0

/-- Whether an element allows micro-exponent 1 at step 2^k (R260). -/
def fitsHalf (f : BxFmt) (rna : Bool) (k : Int) : FV → Bool
  | .nan _ => true
  | .inf _ => false
  | .fin _ m e => (nearest rna m e k).1 ≤ 2 ^ f.mb - 1

/-- An encoded element: sign, magnitude, flags for %fexc, flags of the segment (R52, R54, R260). -/
def bxEncode (f : BxFmt) (rna : Bool) (k : Int) : FV → Bool × Nat × Nat × Nat
  | .nan _ => (false, 0, flagNV, segNan)
  | .inf s => (s, 2 ^ f.mb - 1, flagNV, segSat)
  | .fin s m e =>
    let r := nearest rna m e k
    if 2 ^ f.mb ≤ r.1 then (s, 2 ^ f.mb - 1, flagOF ||| flagNX, segSat)
    else (s && r.1 != 0, r.1, if r.2 then flagNX else 0, 0)

/-- An encoding under way: what the blocks hold, the stored values, flags for %fexc and of the segment. -/
structure Enc where
  blocks : List (List Byte)
  vals : List FV
  flags : Nat
  seg : Nat
deriving DecidableEq, Repr

/-- The pairs of a block: the field's bits from pair `j` on (R44, R260). -/
def bxPairs (f : BxFmt) (rna : Bool) (e : Nat) : Nat → List FV → Nat × List FV × Nat × Nat
  | j, a :: b :: t =>
    let k : Int := (e : Int) - 127 - f.fs
    let mu := if fitsHalf f rna (k - 1) a && fitsHalf f rna (k - 1) b then 1 else 0
    let ra := bxEncode f rna (k - (mu : Nat)) a
    let rb := bxEncode f rna (k - (mu : Nat)) b
    let el (r : Bool × Nat × Nat × Nat) : Nat := fld (b2n r.1) f.mb + r.2.1
    let pair := mu + fld (el ra) 1 + fld (el rb) (f.w + 1)
    let q (r : Bool × Nat × Nat × Nat) : FV := if e = 255 then .fin false 0 0 else .fin r.1 r.2.1 (k - (mu : Nat))
    let rest := bxPairs f rna e (j + 1) t
    (fld pair (f.pb * j) + rest.1, q ra :: q rb :: rest.2.1, ra.2.2.1 ||| rb.2.2.1 ||| rest.2.2.1,
      ra.2.2.2 ||| rb.2.2.2 ||| rest.2.2.2)
  | _, _ => (0, [], 0, 0)

/-- One BX block (R260), with ERR and FLAGS still zero. -/
def bxBlock (code : Nat) (f : BxFmt) (rna : Bool) (xs : List FV) : Enc :=
  let e : Nat := match maxLog xs with
    | some l => (127 + l).toNat
    | none => if xs.any FV.isInf then 254 else 255
  let p := bxPairs f rna e 0 xs
  { blocks := [toBytes 62 (code + fld e 8 + fld p.1 16)], vals := p.2.1, flags := p.2.2.1, seg := p.2.2.2 }

/-- The blocks of a BX segment. -/
def bxBlocks (code : Nat) (f : BxFmt) (rna : Bool) : List Nat → List FV → Enc
  | [], _ => ⟨[], [], 0, 0⟩
  | n :: r, xs =>
    let a := bxBlock code f rna (xs.take n)
    let b := bxBlocks code f rna r (xs.drop n)
    ⟨a.blocks ++ b.blocks, a.vals ++ b.vals, a.flags ||| b.flags, a.seg ||| b.seg⟩

/-- The elements of an FP16 segment (R260): the patterns, their values, the flags. -/
def fp16Elems (rna : Bool) (e : Nat) : List FV → List Nat × List FV × Nat
  | [] => ([], [], 0)
  | x :: t =>
    let r := toFloat ⟨5, 10, 15, 0⟩ (x.scale (127 - (e : Int))) (if rna then 4 else 0) false ⟨0, 0⟩
    let rest := fp16Elems rna e t
    (r.1 :: rest.1, fp16Elem e r.1 :: rest.2.1, r.2.flags ||| rest.2.2)

/-- An FP16 segment (R45, R260): block 0 holds the header, blocks 1 to 8 the elements. A NaN under SCALE 0xFF reads as +0, so it is
recorded as dropped (R46). -/
def fp16Seg (rna : Bool) (xs : List FV) : Enc :=
  let e : Nat := match maxLog xs with
    | some l => Nat.min 254 (127 + l - 14).toNat
    | none => if xs.any FV.isInf then 0 else 255
  let r := fp16Elems rna e xs
  let data := r.1.flatMap (toBytes 2)
  { blocks := toBytes 62 (2 + fld e 8) :: (List.range 8).map fun b => (data.drop (64 * b)).take 64
    vals := r.2.1, flags := r.2.2, seg := if e = 255 && xs.any FV.isNan then segNan else 0 }

/-- A Z segment (R43, R56): block 0 alone; NV for each NaN or infinity, NX for each nonzero finite element. -/
def zSeg (xs : List FV) : Enc :=
  { blocks := [BitVec.ofNat 8 0x1F :: List.replicate 63 0], vals := xs.map fun _ => .fin false 0 0
    flags := xs.foldl (fun f x => f ||| (if x.isNan || x.isInf then flagNV else if x.isZero then 0 else flagNX)) 0, seg := 0 }

/-- A candidate: 31 Z, 17 to 19 BX, 2 FP16. -/
def encodeAs (code : Nat) (rna : Bool) (xs : List FV) : Enc :=
  match bxFmt code with
  | some f => bxBlocks code f rna f.per xs
  | none => if code = 2 then fp16Seg rna xs else zSeg xs

/-- The tail of every block in use but those that hold FP16 elements alone (R42). -/
def withTail (code err seg : Nat) (l : List (List Byte)) : List (List Byte) :=
  if code = 31 then l
  else l.map fun b => if b.length = 62 then b ++ [BitVec.ofNat 8 err, BitVec.ofNat 8 seg] else b

/-- The first candidate whose ERR meets the share, else the last (R91). -/
def chooseEnc (share : Nat) (rna : Bool) (xs : List FV) : List Nat → List (List Byte) × Nat × Nat
  | [] => ([], 0, 31)
  | c :: r =>
    let a := encodeAs c rna xs
    let err := measureErr xs a.vals
    if meets err share || r.isEmpty then
      (withTail c err (a.seg ||| (if meets err share then segMet else 0)) a.blocks, a.flags, c)
    else chooseEnc share rna xs r

/-- Encodes 256 elements (R260, R261): the blocks written, the flags for %fexc, the format chosen. -/
def encodeSegment (share : Nat) (fixed : Option Nat) (wide rna : Bool) (xs : List FV) : List (List Byte) × Nat × Nat :=
  chooseEnc share rna xs (match fixed with | some c => [c] | none => if wide then [31, 19, 18, 17, 2] else [31, 19, 18, 17])

end Sys2Proof.Machine
end

