-- ==== Sys2Proof/Machine/Stream.lean ====
section
/-! DEFINITION. Streams: which a command names, their elements in memory and in rings (R207, R211, R259), accesses of engines to local
memory (R211), SBIND and SQRY (R210, R213). -/

namespace Sys2Proof.Machine

/-! ## The streams and masks that a command names (R245, R253) -/

/-- Streams read and written, mask streams read and written as operands, and masks that select lanes only where bound. -/
structure Uses where
  rd : List Nat := []
  wr : List Nat := []
  mrd : List Nat := []
  mwr : List Nat := []
  sel : List Nat := []
deriving DecidableEq, Repr

/-- A list without the second and later of equal entries. -/
def dedup : List Nat → List Nat
  | [] => []
  | a :: t => a :: (dedup t).filter (· != a)

/-- What the operation of a command names, without its lane mask. -/
def VCmd.opUses (v : VCmd) : Uses :=
  match v.op with
  | .arith _ _ => { rd := dedup [v.y, v.z], wr := [v.x] }
  | .fma _ => { rd := dedup (v.y :: v.z :: v.env.op4.toList), wr := [v.x] }
  | .unary _ _ => { rd := [v.y], wr := [v.x] }
  | .cmp _ => { rd := dedup [v.y, v.z], mwr := [v.x] }
  | .sel m => { rd := dedup [v.y, v.z], wr := [v.x], sel := [m] }
  | .logic _ => { rd := dedup [v.y, v.z], wr := [v.x] }
  | .shift _ => { rd := dedup [v.y, v.z], wr := [v.x] }
  | .cvt => { rd := [v.y], wr := [v.x] }
  | .qnt _ _ => { rd := [v.y], wr := [v.x] }
  | .dqnt _ _ => { rd := [v.y], wr := [v.x] }
  | .red _ _ => { rd := [v.y] }
  | .scan _ _ => { rd := [v.y], wr := [v.x] }
  | .perm => { rd := dedup [v.y, v.z], wr := [v.x] }
  | .bcst _ => { wr := [v.x] }
  | .mov => { rd := [v.y], wr := [v.x] }
  | .mlogic k => { mrd := if k = 3 then [v.y] else dedup [v.y, v.z], mwr := [v.x] }
  | .mset _ => {}
  | .special _ => { rd := [v.y], wr := [v.x] }
  | .baddq _ _ => { rd := dedup [v.y, v.z], wr := [v.x] }

/-- What a command names, its lane mask among it. -/
def VCmd.uses (v : VCmd) : Uses := { v.opUses with sel := dedup (v.opUses.sel ++ v.env.mask.toList) }

/-- Whether a command names stream `n`. -/
def VCmd.names (v : VCmd) (n : Nat) : Bool := v.uses.rd.contains n || v.uses.wr.contains n

/-- Whether a command names mask stream `n`: MSET among them (R259). -/
def VCmd.namesMask (v : VCmd) (n : Nat) : Bool :=
  v.uses.mrd.contains n || v.uses.mwr.contains n || v.uses.sel.contains n || (match v.op with | .mset _ => v.x == n | _ => false)

/-! ## Bindings -/

/-- The remaining count of a stream: an unbound stream counts as 0 (R211). -/
def remaining (o : Option Stream) : Nat := match o with | some t => t.count - t.pos | none => 0

/-- The remaining count of a mask stream. -/
def maskRemaining (o : Option MaskStream) : Nat := match o with | some t => t.count - t.pos | none => 0

/-- Bytes of a segment's reservation (R41). -/
def segSize (wide : Bool) : Nat := if wide then 576 else 256

/-- Where an element lies: at a bit of local memory, or as element `k` of a segment. -/
inductive ELoc where
  | plain (bit : Nat)
  | seg (base k : Nat)
deriving DecidableEq, Repr

/-- The place of element `j` counted from `base` on (R211). -/
def elemAt (fmt base : Nat) (stride : Int) (wide : Bool) (j : Nat) : ELoc :=
  if 17 ≤ fmt ∨ wide then .seg (base + segSize wide * (j / 256)) (j % 256)
  else .plain (wrap 35 (8 * base + j * stride * storeBits fmt))

/-- Whether the next `n` elements of a stream lie, with any of their bytes, at local addresses from `lo` up to `hi` (R211): of a ring, those
of the whole bank. -/
def Stream.touches (t : Stream) (wide : Bool) (n lo hi : Nat) : Bool :=
  if n = 0 then false
  else if t.ring then decide (t.base / 32768 * 32768 < hi) && decide (lo < t.base / 32768 * 32768 + 32768)
  else if 17 ≤ t.fmt ∨ wide then
    decide (t.base + segSize wide * (t.pos / 256) < hi) && decide (lo < t.base + segSize wide * ((t.pos + n - 1) / 256) + segSize wide)
  else
    let w := storeBits t.fmt
    let d : Int := t.stride * w
    let b : Int := 8 * t.base + t.pos * d
    let l : Int := 8 * lo - (w - 1 : Nat)
    let h : Int := 8 * hi
    if d = 0 then decide (l ≤ b) && decide (b < h)
    else if 0 < d then
      let j : Int := if l ≤ b then 0 else (l - b + d - 1) / d
      decide (j < n) && decide (b + j * d < h)
    else
      let j : Int := if b < h then 0 else (b - h - d) / (-d)
      decide (j < n) && decide (l ≤ b + j * d)

/-- Whether the next `n` bits of a mask stream lie at local addresses from `lo` up to `hi` (R259). -/
def MaskStream.touches (m : MaskStream) (n lo hi : Nat) : Bool :=
  n != 0 && decide (m.base + m.pos / 8 < hi) && decide (lo ≤ m.base + (m.pos + n - 1) / 8)

/-- The elements that one ring slot of `z` bytes holds (R207). -/
def ringCap (fmt : Nat) (wide : Bool) (z : Nat) : Nat :=
  if 17 ≤ fmt ∨ wide then z / segSize wide * 256 else z * 8 / storeBits fmt

/-- What finding a group's elements comes to: their places with the stream and the state after it, a wait, or a cause. -/
inductive Located where
  | ok (l : List ELoc) (t : Stream) (s : State)
  | wait
  | bad (cause : Nat)

/-- Takes the next ring slot (R207): none where the counters make it wait. -/
def Ring.take (r : Ring) (write : Bool) : Option (Nat × Ring) :=
  if write then (if r.free = 0 then none else some (r.tail, { r with free := r.free - 1, tail := (r.tail + 1) % r.cnt }))
  else if r.filled = 0 then none
  else some (r.head, { r with filled := r.filled - 1, head := (r.head + 1) % r.cnt })

/-- A ring slot is passed: the writer has filled it, the reader has freed it (R207). -/
def Ring.pass (r : Ring) (write : Bool) : Ring := if write then { r with filled := r.filled + 1 } else { r with free := r.free + 1 }

/-- The bank that holds the ring of a stream's base. -/
def ringBank (c : Nat) (x : Ctx) (t : Stream) : Nat := bankOf c (entry x (t.base / 32768)).bank

/-- The places of the next `n` elements of a ring stream. -/
def locateRing (c : Nat) (x : Ctx) (wide write : Bool) : Nat → Stream → State → Located
  | 0, t, s => .ok [] t s
  | n + 1, t, s =>
    let gb := ringBank c x t
    match slotRing s c x (t.base / 32768) with
    | none => .bad 0x13
    | some r =>
      let cap := ringCap t.fmt wide (2 ^ r.sz)
      if cap = 0 ∨ r.cnt = 0 then .bad 0x11
      else
        match (match t.held with | some h => some (h, r) | none => (r.take write).map fun (p : Nat × Ring) => ((p.1, 0), p.2)) with
        | none => .wait
        | some ((slot, u), r1) =>
          let base := t.base / 32768 * 32768 + slot * 2 ^ r.sz
          let done := u + 1 = cap
          let r2 := if done then r1.pass write else r1
          let t2 := { t with held := if done then none else some (slot, u + 1) }
          match locateRing c x wide write n t2 (setBank s gb { bankAt s gb with ring := some r2 }) with
          | .ok l t3 s3 => .ok (elemAt t.fmt base 1 wide u :: l) t3 s3
          | o => o

/-- The places of elements `k` to `k + n - 1` after a stream's position. -/
def locate (c : Nat) (x : Ctx) (t : Stream) (wide write : Bool) (k n : Nat) (s : State) : Located :=
  if t.ring then locateRing c x wide write n t s
  else .ok ((List.range n).map fun i => elemAt t.fmt t.base t.stride wide (t.pos + k + i)) t s

/-! ## Local memory as engines reach it -/

/-- What an extent of local addresses comes to: its runs of places, a wait, or a cause. -/
inductive Span where
  | ok (l : List (Place × Nat))
  | wait
  | bad (cause : Nat) (va : Nat)

/-- The runs of an extent, line by line (R189, R190, R194). -/
def span (s : State) (c : Nat) (sup : Bool) (x : Ctx) (need : Nat) (own : Bool) : Nat → Nat → Nat → Span
  | 0, _, _ => .ok []
  | fuel + 1, va, n =>
    if n = 0 then .ok []
    else
      let a := va % 2 ^ 32
      let m := Nat.min n (128 - a % 128)
      match localMap s c sup x a need own with
      | .bad cause => .bad cause a
      | .wait => .wait
      | .ok p =>
        match span s c sup x need own fuel (a + m) (n - m) with
        | .ok l => .ok ((p, m) :: l)
        | o => o

/-- The runs of `n` bytes at a local address. -/
def spanOf (s : State) (c : Nat) (sup : Bool) (x : Ctx) (need : Nat) (own : Bool) (va n : Nat) : Span :=
  span s c sup x need own (n / 128 + 2) va n

/-- Reads the bytes of runs. -/
def runBytes (s : State) : List (Place × Nat) → List Byte
  | [] => []
  | (p, n) :: t => placeBytes s p n ++ runBytes s t

/-- Writes bytes over runs, as one source of the ports. -/
def writeRuns (c kind : Nat) : List (Place × Nat) → List Byte → State → State
  | [], _, s => s
  | (p, n) :: t, b, s => writeRuns c kind t (b.drop n) (writePlace c kind p (b.take n) s)

/-- A context as its engines reach memory: whether a command touches a staged slot is tested when it issues (R350, entry 98). -/
def Ctx.engine (x : Ctx) : Ctx := { x with tx := none }

/-- The imprecise cause that a failing element access of the vector engine raises (R332). -/
def elementCause (cause : Nat) : Nat := if cause = 0x12 then 0x47 else if cause = 0x13 then 0x48 else if cause = 0x14 then 0x49 else 0x46

/-- What a read of an engine comes to. -/
inductive Rd (α : Type) where
  | ok (v : α)
  | wait
  | stop (cause : Nat)

/-- Bytes of local memory for the vector engine: a stream or mask read (R194). -/
def streamBytes (s : State) (c : Nat) (sup : Bool) (x : Ctx) (va n : Nat) : Rd (List Byte) :=
  match spanOf s c sup x.engine (permST + permR) true va n with
  | .ok l => .ok (runBytes s l)
  | .wait => .wait
  | .bad cause _ => .stop (elementCause cause)

/-- The value of a stored pattern: TF19 lies in bits 31:13 (R38). -/
def storedVal (fmt raw : Nat) : FV := valueOf fmt (if fmt = 1 then raw / 2 ^ 13 else raw)

/-- A pattern as it is stored. -/
def stored (fmt p : Nat) : Nat := if fmt = 1 then p * 2 ^ 13 else p

/-- A stored pattern as a writer leaves it and a reader takes it: bits 12:0 of a TF19 word and bits 7:6 of a 6-bit element are zero (R34,
R38). -/
def storedClean (fmt raw : Nat) : Nat := if fmt = 1 then raw / 2 ^ 13 * 2 ^ 13 else raw % 2 ^ elemBits fmt

/-- An element that was read: its pattern as stored, less the bits that a reader ignores, zero in a segment, and its value. -/
structure Elem where
  raw : Nat
  val : FV
deriving DecidableEq, Repr

/-- Reads one element (R34, R36, R44, R45, R246). -/
def readElem (s : State) (c : Nat) (sup : Bool) (x : Ctx) (fmt : Nat) (wide : Bool) (l : ELoc) : Rd Elem :=
  match l with
  | .plain bit =>
    let w := storeBits fmt
    match streamBytes s c sup x (bit / 8) (Nat.max 1 (w / 8)) with
    | .ok b => let raw := storedClean fmt (ofBytes b / 2 ^ (bit % 8) % 2 ^ w); .ok ⟨raw, storedVal fmt raw⟩
    | .wait => .wait
    | .stop e => .stop e
  | .seg base k =>
    match streamBytes s c sup x base 2 with
    | .wait => .wait
    | .stop e => .stop e
    | .ok h =>
      match segHead wide (ofBytes (h.take 1)) (ofBytes (h.drop 1)) with
      | .malformed => .stop 0x41
      | .z => .ok ⟨0, .fin false 0 0⟩
      | .fp16 =>
        match streamBytes s c sup x (base + 64 + 2 * k) 2 with
        | .ok b => .ok ⟨0, fp16Elem (ofBytes (h.drop 1)) (ofBytes b)⟩
        | .wait => .wait
        | .stop e => .stop e
      | .bx code =>
        match bxFmt code with
        | none => .stop 0x41
        | some f =>
          let p := bxPlace f k
          match streamBytes s c sup x (base + 64 * p.1) 64 with
          | .ok b => .ok ⟨0, bxElem f (ofBytes b) p.2⟩
          | .wait => .wait
          | .stop e => .stop e

/-- Reads the elements of a group. -/
def readElems (s : State) (c : Nat) (sup : Bool) (x : Ctx) (fmt : Nat) (wide : Bool) : List ELoc → Rd (List Elem)
  | [] => .ok []
  | l :: t =>
    match readElem s c sup x fmt wide l with
    | .wait => .wait
    | .stop e => .stop e
    | .ok v =>
      match readElems s c sup x fmt wide t with
      | .ok r => .ok (v :: r)
      | o => o

/-- Where an element is written: a place, and for a nibble which half of the byte. -/
structure WLoc where
  place : Place
  bytes : Nat
  half : Option Nat
deriving DecidableEq, Repr

/-- The places of the elements of a group that is to be written, checked before anything is written (R252). -/
def writeLocs (s : State) (c : Nat) (sup : Bool) (x : Ctx) (fmt : Nat) : List ELoc → Rd (List WLoc)
  | [] => .ok []
  | .seg _ _ :: _ => .stop 0x46
  | .plain bit :: t =>
    let w := storeBits fmt
    match localMap s c sup x.engine (bit / 8 % 2 ^ 32) (permST + permW) true with
    | .wait => .wait
    | .bad e => .stop (elementCause e)
    | .ok p =>
      match writeLocs s c sup x fmt t with
      | .ok r => .ok (⟨p, Nat.max 1 (w / 8), if w = 4 then some (bit % 8) else none⟩ :: r)
      | o => o

/-- Writes one element's stored pattern: the other nibble of a shared byte keeps its value (R247). -/
def WLoc.write (w : WLoc) (raw : Nat) (s : State) : State :=
  let b : List Byte := match w.half with
    | some h => [BitVec.ofNat 8 (setBits (ofBytes (placeBytes s w.place 1)) (h + 3) h raw)]
    | none => toBytes w.bytes raw
  putPlace w.place b s

/-- Joins neighbouring written places into runs, for the write trace (R302). -/
def joinRuns : List (Place × Nat) → List (Place × Nat)
  | [] => []
  | (p, n) :: t =>
    match p, joinRuns t with
    | .bank i, (.bank j, m) :: r =>
      if j = i then (.bank i, Nat.max n m) :: r else if i + n = j ∧ j % 32768 ≠ 0 then (.bank i, n + m) :: r
      else (.bank i, n) :: (.bank j, m) :: r
    | p, r => (p, n) :: r

/-- The runs that a group wrote are noted. -/
def noteRuns (c kind : Nat) (l : List (Place × Nat)) (s : State) : State := l.foldl (fun s p => noteWrite c kind p.1 p.2 s) s

/-- Writes a group: elements with no value are merged, left as they are (R247). -/
def writeElems (c kind : Nat) (l : List (WLoc × Option Nat)) (s : State) : State :=
  let on := l.filterMap fun p => p.2.map fun v => (p.1, v)
  let s' := on.foldl (fun s p => p.1.write p.2 s) s
  noteRuns c kind (joinRuns (on.map fun p => (p.1.place, p.1.bytes))) s'

/-! ## Mask streams (R259) -/

/-- Bit `j` of a mask stream. -/
def maskBit (s : State) (c : Nat) (sup : Bool) (x : Ctx) (m : MaskStream) (j : Nat) : Rd Bool :=
  match streamBytes s c sup x (m.base + (m.pos + j) / 8) 1 with
  | .ok b => .ok (bitAt (ofBytes b) ((m.pos + j) % 8))
  | .wait => .wait
  | .stop e => .stop e

/-- Bits `j` to `j + n - 1` of a mask stream. -/
def maskBits (s : State) (c : Nat) (sup : Bool) (x : Ctx) (m : MaskStream) : Nat → Nat → Rd (List Bool)
  | 0, _ => .ok []
  | n + 1, j =>
    match maskBit s c sup x m j with
    | .wait => .wait
    | .stop e => .stop e
    | .ok v =>
      match maskBits s c sup x m n (j + 1) with
      | .ok r => .ok (v :: r)
      | o => o

/-- The places of bits that are to be written. -/
def maskLocs (s : State) (c : Nat) (sup : Bool) (x : Ctx) (m : MaskStream) : Nat → Nat → Rd (List (Place × Nat))
  | 0, _ => .ok []
  | n + 1, j =>
    match localMap s c sup x.engine ((m.base + (m.pos + j) / 8) % 2 ^ 32) (permST + permW) true with
    | .wait => .wait
    | .bad e => .stop (elementCause e)
    | .ok p =>
      match maskLocs s c sup x m n (j + 1) with
      | .ok r => .ok ((p, (m.pos + j) % 8) :: r)
      | o => o

/-- Writes bits: those with no value keep what they were. -/
def writeBits (c : Nat) (l : List ((Place × Nat) × Option Bool)) (s : State) : State :=
  let on := l.filterMap fun p => p.2.map fun v => (p.1, v)
  let s' := on.foldl (fun s (p : (Place × Nat) × Bool) =>
    let b : List Byte := [BitVec.ofNat 8 (setBits (ofBytes (placeBytes s p.1.1 1)) p.1.2 p.1.2 (b2n p.2))]
    putPlace p.1.1 b s) s
  noteRuns c 1 (joinRuns (on.map fun p => (p.1.1, 1))) s'

/-! ## SBIND and SQRY (R210, R213) -/

/-- Whether an earlier engine command names stream `n` (R210). -/
def streamBusy (x : Ctx) (n : Nat) : Bool := x.vq.any fun v => v.names n

/-- Whether a base and a stride are ones that SBIND refuses (R210). -/
def sbindBad (s : State) (fmt base : Nat) (stride : Int) (ring : Bool) : Bool :=
  (if 17 ≤ fmt then base % 256 != 0 else 16 ≤ storeBits fmt && base % (storeBits fmt / 8) != 0) ||
    ((17 ≤ fmt || ring) && stride != 1) ||
    (ring && (slotRing s s.cur (cx s) (base / 32768)).isNone)

/-- SBIND (R210). -/
def execSbind (f : BitVec 5) (d a b : BitVec 6) (n : BitVec 4) (s : State) : Out :=
  if streamBusy (cx s) d.toNat then .next (wait 8 s)
  else
    let v := rn s a
    let base := bits v 31 0
    let stride : Int := if n = 15 then signed 32 (bits v 63 32) else n.toNat
    let ring := bitAt v 64
    if sbindBad s f.toNat base stride ring then .next (trapAt 0x15 base s)
    else
      let x := cx s
      let t : Stream := { fmt := f.toNat, base := base, stride := stride, count := bits (rn s b) 31 0, ring := ring }
      .next (finish (setCx s { x with streams := tset x.streams d.toNat t }))

/-- What SQRY reads of a binding (R213). -/
def sqryWord (o : Option Stream) (sel : Nat) : Nat :=
  match o with
  | none => 0
  | some t =>
    if sel = 0 then (t.count - t.pos) + fld (t.pos % 2 ^ 32) 32 + fld t.dir 64 + fld 1 66 + fld (b2n t.ring) 67
    else t.base + fld (wrap 32 t.stride) 32 + fld t.fmt 64

/-- SQRY (R213). -/
def execSqry (d a : BitVec 6) (n : BitVec 4) (s : State) : Out :=
  if streamBusy (cx s) a.toNat then .next (wait 8 s)
  else .next (finish (putNat d (sqryWord (tfind (cx s).streams a.toNat) n.toNat) s))

end Sys2Proof.Machine
end

