-- ==== Sys2Proof/Machine/Translate.lean ====
section
/-! DEFINITION. Address translation (R221 to R227, R243, R244, R375): the walk of both stages, translation buffers, page requests and
invalidations. -/

namespace Sys2Proof.Machine

/-! ## The walk (R222 to R224, R226) -/

/-- Why a walk does not translate: an entry with V = 0, a missing permission, or a malformed table; at stage two or not, at an address. -/
inductive WalkFault where
  | absent (st2 : Bool) (addr entry : Nat)
  | perm (st2 : Bool) (addr : Nat)
  | malformed (st2 : Bool) (addr : Nat)
deriving DecidableEq, Repr

/-- The address bits that index a level (R223). -/
def levelIndex (lvl a : Nat) : Nat :=
  match lvl with
  | 0 => bits a 51 48
  | 1 => bits a 47 39
  | 2 => bits a 38 30
  | 3 => bits a 29 21
  | _ => bits a 20 12

/-- The page size of a leaf of a level, as a power of two: none where a leaf is not allowed. -/
def leafBits : Nat → Option Nat
  | 2 => some 30
  | 3 => some 21
  | 4 => some 12
  | _ => none

def pteV (e : Nat) : Bool := bitAt e 0
def pteLeaf (e : Nat) : Bool := bitAt e 1
def pteRd (e : Nat) : Bool := bitAt e 2
def pteW (e : Nat) : Bool := bitAt e 3
def pteCont (e : Nat) : Bool := bitAt e 4
def pteOa (e : Nat) : Nat := bits e 51 12 * 4096

/-- Whether an entry is malformed at its level (R223). -/
def pteBad (lvl e : Nat) : Bool :=
  bits e 63 52 != 0 || bits e 11 5 != 0 || (pteCont e && lvl != 4) ||
    (match pteLeaf e, leafBits lvl with
      | true, none => true
      | true, some b => pteOa e % 2 ^ b != 0
      | false, _ => lvl == 4)

/-- The entry that a translation in a 64 KiB group uses, with its address adjusted (R223): its own, or a free choice among the group. -/
def contLeaf (s : State) (table ix e : Nat) : Nat × Bool × Bool :=
  let j := Config.contEntry s.tick % 16
  let f := homeRead s (table + 8 * (ix / 16 * 16 + j)) 8
  if pteCont e && pteV f && pteLeaf f && pteCont f && !pteBad 4 f then
    (wrap 52 ((pteOa f : Int) + 4096 * ((ix % 16 : Nat) - (j : Int))), pteRd f, pteW f)
  else (pteOa e, pteRd e, pteW e)

/-! ### Walk caches (R225) -/

/-- The bits of an address down to a level. -/
def walkPrefix (lvl a : Nat) : Nat := a / 2 ^ (48 - 9 * lvl)

/-- Whose walk it is: the die of the translation unit and the function. -/
structure Walker where
  die : Nat
  fn : Nat

/-- Whether a cached entry is the one that a walk comes to at a level. -/
def WalkEntry.isFor (w : Walker) (st2 : Bool) (lvl a : Nat) (e : WalkEntry) : Bool :=
  e.die == w.die && e.fn == w.fn && e.st2 == st2 && e.lvl == lvl && e.pre == walkPrefix lvl a

/-- The non-leaf entry that a walk takes from the cache; whether it takes one that is held is left open. -/
def cachedEntry (s : State) (w : Walker) (st2 : Bool) (lvl a : Nat) : Option Nat :=
  (s.walkCache.find? (WalkEntry.isFor w st2 lvl a)).bind fun e => if Config.walkCached s.tick lvl then some e.entry else none

/-- The entries that a walk has used are held from now on. -/
def cacheWalk (l : List WalkEntry) (s : State) : State :=
  l.foldl (fun s e => { s with walkCache := e :: s.walkCache.filter fun f => !WalkEntry.isFor ⟨e.die, e.fn⟩ e.st2 e.lvl (e.pre * 2 ^ (48 - 9 * e.lvl)) f }) s

/-- What a walk of one stage comes to: the output address, the permissions and page size of the leaf, and the non-leaf entries used. -/
structure Leaf where
  oa : Nat
  rd : Bool := true
  wr : Bool := true
  size : Nat := 12
  used : List WalkEntry := []
deriving DecidableEq, Repr

/-- The levels of one stage: `tr` gives the device physical address of an entry, with the cached entries that this used. -/
def walkLevels (s : State) (w : Walker) (st2 : Bool) (a : Nat) (tr : Nat → Except WalkFault (Nat × List WalkEntry)) :
    Nat → Nat → Nat → List WalkEntry → Except WalkFault Leaf
  | 0, _, _, _ => .error (.malformed st2 a)
  | fuel + 1, lvl, table, used =>
    match cachedEntry s w st2 lvl a with
    | some e => walkLevels s w st2 a tr fuel (lvl + 1) (pteOa e) used
    | none =>
      let ix := levelIndex lvl a
      match tr (table + 8 * ix) with
      | .error f => .error f
      | .ok (t, u) =>
        if !physOk s t then .error (.malformed st2 a)
        else
          let e := homeRead s t 8
          let used := used ++ u
          if !pteV e then .error (.absent st2 a t)
          else if pteBad lvl e then .error (.malformed st2 a)
          else if pteLeaf e then
            let l := if lvl = 4 then contLeaf s (t - 8 * ix) ix e else (pteOa e, pteRd e, pteW e)
            let b := (leafBits lvl).getD 12
            .ok { oa := l.1 + a % 2 ^ b, rd := l.2.1, wr := l.2.2, size := if pteCont e then 16 else b, used := used }
          else walkLevels s w st2 a tr fuel (lvl + 1) (pteOa e) (used ++ [⟨w.die, w.fn, st2, lvl, walkPrefix lvl a, e⟩])

/-- Checks the permissions that an access needs on a leaf. -/
def needPerm (st2 : Bool) (a : Nat) (rd wr : Bool) (r : Leaf) : Except WalkFault Leaf :=
  if (rd && !r.rd) || (wr && !r.wr) then .error (.perm st2 a) else .ok r

/-- Stage two of a guest physical address (R221): a result with bits 51:50 set is malformed. -/
def stageTwo (s : State) (w : Walker) (gpa : Nat) (rd wr : Bool) : Except WalkFault Leaf :=
  let f := func s w.fn
  if !f.s2en then .ok { oa := gpa }
  else
    match walkLevels s w true gpa (fun t => .ok (t, [])) 5 0 f.s2root [] with
    | .error e => .error e
    | .ok r => if bits r.oa 51 50 ≠ 0 then .error (.malformed true gpa) else needPerm true gpa rd wr r

/-- Stage one of a virtual address (R224): each table address is a guest physical address. -/
def stageOne (s : State) (w : Walker) (va : Nat) (rd wr : Bool) : Except WalkFault Leaf :=
  let f := func s w.fn
  if !f.s1en then .ok { oa := va }
  else
    match walkLevels s w false va (fun t => (stageTwo s w t true false).map fun r => (r.oa, r.used)) 5 0 f.s1root [] with
    | .error e => .error e
    | .ok r => needPerm false va rd wr r

/-- What a whole walk gives: the physical address, the guest page, the permissions of both leaves together, the size of the stage-one page,
and the non-leaf entries used. -/
structure Walked where
  pa : Nat
  gpage : Nat
  rd : Bool
  wr : Bool
  size : Nat
  used : List WalkEntry
deriving DecidableEq, Repr

/-- The walk of both stages by the translation unit of a die (R224, R225). -/
def walkAll (s : State) (d fn va : Nat) (rd wr : Bool) : Except WalkFault Walked :=
  match stageOne s ⟨d, fn⟩ va rd wr with
  | .error e => .error e
  | .ok g =>
    match stageTwo s ⟨d, fn⟩ (g.oa % 2 ^ 52) rd wr with
    | .error e => .error e
    | .ok r => .ok { pa := r.oa, gpage := g.oa / 4096, rd := g.rd && r.rd, wr := g.wr && r.wr, size := g.size, used := g.used ++ r.used }

/-- The translation of a page that a walk has given, as a buffer holds it. -/
def Walked.tlb (r : Walked) (fn va : Nat) : Tlb :=
  { fn := fn, vpage := va / 4096, ppage := r.pa / 4096, gpage := r.gpage, rd := r.rd, wr := r.wr, size := r.size }

/-- The function of a context with a region (R221). -/
def fnOf (x : Ctx) : Option Nat := x.region.map fun r => funcOf r.vf r.pfn

/-- Whether a context's addresses are translated: not without a region (R77), nor with both stages off. -/
def translates (s : State) (x : Ctx) : Option Nat :=
  match fnOf x with
  | some fn => if (func s fn).s1en || (func s fn).s2en then some fn else none
  | none => none

/-- The trap cause of a walk's fault, and %tval (R226, R332, R333). -/
def WalkFault.cause : WalkFault → Nat × Nat
  | .perm st2 a => (if st2 then 0x28 else 0x27, a)
  | .malformed st2 a => (if st2 then 0x2A else 0x29, a)
  | .absent st2 a _ => (if st2 then 0x2C else 0x2B, a)

/-! ## Page requests (R227) -/

/-- The least group index that no queued request uses. -/
def freeGroup (l : List Prq) : Nat → Nat → Nat
  | 0, i => i
  | n + 1, i => if l.any fun p => p.group == i then freeGroup l n (i + 1) else i

/-- The message that a page request is sent as (R227, R243): a group of one, with the PASID of stage one. -/
def pageMsg (group : Nat) (st2 : Bool) (addr : Nat) (wr : Bool) : PageMsg :=
  { group := group, addr := addr / 4096 * 4096, pasid := if st2 then none else some 1, rd := !wr, wr := wr }

/-- A miss that matches a queued request joins it; a new one is queued where there is room; none where the queue is full (R227). -/
def pageRequest (fn : Nat) (st2 : Bool) (addr : Nat) (wr : Bool) (ws : List Waiter) (s : State) : Option State :=
  let f := func s fn
  let hit (p : Prq) : Bool := p.stage2 == st2 && p.page == addr / 4096 && p.wr == wr
  if f.prq.any hit then
    some (setFunc s fn { f with prq := f.prq.map fun p => if hit p then { p with waits := p.waits ++ ws.filter fun w => !p.waits.contains w } else p })
  else if 256 ≤ f.prq.length then none
  else
    let g := freeGroup f.prq 256 0
    some (setFunc s fn { f with prq := f.prq ++ [{ group := g, stage2 := st2, page := addr / 4096, wr := wr, waits := ws, sent := s.elapsed
                                                   msg := pageMsg g st2 addr wr }] })

/-- Whether an access waits on a page request already. -/
def waitsOnPage (s : State) (fn : Nat) (w : Waiter) : Bool := (func s fn).prq.any fun p => p.waits.contains w

/-! ## The translation buffer (R225) and the sequencer's translations (R229) -/

/-- A core's buffered translation of a page that permits the access. -/
def tlbHit (k : Core) (fn vpage : Nat) (rd wr : Bool) : Option Tlb :=
  k.tlb.find? fun t => t.fn == fn && t.vpage == vpage && (!rd || t.rd) && (!wr || t.wr)

/-- Puts a translation into a core's buffer of 128 entries. -/
def tlbAdd (t : Tlb) (k : Core) : Core := { k with tlb := (t :: k.tlb.filter fun u => !(u.fn == t.fn && u.vpage == t.vpage)).take 128 }

/-- What the translation of a word's access comes to. -/
inductive Xlate where
  | ok (pa : Nat) (s : State)
  | trap (cause val : Nat) (s : State)
  | wait (s : State)

/-- Whether a walk is of a page, by a die's translation unit (R225). -/
def Walk.isOf (w : Walk) (d fn va : Nat) : Bool := w.die == d && w.fn == fn && w.va / 4096 == va / 4096

/-- Whether a die's translation unit has no walk to spare (R225). -/
def walksBusy (s : State) (d : Nat) : Bool := 1024 ≤ (s.walks.filter fun w => w.die == d).length

/-- Whether a miss cannot be walked for now (R225): its page's walk is in progress, which it joins, or every walk is busy. -/
def walkWaits (s : State) (d fn va : Nat) : Bool := (s.walks.any fun w => w.isOf d fn va) || walksBusy s d

/-- Joins or starts a walk in the translation unit of the core's die: where 1,024 are busy the miss waits (R225). -/
def startWalk (fn va : Nat) (rd wr : Bool) (s : State) : State :=
  let m : Miss := ⟨s.cur, rd, wr⟩
  let d := dieOf s.cur
  if s.walks.any fun w => w.isOf d fn va then
    { s with walks := s.walks.map fun w => if w.isOf d fn va && !w.misses.contains m then { w with misses := w.misses ++ [m] } else w }
  else if walksBusy s d then s
  else { s with walks := s.walks ++ [{ id := s.nextId, die := d, fn := fn, va := va, misses := [m] }], nextId := s.nextId + 1 }

/-- %tval of a translation's fault (R333): the address of this access, or the guest physical address that its own walk comes to. -/
def failVal (s : State) (fn va : Nat) (rd wr : Bool) (cause val : Nat) : Nat :=
  if cause = 0x27 ∨ cause = 0x29 ∨ cause = 0x2B then va
  else match walkAll s (dieOf s.cur) fn va rd wr with | .error f => if f.cause.1 = cause then f.cause.2 else val | .ok _ => val

/-- The translation of an access of the word in issue. -/
def translate (va : Nat) (rd wr : Bool) (s : State) : Xlate :=
  match translates s (cx s) with
  | none => .ok va s
  | some fn =>
    let k := curCore s
    let page := va / 4096
    match tlbHit k fn page rd wr with
    | some t => .ok (t.ppage * 4096 + va % 4096) s
    | none =>
      match k.walkFail with
      | some f =>
        if f.page = page ∧ f.wr = wr then .trap f.cause (failVal s fn va rd wr f.cause f.val) (setCore s s.cur { k with walkFail := none })
        else .wait (startWalk fn va rd wr (setCore s s.cur { k with walkFail := none }))
      | none => if waitsOnPage s fn { core := s.cur, vpage := page, eng := 0, wr := wr } then .wait s else .wait (startWalk fn va rd wr s)

/-- An engine's translation of an access: from the core's buffer, or walked in the step that makes it and put there (DESIGN CHOICE, entry 15);
`.error none` where it waits for a page request, or for the walks in progress (R225). -/
def translateEngine (c : Nat) (x : Ctx) (eng va : Nat) (rd wr : Bool) (s : State) : Except (Option WalkFault) Nat × State :=
  match translates s x with
  | none => (.ok va, s)
  | some fn =>
    match tlbHit (core s c) fn (va / 4096) rd wr with
    | some t => (.ok (t.ppage * 4096 + va % 4096), s)
    | none =>
      if walkWaits s (dieOf c) fn va then (.error none, s) else
      match walkAll s (dieOf c) fn va rd wr with
      | .ok w => (.ok w.pa, setCore (cacheWalk w.used s) c (tlbAdd (w.tlb fn va) (core s c)))
      | .error (.absent st2 a e) =>
        (.error none, (pageRequest fn st2 a wr [{ core := c, vpage := va / 4096, eng := eng, wr := wr }] (lostToCtx c x e 8 s)).getD s)
      | .error f => (.error (some f), s)

/-- The loss that a walk finds at an entry which reads as zero, and so absent, for a CXL link that is down (R220, R381), recorded by `f`. -/
def walkLost (s : State) (d fn va : Nat) (wr : Bool) (f : Nat → State → State) : State :=
  match walkAll s d fn va (!wr) wr with
  | .error (.absent _ _ e) => f e s
  | _ => s

/-- A malformed table is logged to the management log as well (R226). -/
def logMalformed (c : Nat) (f : WalkFault) (s : State) : State :=
  match f with
  | .malformed _ a => mgmtLog (ctxRecord s c (core s c).user f.cause.1 false (core s c).user.pc (BitVec.ofNat 128 a)) s
  | _ => s

/-- A miss that joined a walk ends one of four ways (R226); whether it goes on waiting, where the queue of page requests is full. A malformed
table is logged once for the walk. -/
def endMiss (w : Walk) (m : Miss) (s : State) : State × Bool :=
  match walkAll s w.die w.fn w.va m.rd m.wr with
  | .ok r => (setCore (cacheWalk r.used s) m.core (tlbAdd (r.tlb w.fn w.va) (core s m.core)), false)
  | .error (.absent st2 a e) =>
    match pageRequest w.fn st2 a m.wr [{ core := m.core, vpage := w.va / 4096, eng := 0, wr := m.wr }] (lostToCtx m.core (core s m.core).user e 8 s) with
    | some t => (t, false)
    | none => (s, true)
  | .error f =>
    let t := setCore s m.core { core s m.core with walkFail := some ⟨w.va / 4096, m.wr, f.cause.1, f.cause.2⟩ }
    (if w.misses.head? = some m then logMalformed m.core f t else t, false)

/-- The misses of a walk end; those that go on waiting keep the walk. -/
def endWalk (w : Walk) : List Miss → List Miss → State → State
  | [], [], s => s
  | [], left, s => { s with walks := s.walks ++ [{ w with misses := left }] }
  | m :: t, left, s => let q := endMiss w m s; endWalk w t (if q.2 then left ++ [m] else left) q.1

/-! ## Invalidations (R225, R375) -/

/-- Whether what is named meets the aligned range of 2^`size` bytes at an address (R375): kind 0 names the function, 1 a page, 2 a 1 GiB
region. -/
def invalidates (kind addr base size : Nat) : Bool :=
  let n := Nat.max size (if kind = 1 then 12 else 30)
  kind == 0 || base / 2 ^ n == addr / 2 ^ n

/-- Whether an invalidation drops a buffered translation (R375): by its stage-one page, or as every one of the function at stage two. -/
def Tlb.dropped (fn kind : Nat) (st2 : Bool) (addr : Nat) (all : Bool) (t : Tlb) : Bool :=
  t.fn == fn && (all || st2 || invalidates kind addr (4096 * t.vpage) t.size)

/-- Whether an invalidation drops a cached non-leaf entry: of its stage, over the range that the entry maps. -/
def WalkEntry.dropped (fn kind : Nat) (st2 : Bool) (addr : Nat) (all : Bool) (e : WalkEntry) : Bool :=
  e.fn == fn && (all || (e.st2 == st2 && invalidates kind addr (e.pre * 2 ^ (48 - 9 * e.lvl)) (48 - 9 * e.lvl)))

/-- Drops from every core's buffer and every die's walk cache what an invalidation names (R225, R375). It may drop more: at stage two every
translation of the function goes, and whether all of the function goes is left open. -/
def dropEntries (fn kind : Nat) (st2 : Bool) (addr : Nat) (s : State) : State :=
  let all := Config.invalAll s.tick
  { s with
    cores := s.cores.map fun p => (p.1, { p.2 with tlb := p.2.tlb.filter fun t => !t.dropped fn kind st2 addr all })
    walkCache := s.walkCache.filter fun e => !e.dropped fn kind st2 addr all }

/-- An INVAL write (R375): outstanding at once, or queued behind up to 16, or dropped and counted. -/
def invalidate (fn kind : Nat) (st2 : Bool) (addr : Nat) (s : State) : State :=
  let f := func s fn
  if f.inval.isEmpty then send (.invalComplete fn) (setFunc s fn { f with inval := [(kind, st2, addr)] })
  else if f.inval.length ≤ 16 then setFunc s fn { f with inval := f.inval ++ [(kind, st2, addr)] }
  else setFunc s fn { f with drops := f.drops + 1 }

/-- INVAL_FUNCTION (R375). -/
def execInvalFunction (fn : Nat) (st2 : Bool) (s : State) : Out := .next (invalidate fn 0 st2 0 (taken (.invalFunction fn st2) s))

/-- INVAL_PAGE (R375). -/
def execInvalPage (fn : Nat) (st2 : Bool) (addr : Nat) (s : State) : Out :=
  .next (invalidate fn 1 st2 addr (taken (.invalPage fn st2 addr) s))

/-- INVAL_REGION (R375). -/
def execInvalRegion (fn : Nat) (st2 : Bool) (addr : Nat) (s : State) : Out :=
  .next (invalidate fn 2 st2 addr (taken (.invalRegion fn st2 addr) s))

/-- INVAL_COMPLETE (R225): every buffer has dropped the entries named; the next queued invalidation is then outstanding. -/
def execInvalComplete (fn : Nat) (s : State) : Out :=
  let s := taken (.invalComplete fn) s
  let f := func s fn
  match f.inval with
  | [] => .next s
  | (kind, st2, addr) :: r =>
    let s := dropEntries fn kind st2 addr (setFunc s fn { f with inval := r })
    .next (if r.isEmpty then s else send (.invalComplete fn) s)

end Sys2Proof.Machine
end

