-- ==== Sys2Proof/Machine/Copy.lean ====
section
/-! DEFINITION. The copy engine (R233 to R242): issue, start, the parts of a copy, completion, and the queries. -/

namespace Sys2Proof.Machine

/-! ## Operands (R233) -/

/-- What an address operand names. -/
inductive Opnd where
  | glob (va : Nat)
  | own (la : Nat)
  | remote (core la : Nat) (test : Bool)
  | store (core addr : Nat)
deriving DecidableEq, Repr

/-- The operand in a register. -/
def opndOf (r : Reg) : Opnd :=
  let v := r.val.toNat
  if r.tag then
    let a := capAddr v
    if inCoreSpace a then
      if bitAt a 31 then .store (bits a 43 32) (bits a 30 0) else .remote (bits a 43 32) (bits a 30 0) false
    else .glob a
  else if bitAt v 44 then .remote (bits v 43 32) (bits v 31 0) true else .own (bits v 31 0)

/-- Whether an operand is an instruction store. -/
def Opnd.isStore : Opnd → Bool
  | .store _ _ => true
  | _ => false

/-- The check of a tagged operand over an extent from `off` on: 0, or the status of R241. A source is never an instruction store. -/
def capStatus (r : Reg) (wr : Bool) (off : Int) (n : Nat) : Nat :=
  let v := r.val.toNat
  if !r.tag then 0
  else if capSeal v ≠ 0 then 1
  else if (opndOf r).isStore && !wr then 1
  else if (opndOf r).isStore && !capIS v then 9
  else if !(opndOf r).isStore && !(if wr then capSD v else capLD v) then 1
  else if capIn v (capAddr v + off) n then 0 else 1

/-- The whole-extent check of an instruction-store destination (R235). -/
def storeStatus (o : Opnd) (n : Nat) : Nat :=
  match o with
  | .store _ a => if a % 4 ≠ 0 ∨ n % 4 ≠ 0 ∨ 65536 < a + n then 9 else 0
  | _ => 0

/-- The core whose local addresses an operand of core `c` names. -/
def Opnd.localOf (c : Nat) : Opnd → Option (Nat × Nat)
  | .own la => some (c, la)
  | .remote k la _ => some (k, la)
  | _ => none

/-- Whether two ranges of `n` bytes overlap. -/
def rangesMeet (a b n : Nat) : Bool := decide (a < b + n) && decide (b < a + n)

/-- Whether a CPY's extents overlap as named (R235). -/
def overlaps (c : Nat) (d s : Opnd) (n : Nat) : Bool :=
  match d, s with
  | .glob a, .glob b => rangesMeet a b n
  | .store k a, .store j b => k == j && rangesMeet a b n
  | d, s =>
    match d.localOf c, s.localOf c with
    | some (k, a), some (j, b) => k == j && rangesMeet a b n
    | _, _ => false

/-! ## The parts of a command -/

/-- Cuts `n` bytes at the 128-byte lines of an address: offsets and sizes. -/
def cutLines (a : Nat) : Nat → Nat → Nat → List (Nat × Nat)
  | 0, _, _ => []
  | fuel + 1, off, n =>
    if n = 0 then []
    else
      let m := Nat.min n (128 - (a + off) % 128)
      (off, m) :: cutLines a fuel (off + m) (n - m)

/-- The lines of `n` bytes at an address. -/
def linesOf (a n : Nat) : List (Nat × Nat) := cutLines a (n / 128 + 2) 0 n

/-- The low address bits of an operand, for cutting. -/
def Opnd.low : Opnd → Nat
  | .glob a => a
  | .own a => a
  | .remote _ a _ => a
  | .store _ a => a

/-- The element-size code and count of CGTH and CSCT (R236). -/
def CCmd.esize (m : CCmd) : Nat := bits m.len.val.toNat 50 48
def CCmd.ecount (m : CCmd) : Nat := bits m.len.val.toNat 47 32

/-- CDST's length. -/
def CCmd.bytes (m : CCmd) : Nat := bits m.len.val.toNat 31 0

/-- The lines that CDST writes at its targets (R237): of each target, the lines of the blocks dealt to it. -/
def CCmd.dealtLines (m : CCmd) (la : Nat) : List (Nat × Nat) :=
  (List.range m.targets).flatMap fun t =>
    (linesOf la ((m.bytes / m.block + (m.targets - 1 - t)) / m.targets * m.block)).map fun q => (q.1 + t * 2 ^ 32, q.2)

/-- The offset of a read in the source. -/
def Copy.srcOff (p : Copy) (read : Nat) : Int :=
  match p.cmd.op with
  | .cgth => p.index.getD read 0 * 2 ^ p.cmd.esize
  | _ => ((p.srcs.getD read (0, 0)).1 : Int)

/-- The offset of a part in its destination: in CDST, at its own target. -/
def Copy.dstOff (p : Copy) (part : Nat) : Int :=
  let o := (p.parts.getD part (0, 0)).1
  match p.cmd.op with
  | .csct => p.index.getD part 0 * 2 ^ p.cmd.esize
  | .cdst => (o % 2 ^ 32 : Nat)
  | _ => (o : Int)

/-- The destinations of a part: one operand, CDST's target of the block, or every receiver of CMCST. -/
def Copy.dsts (p : Copy) (part : Nat) : List Opnd :=
  let v := p.cmd.dst.val.toNat
  match p.cmd.op with
  | .cdst => [.remote (bits v 43 32 + (p.parts.getD part (0, 0)).1 / 2 ^ 32) (bits v 31 0) true]
  | .cmcst => p.cmd.receivers.map fun k => .remote k (bits v 31 0) true
  | _ => [opndOf p.cmd.dst]

/-- What `n` bytes from `o` on of the source have given, in units of `u` bytes, from what each read gave. -/
def Copy.gather {α : Type} (p : Copy) (part : Nat) (get : Nat → List α) (u : Nat) : Nat → Nat → Nat → List α
  | 0, _, _ => []
  | fuel + 1, o, n =>
    if n = 0 then []
    else
      let r := p.readAt part o
      let d := ((get r).drop ((o - (p.srcs.getD r (0, 0)).1) / u)).take (n / u)
      d ++ Copy.gather p part get u fuel (o + d.length * u) (n - d.length * u)

/-- The bytes of a part, once its reads are done. -/
def Copy.partData (p : Copy) (part : Nat) : List Byte :=
  (p.pieces part).flatMap fun q => p.gather part (fun r => (tget p.got r ([], [])).1) 1 3 q.1 q.2

/-- The tags of the 16-byte units of a part. -/
def Copy.partTags (p : Copy) (part : Nat) : List Bool :=
  if p.keep then (p.pieces part).flatMap fun q => p.gather part (fun r => (tget p.got r ([], [])).2) 16 3 q.1 q.2 else []

/-- What the address of a part comes to: a destination of an access with its tenant test, a page to wait for, or a status. -/
inductive PartRes where
  | ok (d : Dest) (tenant : Option (Option (Nat × Nat))) (s : State)
  | page (vpage : Nat) (s : State)
  | bad (status : Nat) (s : State)

/-- The place of `n` bytes of an operand from `off` on, translated where it is global (R233, R236). `elem`: an element, checked on its
own for its alignment. -/
def resolvePart (c : Nat) (sup : Bool) (o : Opnd) (r : Reg) (wr elem : Bool) (off : Int) (n : Nat) (s : State) : PartRes :=
  let x := ctxOf s c sup
  let st := capStatus r wr off n
  if st ≠ 0 then .bad st s
  else
    match o with
    | .own la =>
      let a := wrap 32 (la + off)
      if elem && a % n != 0 then .bad 8 s else .ok (.bank c sup a false) none s
    | .remote k la test =>
      let a := wrap 32 (la + off)
      if elem && a % n != 0 then .bad 8 s else .ok (.bank k false a true) (if test then some (tenantOf x) else none) s
    | .store k a =>
      let t := wrap 32 (a + off)
      if elem && t % n != 0 then .bad 8 s
      else if elem && (t % 4 != 0 || n % 4 != 0 || 65536 < t + n) then .bad 9 s
      else .ok (.istore k t) none s
    | .glob va =>
      let v := wrap 52 (va + off)
      if inCoreSpace v then .bad 1 s
      else if elem && v % n != 0 then .bad 8 s
      else
        match translateEngine c x 3 v (!wr) wr s with
        | (.ok pa, s) => if physOk s pa then .ok (.home pa) none s else .bad 10 s
        | (.error none, s) => .page (v / 4096) s
        | (.error (some f), s) => .bad 2 (logMalformed c f s)

/-- The copy of a context with a name. -/
def copyOf (s : State) (c : Nat) (sup : Bool) (id : Nat) : Option Copy := (ctxOf s c sup).copies.find? fun p => p.id == id

/-- A read or a part's write waits for a page: `k` is 2 x the read's number, or 2 x the part's + 1. -/
def waitPage (c : Nat) (sup : Bool) (id k vpage : Nat) (s : State) : State :=
  onCopy c sup id (fun p => { p with waits := tset p.waits k vpage }) s

/-- An access of a copy: of `n` bytes, for its read or its part `i`. -/
def copyAccess (p : Copy) (c : Nat) (sup : Bool) (i n : Nat) (d : Dest) (ten : Option (Option (Nat × Nat))) (wr : Bool) : Access :=
  { id := 0, core := c, sup := sup, eng := 3, dest := d, size := n, born := p.cmd.seq, copy := p.id, part := i
    need := if wr then permW else permR, tenant := ten, bar := if wr then p.cmd.bb else 0 }

/-- Starts a read: its address is found, and it enters the machine. -/
def startRead (c : Nat) (sup : Bool) (p : Copy) (i : Nat) (s : State) : State :=
  let n := (p.srcs.getD i (0, 0)).2
  match resolvePart c sup (opndOf p.cmd.src) p.cmd.src false p.cmd.elementwise (p.srcOff i) n s with
  | .bad st s => onCopy c sup p.id (fun p => p.failRead st c i) s
  | .page v s => waitPage c sup p.id (2 * i) v s
  | .ok d ten s => post (copyAccess p c sup i n d ten false) s

/-- Starts reads from number `i` on. -/
def startReads (c : Nat) (sup : Bool) (p : Copy) : Nat → Nat → State → State
  | 0, _, s => s
  | n + 1, i, s => startReads c sup p n (i + 1) (startRead c sup p i s)

/-- A part's reads are done: its writes enter the machine, each of a whole line, one for each destination. -/
def writePart (c : Nat) (sup : Bool) (p : Copy) (s : State) (i : Nat) : State :=
  let n := (p.parts.getD i (0, 0)).2
  let data := p.partData i
  let tags := p.partTags i
  let one (s : State) (o : Opnd) : State :=
    match resolvePart c sup o (if p.cmd.op = .cdst ∨ p.cmd.op = .cmcst then {} else p.cmd.dst) true p.cmd.elementwise (p.dstOff i) n s with
    | .bad st s => onCopy c sup p.id (fun p => p.failPart st c i) s
    | .page v s => waitPage c sup p.id (2 * i + 1) v s
    | .ok d ten s => post { copyAccess p c sup i n d ten true with write := some data, tags := tags } s
  let dsts := p.dsts i
  let s := if dsts.length ≤ 1 then s else onCopy c sup p.id (fun p => { p with left := tset p.left i dsts.length }) s
  dsts.foldl one s

/-- A read's bytes have come: the parts that take bytes from it, and whose other reads are done, are written. -/
def takeRead (c : Nat) (sup : Bool) (id i : Nat) (b : List Byte) (tags : List Bool) (s : State) : State :=
  let s := onCopy c sup id (fun p => { p with got := tset p.got i (b, tags) }) s
  match copyOf s c sup id with
  | none => s
  | some p =>
    ((p.partsOf i).filter fun j => !p.done.contains j && (p.reads j).all fun r => (tfind p.got r).isSome).foldl (writePart c sup p) s

/-- The bytes that a scatter's element reaches, to compare with another's. -/
def Copy.scatterKey (p : Copy) (j : Nat) : Nat :=
  let o := p.index.getD j 0 * 2 ^ p.cmd.esize
  match opndOf p.cmd.dst with
  | .glob _ => wrap 52 o
  | _ => wrap 32 o

/-- Whether a scatter's element waits for a lower one that is not done (R236). -/
def Copy.blocked (p : Copy) (j : Nat) : Bool :=
  p.cmd.op == .csct && (List.range j).any fun i => !p.done.contains i && p.scatterKey i == p.scatterKey j

/-- READ_RETURN (R293): the value reaches its register or engine, and its clock merges into the die's. -/
def execReadReturn (id : Nat) (s : State) : Out :=
  let s := taken (.readReturn id) s
  match access s id with
  | none => .next s
  | some a =>
    if a.stage != .served then .next s
    else
      let t := mergeClock a.die a.clock (dropAccess id s)
      match a.eng with
      | 3 =>
        match copyOf s a.core a.sup a.copy with
        | none => .next t
        | some p => if p.blocked a.part then .next s else .next (takeRead a.core a.sup a.copy a.part a.val a.vtags t)
      | _ => .next (match a.reg with | some n => returnToReg a n t | none => t)

/-! ## Starting and completing (R234, R239, R241) -/

/-- Whether every command that a context issued before a tick is out of its queues (R297): all but the copies' own writes. -/
def earlierDone (x : Ctx) (seq : Nat) : Bool :=
  x.vq.all (fun v => seq ≤ v.seq) && x.mq.all (fun m => seq ≤ m.seq) && x.cq.all (fun m => seq ≤ m.seq) &&
    x.copies.all (fun p => seq ≤ p.cmd.seq) && x.fills.all (fun f => seq ≤ f.cmd.seq) && x.mstores.all (fun p => seq ≤ p.cmd.seq)

/-- An ACQ at a scope holds a command until every earlier access has been performed there (R297). -/
def acquired (s : State) (c : Nat) (sup : Bool) (o : Order) (seq : Nat) : Bool :=
  !o.acq || (earlierDone (ctxOf s c sup) seq && quiet s c sup o.scope seq)

/-- The context whose copy queue moves: the supervisor's only while the user's is empty (R335). -/
def copySide (s : State) (c : Nat) : Bool := (core s c).user.cq.isEmpty

/-- The element of an index array that lies first in the line of an address. -/
def indexElem (base a : Nat) : Nat := (a - base) / 4

/-- What a command comes to at its start: a wait, or the copy's reads, parts and indices, and a whole-command fault. -/
inductive Begun where
  | wait
  | ok (srcs parts : List (Nat × Nat)) (index : List Int) (status elem : Nat)

/-- Little-endian 32-bit signed numbers. -/
def indices : Nat → List Byte → List Int
  | 0, _ => []
  | n + 1, b => signed 32 (ofBytes (b.take 4)) :: indices n (b.drop 4)

/-- The whole-command checks of the copy commands (R235 to R238). -/
def beginCopy (s : State) (c : Nat) (sup : Bool) (m : CCmd) : Begun :=
  let x := ctxOf s c sup
  let d := opndOf m.dst
  let src := opndOf m.src
  let n := m.bytes
  match m.op with
  | .cfnc => .ok [] [] [] 0 0
  | .cpy =>
    if n = 0 then .ok [] [] [] 0 0
    else
      let st := [capStatus m.src false 0 n, storeStatus d n, capStatus m.dst true 0 n, if overlaps c d src n then 8 else 0].find? (· != 0)
      match st with
      | some e => .ok [] [] [] e 0
      | none => .ok (linesOf src.low n) (linesOf d.low n) [] 0 0
  | .cdst =>
    let remote := match d with | .remote _ _ true => true | _ => false
    let c0 := bits m.dst.val.toNat 43 32
    if !remote ∨ 8 < bits m.len.val.toNat 35 32 ∨ n % m.block ≠ 0 ∨ 63 < c0 % 64 + m.targets - 1 then .ok [] [] [] 8 0
    else if n = 0 then .ok [] [] [] 0 0
    else
      let st := capStatus m.src false 0 n
      if st ≠ 0 then .ok [] [] [] st 0 else .ok (linesOf src.low n) (m.dealtLines d.low) [] 0 0
  | .cmcst =>
    let remote := match d with | .remote _ _ true => true | _ => false
    if !remote then .ok [] [] [] 8 0
    else if n = 0 ∨ m.receivers.isEmpty then .ok [] [] [] 0 0
    else
      let st := capStatus m.src false 0 n
      if st ≠ 0 then .ok [] [] [] st 0 else .ok (linesOf src.low n) (linesOf d.low n) [] 0 0
  | _ =>
    let base := m.bytes
    if m.ecount = 0 ∨ 4 < m.esize ∨ base % 4 ≠ 0 then .ok [] [] [] 8 0
    else
      match spanOf s c sup x permR true base (4 * m.ecount) with
      | .wait => .wait
      | .bad cause a => .ok [] [] [] (localStatus cause) (indexElem base a)
      | .ok l =>
        let parts := (List.range m.ecount).map fun j => (j * 2 ^ m.esize, 2 ^ m.esize)
        .ok parts parts (indices m.ecount (runBytes s l)) 0 0

/-- Whether a copy keeps tags (R235). -/
def keepsTags (m : CCmd) : Bool :=
  m.op == .cpy && m.src.tag && m.dst.tag && (match opndOf m.src, opndOf m.dst with | .glob a, .glob b => a % 16 == 0 && b % 16 == 0 | _, _ => false) &&
    m.bytes % 16 == 0 && capLC m.src.val.toNat && capSC m.dst.val.toNat

/-- Whether the copy engine may start the head command of a context: not while it is halted (R362), or stopped for a save (R343). -/
def copyReady (s : State) (c : Nat) (sup : Bool) : Bool :=
  let x := ctxOf s c sup
  match x.cq with
  | [] => false
  | m :: _ =>
    m.bind == .run && !x.dbg.halted && !(core s c).enginesStop sup && decide (x.copies.length < 64) && (x.copies.all fun p => p.cmd.op != .cfnc) && acquired s c sup m.o m.seq &&
      (match beginCopy s c sup m with | .wait => false | _ => true)

/-- COPY_START (R234). -/
def execCopyStart (c : Nat) (s : State) : Out :=
  let s := taken (.copyStart c) s
  if !isCore c then .next s else
  let sup := copySide s c
  let x := ctxOf s c sup
  if !copyReady s c sup then .next s
  else
    match x.cq with
    | [] => .next s
    | m :: r =>
      match beginCopy s c sup m with
      | .wait => .next s
      | .ok srcs parts index status elem =>
        let p : Copy := { id := s.nextId, cmd := m, parts := parts, srcs := srcs, index := index, keep := keepsTags m, status := status, elem := elem }
        let s := setCtxOf { s with nextId := s.nextId + 1 } c sup { x with cq := r, copies := x.copies ++ [p] }
        .next (startReads c sup p srcs.length 0 s)

/-- Whether a part has been performed as far as its completion needs: it is done, or only writes performed at the scope are left. -/
def partComplete (s : State) (c : Nat) (sup : Bool) (p : Copy) (scope part : Nat) : Bool :=
  p.done.contains part ||
    (let l := s.accesses.filter fun a => a.core == c && a.sup == sup && a.eng == 3 && a.copy == p.id && a.part == part && a.writes
     !l.isEmpty && l.all fun a => performedAt s scope a)

/-- Whether a copy may complete (R234, R239, R297). -/
def copyComplete (s : State) (c : Nat) (sup : Bool) (p : Copy) : Bool :=
  let scope := if p.cmd.o.rel then p.cmd.o.scope else 0
  match p.cmd.op with
  | .cfnc => ((ctxOf s c sup).copies.head?.map (·.id)) == some p.id && (!p.cmd.o.rel || quiet s c sup scope p.cmd.seq)
  | _ => (List.range p.parts.length).all (partComplete s c sup p scope)

/-- A command leaves its completion counter, whose fault word keeps its first fault (R241). -/
def Ctx.countDown (x : Ctx) (m : CCmd) (status elem : Nat) : Ctx :=
  let x := { x with cnt := tset x.cnt m.cnt (tget x.cnt m.cnt 0 - 1) }
  if status = 0 ∨ tget x.cfault m.cnt 0 ≠ 0 then x
  else { x with cfault := tset x.cfault m.cnt (BitVec.ofNat 128 (status + fld (elem % 2 ^ 24) 8 + fld (m.pc % 65536) 32)) }

/-- COPY_COMPLETE (R234, R241). -/
def execCopyComplete (c id : Nat) (s : State) : Out :=
  let s := taken (.copyComplete c id) s
  if !isCore c then .next s else
  let sup := (copyOf s c false id).isNone
  match copyOf s c sup id with
  | none => .next s
  | some p =>
    if copyComplete s c sup p then
      let x := ctxOf s c sup
      .next (setCtxOf s c sup ({ x with copies := x.copies.filter fun q => q.id != id }.countDown p.cmd p.status p.elem))
    else .next s

/-- The copy engine discards its head command (R151, R234). -/
def discardCopy (c : Nat) (s : State) : State :=
  let sup := copySide s c
  let x := ctxOf s c sup
  match x.cq with
  | m :: r => if m.bind = .discard then setCtxOf s c sup ({ x with cq := r }.countDown m 0 0) else s
  | [] => s

/-! ## Pages (R227, R236, R241) -/

/-- What of a copy waits for a page, as a reader or as a writer. -/
def Copy.waiting (p : Copy) (vpage : Nat) (wr : Bool) : List Nat :=
  (p.waits.filter fun w => w.2 == vpage && (w.1 % 2 == 1) == wr).map (·.1)

/-- The pages that a context's copies wait for, each with whether it is for a write. -/
def copyPages (x : Ctx) : List (Nat × Bool) := (x.copies.flatMap fun p => p.waits.map fun w => (w.2, w.1 % 2 == 1)).eraseDups

/-- What waits for a page in a context's copies goes on with `f`. -/
def wakeCopies (c : Nat) (sup : Bool) (vpage : Nat) (wr : Bool) (f : Copy → Nat → State → State) (s : State) : State :=
  (ctxOf s c sup).copies.foldl (fun s p =>
    (p.waiting vpage wr).foldl (fun s k => f p (k / 2) (onCopy c sup p.id (fun q => { q with waits := tdel q.waits k }) s)) s) s

/-- What waits for a page in a context's copies is tried again. -/
def retryCopies (c : Nat) (sup : Bool) (vpage : Nat) (wr : Bool) (s : State) : State :=
  wakeCopies c sup vpage wr (fun p i s => if wr then writePart c sup p s i else startRead c sup p i s) s

/-- What waits for a page in a context's copies fails with XFAIL. -/
def failCopies (c : Nat) (sup : Bool) (vpage : Nat) (wr : Bool) (s : State) : State :=
  wakeCopies c sup vpage wr (fun p i s => onCopy c sup p.id (fun q => if wr then q.failPart 3 c i else q.failRead 3 c i) s) s

/-! ## The instructions -/

/-- Whether `n` bytes from a local address on reach a slot. -/
def inSlot (slot la n : Nat) : Bool := decide (la < 32768 * (slot + 1)) && decide (32768 * slot < la + n)

/-- The local address that an operand names at the table of core `c`'s context, if it does (R234). `own`: that context issued the command. -/
def Opnd.atTable (own : Bool) (c : Nat) (sup : Bool) : Opnd → Option Nat
  | .own la => if own then some la else none
  | .remote k la _ => if k = c ∧ !sup then some la else none
  | _ => none

/-- Whether an operand's extent reaches a slot of that table. -/
def operandIn (own : Bool) (c : Nat) (sup : Bool) (slot n : Nat) (o : Opnd) : Bool :=
  match o.atTable own c sup with
  | some la => inSlot slot la n
  | none => false

/-- The bytes that target `t` of a CDST takes: its blocks (R237). -/
def CCmd.share (m : CCmd) (t : Nat) : Nat := (ceilDiv m.bytes m.block + m.targets - 1 - t) / m.targets * m.block

/-- Whether a copy command names the bank at a slot (R234): of CGTH and CSCT, the bank of the index array, and every bank where the operand
whose addresses the indices choose names the table. `own`: the table's context issued the command. -/
def copyIn (own : Bool) (c : Nat) (sup : Bool) (slot : Nat) (m : CCmd) : Bool :=
  match m.op with
  | .cfnc => false
  | .cpy => operandIn own c sup slot m.bytes (opndOf m.src) || operandIn own c sup slot m.bytes (opndOf m.dst)
  | .cdst => operandIn own c sup slot m.bytes (opndOf m.src) ||
      (c / 64 == bits m.dst.val.toNat 43 38 && !sup && decide (bits m.dst.val.toNat 37 32 ≤ c % 64) &&
        decide (c % 64 < bits m.dst.val.toNat 37 32 + m.targets) &&
        inSlot slot (bits m.dst.val.toNat 31 0) (m.share (c % 64 - bits m.dst.val.toNat 37 32)))
  | .cmcst => operandIn own c sup slot m.bytes (opndOf m.src) ||
      (m.receivers.contains c && !sup && inSlot slot (bits m.dst.val.toNat 31 0) m.bytes)
  | .cgth => (own && inSlot slot m.bytes (4 * m.ecount)) || ((opndOf m.src).atTable own c sup).isSome
  | .csct => (own && inSlot slot m.bytes (4 * m.ecount)) || ((opndOf m.dst).atTable own c sup).isSome

/-- Whether a copy command names a slot that the open group has staged (R350): it is misuse when it issues (DEDUCED, entry 98). -/
def CCmd.staged (c : Nat) (sup : Bool) (x : Ctx) (m : CCmd) : Bool := (List.range 64).any fun i => x.staged i && copyIn true c sup i m

/-- Issues a copy command (R151, R234): its counter rises at issue. -/
def issueCopy (op : COp) (g : Option (BitVec 3)) (x y z : BitVec 3) (b p : Nat) (r q : Bool) (n : BitVec 2) (s : State) : Out :=
  let k := cx s
  let m : CCmd := { op := op, seq := s.tick, dst := k48 s x, src := k48 s y, len := k48 s z, cnt := n.toNat, bb := b
                    o := { acq := q, rel := r, scope := p }, bind := bindTo k g, grd := g.map (·.toNat), pc := k.pc }
  if 16 ≤ k.cq.length then .next (wait 13 s)
  else if k.tx.isSome && m.staged s.cur (onSup s) k then .next (trapWord 0x0A s)
  else .next (finish (setCx s { k with cq := k.cq ++ [m], cnt := tset k.cnt n.toNat (tget k.cnt n.toNat 0 + 1) }))

/-- CPY (R235). -/
def execCpy (g : Option (BitVec 3)) (x y z : BitVec 3) (b : BitVec 2) (p : BitVec 3) (r q : Bool) (n : BitVec 2) (s : State) : Out :=
  issueCopy .cpy g x y z b.toNat p.toNat r q n s

/-- CGTH (R236). -/
def execCgth (g : Option (BitVec 3)) (x y z p : BitVec 3) (r q : Bool) (n : BitVec 2) (s : State) : Out :=
  issueCopy .cgth g x y z 0 p.toNat r q n s

/-- CSCT (R236). -/
def execCsct (g : Option (BitVec 3)) (x y z p : BitVec 3) (r q : Bool) (n : BitVec 2) (s : State) : Out :=
  issueCopy .csct g x y z 0 p.toNat r q n s

/-- CDST (R237). -/
def execCdst (g : Option (BitVec 3)) (x y z : BitVec 3) (b : BitVec 2) (p : BitVec 3) (r q : Bool) (n : BitVec 2) (s : State) : Out :=
  issueCopy .cdst g x y z b.toNat p.toNat r q n s

/-- CMCST (R238). -/
def execCmcst (g : Option (BitVec 3)) (x y z : BitVec 3) (b : BitVec 2) (p : BitVec 3) (r q : Bool) (n : BitVec 2) (s : State) : Out :=
  issueCopy .cmcst g x y z b.toNat p.toNat r q n s

/-- CFNC (R239). -/
def execCfnc (g : Option (BitVec 3)) (p : BitVec 3) (r q : Bool) (n : BitVec 2) (s : State) : Out :=
  issueCopy .cfnc g 0 0 0 0 p.toNat r q n s

/-- CWCNT (R240). -/
def execCwcnt (d a b : BitVec 6) (s : State) : Out :=
  let x := cx s
  let i := bits (rn s a) 1 0
  if !bitAt (rn s a) 2 then
    if tget x.cnt i 0 ≤ bits (rn s b) 31 0 then .next (finish (putWord d (tget x.cfault i 0) s)) else .next (wait 18 s)
  else if i = 0 then .next (finish (putNat d 8 s))
  else if bits (rn s b) 63 0 ≤ tget x.barr i 0 then .next (finish (putNat d (tget x.barr i 0) s))
  else .next (wait 18 s)

/-- CQRY (R241). -/
def execCqry (d a : BitVec 6) (s : State) : Out :=
  let x := cx s
  let v := rn s a
  let i := bits v 1 0
  let clr := bitAt v 4
  match bits v 3 2 with
  | 0 => .next (finish (putNat d (tget x.cnt i 0) s))
  | 1 =>
    if i = 0 then .next (finish (putNat d 8 s))
    else .next (finish (putNat d (tget x.barr i 0) (if clr then setCx s { x with barr := tdel x.barr i } else s)))
  | 2 => .next (finish (putWord d (tget x.cfault i 0) (if clr then setCx s { x with cfault := tdel x.cfault i } else s)))
  | _ => .next (finish (putNat d (x.copies.length + fld x.cq.length 8) s))

end Sys2Proof.Machine
end

