-- ==== Sys2Proof/Machine/Records.lean ====
section
/-! DEFINITION. Operand records: their fields (R74, R75), their use (R76, R78), and reading and addressing memory through them (R40, R43,
R272). -/

namespace Sys2Proof.Machine

/-! ## Fields (R74) -/

def recRef (r : Nat) : Nat := bits r 127 0
def recFmt (r : Nat) : Nat := bits r 132 128
def recSeg (r : Nat) : Bool := bitAt r 133
def recPerSeg (r : Nat) : Bool := bitAt r 134
def recKind (r : Nat) : Bool := bitAt r 135
def recTtag (r : Nat) : Nat := bits r 159 144
def recRows (r : Nat) : Nat := bits r 183 160
def recKdim (r : Nat) : Nat := bits r 207 184
def recStride (r : Nat) : Nat := bits r 255 224
def recOffs (r : Nat) : Nat := bits r 303 256
def recOstr (r : Nat) : Int := signed 32 (bits r 351 320)
def recScoff (r : Nat) : Nat := bits r 399 352

/-- Whether the record's reservations are wide (R41). -/
def recWide (r : Nat) : Bool := recFmt r == 2

/-- Bytes of a reservation (R41, R75). -/
def recZ (r : Nat) : Nat := segSize (recWide r)

/-- RecordMalformed: reserved bits, and the table of R75. -/
def recMalformed (r : Nat) : Bool :=
  bits r 511 400 != 0 || bits r 319 304 != 0 || bits r 223 208 != 0 || bits r 143 136 != 0 || (recKind r && bits r 127 32 != 0) ||
    (if recSeg r then
      !(recFmt r == 2 || recFmt r == 17 || recFmt r == 18 || recFmt r == 19) || recStride r % recZ r != 0 ||
        decide (recStride r < ceilDiv (recKdim r) 256 * recZ r)
     else decide (16 < recFmt r) || decide (recStride r < ceilDiv (recKdim r * storeBits (recFmt r)) 8))

/-! ## Reading memory as an engine does -/

/-- Why memory cannot be used now: a page that is absent, a walk in progress, an order to be kept first, or a status (R285) with the walk's
fault or the record cause that goes to the fault log (R76). -/
inductive MErr where
  | page (st2 : Bool) (addr vpage : Nat) (wr : Bool)
  | walk
  | held
  | bad (status : Nat) (walk : Option WalkFault) (cause : Option Nat)
deriving DecidableEq, Repr

/-- The physical address of an access of an engine of a context of core `c`: from the core's buffer, else walked. -/
def xlate (s : State) (c : Nat) (x : Ctx) (va : Nat) (rd wr : Bool) : Except MErr Nat :=
  match translates s x with
  | none => if physOk s va then .ok va else .error (.bad 16 none none)
  | some fn =>
    match tlbHit (core s c) fn (va / 4096) rd wr with
    | some t => if physOk s (t.ppage * 4096) then .ok (t.ppage * 4096 + va % 4096) else .error (.bad 16 none none)
    | none =>
      if walkWaits s (dieOf c) fn va then .error .walk else
      match walkAll s (dieOf c) fn va rd wr with
      | .ok w => if physOk s w.pa then .ok w.pa else .error (.bad 16 none none)
      | .error (.absent st2 a _) => .error (.page st2 a (va / 4096) wr)
      | .error f => .error (.bad 2 (some f) none)

/-- Whether the causal rule lets a read of core `c` be served at a home now (R295). -/
def mayServe (s : State) (c pa : Nat) : Bool :=
  let h := homeDie s pa
  [0, 1, 2, 3].all fun e => e == h || caughtUp s h e ((die s (dieOf c)).vc.getD e 0)

/-- Bytes of global memory, line by line. -/
def readGlobal (s : State) (c : Nat) (x : Ctx) : Nat → Nat → Nat → Except MErr (List Byte)
  | 0, _, _ => .ok []
  | fuel + 1, va, n =>
    if n = 0 then .ok []
    else
      let m := Nat.min n (128 - va % 128)
      match xlate s c x (va % 2 ^ 52) true false with
      | .error e => .error e
      | .ok pa =>
        if !mayServe s c pa then .error .held
        else
          match readGlobal s c x fuel (va + m) (n - m) with
          | .error e => .error e
          | .ok l => .ok (homeBytes s pa m ++ l)

/-- The matrix code of a local cause (R285). -/
def localMatrix (cause : Nat) : Nat := if cause = 0x13 then 4 else if cause = 0x14 then 5 else if cause = 0x0A then 4 else 17

/-- The table check of a core-space access of a matrix command (R272): a core of the issuer's cluster, its user context's table. A line aimed
at a context that is being killed has TARGET (R356). -/
def coreSpan (s : State) (c : Nat) (sup : Bool) (k need la n : Nat) : Except MErr (List (Place × Nat)) :=
  if clusterOf k ≠ clusterOf c ∨ !(core s k).uload then .error (.bad 4 none none)
  else if (core s k).killing then .error (.bad 14 none none)
  else
    match spanOf s k false (core s k).user need (k == c && !sup) la n with
    | .ok l => .ok l
    | .wait => .error .held
    | .bad cause _ => .error (.bad (localMatrix cause) none none)

/-- Bytes reached through a capability: global memory, or the local addresses of a core (R272). -/
def readThrough (s : State) (c : Nat) (sup : Bool) (cap : Nat) (va n : Nat) : Except MErr (List Byte) :=
  if n = 0 then .ok []
  else if inCoreSpace (capAddr cap) then
    (coreSpan s c sup (bits (capAddr cap) 43 32) permML (va % 2 ^ 31) n).map (runBytes s)
  else readGlobal s c (ctxOf s c sup) (n / 128 + 2) va n

/-! ## RecordUse (R76) -/

/-- A record in use: its base, the record, the capability. -/
structure RecUse where
  base : Int
  rec_ : Nat
  cap : Nat
deriving DecidableEq, Repr

/-- A refused use: the status (R285) and the record cause (R332). -/
def refuse (cause : Nat) : MErr := .bad (if cause = 0x2F then 1 else if cause = 0x2E then 7 else 6) none (some cause)

/-- A context's tag test of TTAG (R76, R77): with no region every tag passes. -/
def tagOk (x : Ctx) (t : Nat) : Bool :=
  t == 0 || (match tenantOf x with | some p => tenantMatch t p | none => true)

/-- The physical address of a unit and its tag. -/
def tagAt (s : State) (c : Nat) (x : Ctx) (va : Nat) : Bool :=
  match xlate s c x va true false with
  | .ok pa => homeTag s pa
  | .error _ => false

/-- The capability that a record names, directly or through the weight indirection table. A context with no region has no table: every
weight is out of its range (DESIGN CHOICE, entry 118). -/
def recCap (s : State) (c : Nat) (x : Ctx) (a r : Nat) : Except MErr Nat :=
  if !recKind r then
    if !tagAt s c x a || capSeal (recRef r) != 1 then .error (refuse 0x2F) else .ok (recRef r)
  else
    let w : Int := (bits r 15 0 : Nat) + (x.instN : Int) * signed 16 (bits r 31 16)
    let base := match x.region with | some g => g.witbase | none => 0
    let n := match x.region with | some g => g.witn | none => 0
    if w < 0 ∨ (n : Int) ≤ w then .error (refuse 0x30)
    else
      let ea := base + 32 * w.toNat
      match readGlobal s c x 2 ea 32 with
      | .error e => .error e
      | .ok b =>
        let e := ofBytes b
        if !bitAt e 144 || !tagAt s c x ea then .error (refuse 0x31)
        else if !tagOk x (bits e 143 128) then .error (refuse 0x2E)
        else .ok (bits e 127 0)

/-- RecordUse without its extent. `perm`: the permissions needed; `pre`: what the command checks of the record's FMT before its use. A
capability to an instruction store is no operand (DESIGN CHOICE, entry 107). -/
def useRecord (s : State) (c : Nat) (sup : Bool) (a : Nat) (perm : Nat → Bool) (pre : Nat → Option MErr) : Except MErr RecUse :=
  let x := ctxOf s c sup
  if a % 64 ≠ 0 then .error (refuse 0x2D)
  else
    match readGlobal s c x 2 a 64 with
    | .error e => .error e
    | .ok b =>
      let r := ofBytes b
      if (pre (recFmt r)).isSome then .error ((pre (recFmt r)).getD .held)
      else if recMalformed r then .error (refuse 0x2D)
      else if !tagOk x (recTtag r) then .error (refuse 0x2E)
      else
        match recCap s c x a r with
        | .error e => .error e
        | .ok cap =>
          let base : Int := capAddr cap + recOffs r + (x.instN : Int) * recOstr r
          if recSeg r && base % (if recWide r then 64 else 256) != 0 then .error (refuse 0x2D)
          else if !perm cap || (inCoreSpace (capAddr cap) && bitAt (capAddr cap) 31) then .error (refuse 0x2F)
          else .ok ⟨base, r, cap⟩

/-- An extent: address and bytes. -/
abbrev Extent := Int × Nat

/-- Whether every extent lies within the capability. -/
def extentsIn (cap : Nat) (l : List Extent) : Bool := l.all fun e => e.2 == 0 || capIn cap e.1 e.2

/-- The extent of elements k to k + n - 1 of a row in plain layout (R75). -/
def plainExtent (u : RecUse) (row k n : Nat) : Extent :=
  let w := storeBits (recFmt u.rec_)
  (u.base + (row * recStride u.rec_ + k * w / 8 : Nat), if n = 0 then 0 else (k * w % 8 + n * w + 7) / 8)

/-- The base of the scale array (R75). -/
def scaleBase (u : RecUse) : Int := u.base - recOffs u.rec_ + recScoff u.rec_

/-- The extent of the scales of elements k to k + n - 1 of a row (R40): none for other formats. -/
def scaleExtent (u : RecUse) (row k n : Nat) : Extent :=
  if recFmt u.rec_ = 14 then (scaleBase u + (4 * row : Nat), if n = 0 then 0 else 4)
  else if recFmt u.rec_ = 15 ∨ recFmt u.rec_ = 16 then
    (scaleBase u + (row * ceilDiv (recKdim u.rec_) 32 + k / 32 : Nat), if n = 0 then 0 else (k + n - 1) / 32 + 1 - k / 32)
  else (0, 0)

/-- The extent of segment `g` of a row. -/
def segExtent (u : RecUse) (row g : Nat) : Extent := (u.base + (row * recStride u.rec_ + g * recZ u.rec_ : Nat), recZ u.rec_)

/-- An address as memory takes it: 52 bits. -/
def addr52 (a : Int) : Nat := wrap 52 a

end Sys2Proof.Machine
end

