-- ==== Sys2Proof/Machine/Vector.lean ====
section
/-! DEFINITION. The vector engine: issuing a command (R245, R248, R249), taking it, running a group and completing it (R250, R252), the
commands (R253 to R259), quantising (R261, R262) and BADDQ (R327). -/

namespace Sys2Proof.Machine

/-! ## Issue -/

/-- The number handling that a command takes at its issue (R248, R150). `mask`: whether the command uses the lane mask. -/
def numEnv (x : Ctx) (mask : Bool) : NumEnv :=
  let p := hvPayload x.hint
  { mode := roundMode x, sat := fmtSat x.fmt, tol := (hvTol p).getD (fmtTol x.fmt)
    mask := if mask then hvMask p else none, zero := zeroPolicy x, op4 := hvOp4 p }

/-- The direction of a stream as the commands before will have left it (R211, R249). -/
def streamDir (x : Ctx) (n : Nat) (t : Stream) : Nat :=
  if t.dir ≠ 0 then t.dir
  else match x.vq.find? (fun v => v.bind != .discard && v.names n) with
    | some v => if v.uses.wr.contains n then 2 else 1
    | none => 0

/-- The binding of a mask stream as the commands before will have left it (R249, R259). -/
def maskStep (n : Nat) (o : Option MaskStream) (v : VCmd) : Option MaskStream :=
  if v.bind = .discard then o
  else match v.op with
    | .mset unb => if v.x = n then (if unb then none else some { base := wbits v.k1.val 31 0, count := wbits v.k2.val 31 0 }) else o
    | _ =>
      if v.namesMask n then o.map fun m => if m.dir = 0 then { m with dir := if v.uses.mwr.contains n then 2 else 1 } else m
      else o

/-- The binding of mask stream `n` that the next command will execute with. -/
def maskNext (x : Ctx) (n : Nat) : Option MaskStream := x.vq.foldl (maskStep n) (tfind x.masks n)

/-- The base of the first stream that a command uses against its direction (R249). -/
def directionFault (x : Ctx) (v : VCmd) : Option Nat :=
  let u := v.uses
  let st (want : Nat) (n : Nat) : Option Nat :=
    match tfind x.streams n with
    | some t => let d := streamDir x n t; if d = 3 - want ∨ (u.rd.contains n && u.wr.contains n) then some t.base else none
    | none => none
  let mk (want : Nat) (n : Nat) : Option Nat :=
    match maskNext x n with
    | some m => if m.dir = 3 - want ∨ ((u.mrd ++ u.sel).contains n && u.mwr.contains n) then some m.base else none
    | none => none
  (u.rd.filterMap (st 1) ++ u.wr.filterMap (st 2) ++ (u.mrd ++ u.sel).filterMap (mk 1) ++ u.mwr.filterMap (mk 2)).head?

/-- The format code of a bound stream. -/
def fmtOf (x : Ctx) (n : Nat) : Option Nat := (tfind x.streams n).map (·.fmt)

/-- Whether a bound stream's format satisfies a test: an unbound one does. -/
def fmtAll (x : Ctx) (n : Nat) (p : Nat → Bool) : Bool := match fmtOf x n with | some f => p f | none => true

/-- Whether the storage widths of bound streams agree, with no segments among them (R256, R257). -/
def sameWidth (x : Ctx) (l : List Nat) : Bool :=
  let ws := l.filterMap (fmtOf x)
  ws.all (fun f => f ≤ 16) && ws.all (fun f => ws.all fun g => storeBits f == storeBits g)

/-- Segment formats that a command with or without WIDE reads (R262, R327). -/
def segFmt (wide : Bool) (f : Nat) : Bool := 17 ≤ f || (f == 2 && wide)

/-- Whether the base of a destination of wide reservations is 64-aligned (R261, R327). -/
def wideBase (x : Ctx) (n : Nat) (wide : Bool) : Bool :=
  !wide || (match tfind x.streams n with | some t => t.fmt != 2 || t.base % 64 == 0 | none => true)

/-- Whether a command's formats and bases are those its description allows (R249). A source of wide reservations is read at any base
(DESIGN CHOICE, entry 96). -/
def operandsOk (x : Ctx) (v : VCmd) : Bool :=
  let le16 := fmtAll x v.x fun f => f ≤ 16
  match v.op with
  | .arith _ _ => le16
  | .fma _ => le16 && v.env.op4.isSome
  | .unary _ _ => le16
  | .cmp _ => true
  | .sel _ => le16
  | .logic _ => sameWidth x [v.x, v.y, v.z]
  | .shift _ => fmtAll x v.x isIntFmt && fmtAll x v.y isIntFmt && fmtAll x v.z isIntFmt
  | .cvt => le16
  | .qnt _ wide =>
    fmtAll x v.x (fun f => if wide then f == 2 else 17 ≤ f) && wideBase x v.x wide
  | .dqnt _ wide => le16 && fmtAll x v.y (segFmt wide)
  | .red op f => op < 3 || fmtAll x v.y fun g => isIntFmt g && elemBits g == elemBits f
  | .scan op _ => le16 && (op < 3 || fmtAll x v.y isIntFmt)
  | .perm => le16 && fmtAll x v.z isIntFmt
  | .bcst _ => le16
  | .mov => sameWidth x [v.x, v.y]
  | .mlogic _ => true
  | .mset _ => true
  | .special _ => le16
  | .baddq _ wide =>
    fmtAll x v.x (fun f => f == 0 || segFmt wide f) && wideBase x v.x wide && fmtAll x v.y (fun f => f == 0 || segFmt wide f) &&
      fmtAll x v.z (fun f => f == 0 || segFmt wide f)

/-- The register that a command writes when it completes (R250). -/
def VCmd.target (v : VCmd) : Option Nat :=
  match v.op with
  | .red _ _ => some (48 + v.x)
  | .dqnt true _ => some (48 + v.z)
  | _ => none

/-- Whether a command uses a stream as wide FP16 segments: VQNT its destination alone, VDQNT its source alone (R261, R262, R327). -/
def VCmd.wide (v : VCmd) (dst : Bool) (fmt : Nat) : Bool :=
  (match v.op with | .qnt _ w => w && dst | .dqnt _ w => w && !dst | .baddq _ w => w | _ => false) && fmt == 2

/-- The least of a list of counts. -/
def leastOf : List Nat → Nat
  | [] => 0
  | [a] => a
  | a :: t => Nat.min a (leastOf t)

/-- The elements of a stream that BADDQ counts: whole segments of a segment stream (R327). -/
def wholeRemaining (wide : Bool) (o : Option Stream) : Nat :=
  match o with
  | some t => if segFmt wide t.fmt then ceilDiv (t.count - t.pos) 256 * 256 else t.count - t.pos
  | none => 0

/-- The command's length L (R245). -/
def VCmd.length (x : Ctx) (v : VCmd) : Nat :=
  let u := v.uses
  match v.op with
  | .mset _ => 0
  | .baddq _ wide => leastOf ((u.rd ++ u.wr).map fun n => wholeRemaining wide (tfind x.streams n))
  | _ =>
    leastOf ((u.rd ++ u.wr).map (fun n => remaining (tfind x.streams n)) ++ (u.mrd ++ u.mwr).map (fun n => maskRemaining (tfind x.masks n)) ++
      u.sel.filterMap fun n => (tfind x.masks n).map fun m => m.count - m.pos)

/-- Whether a command touches local addresses from `lo` up to `hi`, as its streams and masks stand. -/
def VCmd.touches (x : Ctx) (v : VCmd) (lo hi : Nat) : Bool :=
  let u := v.uses
  let n := v.length x
  let st (dst : Bool) (i : Nat) : Bool := match tfind x.streams i with | some t => t.touches (v.wide dst t.fmt) n lo hi | none => false
  u.rd.any (st false) || u.wr.any (st true) ||
    (u.mrd ++ u.mwr ++ u.sel).any fun i => match tfind x.masks i with | some m => m.touches n lo hi | none => false

/-- Whether a command touches a slot that the open group has staged (R350): it is misuse, and precise, when the command issues
(DEDUCED, entry 98). -/
def VCmd.staged (x : Ctx) (v : VCmd) : Bool := (List.range 64).any fun i => x.staged i && v.touches x (32768 * i) (32768 * i + 32768)

/-- Issues a vector command: it waits for a place in the queue, is checked, and is queued (R151, R249). -/
def issueVector (v : VCmd) (g : Option (BitVec 3)) (s : State) : Out :=
  let x := cx s
  let v := { v with bind := bindTo x g, grd := g.map (·.toNat), pc := x.pc, seq := s.tick }
  if 16 ≤ x.vq.length then .next (wait 13 s)
  else
    match directionFault x v with
    | some base => .next (trapAt 0x16 base s)
    | none =>
      if !operandsOk x v then .next (trapCmd 0x40 s)
      else if v.staged x then .next (trapWord 0x0A s)
      else
        let s := finish s
        let x := cx s
        .next (setCx s { x with vq := x.vq ++ [v], pend := match v.target with | some n => tset x.pend n 8 | none => x.pend })

/-- A command of three E-format fields. -/
def vcmd (op : VOp) (x y z : BitVec 3) (mask : Bool) (s : State) : VCmd :=
  { op := op, x := x.toNat, y := y.toNat, z := z.toNat, env := numEnv (cx s) mask }

/-- VADD (R254). -/
def execVadd (g : Option (BitVec 3)) (x y z : BitVec 3) (w : Bool) (s : State) : Out := issueVector (vcmd (.arith 0 w) x y z true s) g s

/-- VSUB (R254). -/
def execVsub (g : Option (BitVec 3)) (x y z : BitVec 3) (w : Bool) (s : State) : Out := issueVector (vcmd (.arith 1 w) x y z true s) g s

/-- VMUL (R254). -/
def execVmul (g : Option (BitVec 3)) (x y z : BitVec 3) (w : Bool) (s : State) : Out := issueVector (vcmd (.arith 2 w) x y z true s) g s

/-- VFMA (R254). -/
def execVfma (g : Option (BitVec 3)) (x y z : BitVec 3) (w : Bool) (s : State) : Out := issueVector (vcmd (.fma w) x y z true s) g s

/-- VMIN (R254). -/
def execVmin (g : Option (BitVec 3)) (x y z : BitVec 3) (s : State) : Out := issueVector (vcmd (.arith 3 false) x y z true s) g s

/-- VMAX (R254). -/
def execVmax (g : Option (BitVec 3)) (x y z : BitVec 3) (s : State) : Out := issueVector (vcmd (.arith 4 false) x y z true s) g s

/-- VABS (R254). -/
def execVabs (g : Option (BitVec 3)) (x y : BitVec 3) (w : Bool) (s : State) : Out := issueVector (vcmd (.unary false w) x y 0 true s) g s

/-- VNEG (R254). -/
def execVneg (g : Option (BitVec 3)) (x y : BitVec 3) (w : Bool) (s : State) : Out := issueVector (vcmd (.unary true w) x y 0 true s) g s

/-- VCMP (R255). -/
def execVcmp (g : Option (BitVec 3)) (x y z : BitVec 3) (k : BitVec 3) (s : State) : Out := issueVector (vcmd (.cmp k.toNat) x y z true s) g s

/-- VSEL (R255). -/
def execVsel (g : Option (BitVec 3)) (x y z : BitVec 3) (m : BitVec 3) (s : State) : Out := issueVector (vcmd (.sel m.toNat) x y z true s) g s

/-- VAND (R256). -/
def execVand (g : Option (BitVec 3)) (x y z : BitVec 3) (s : State) : Out := issueVector (vcmd (.logic 0) x y z true s) g s

/-- VOR (R256). -/
def execVor (g : Option (BitVec 3)) (x y z : BitVec 3) (s : State) : Out := issueVector (vcmd (.logic 1) x y z true s) g s

/-- VXOR (R256). -/
def execVxor (g : Option (BitVec 3)) (x y z : BitVec 3) (s : State) : Out := issueVector (vcmd (.logic 2) x y z true s) g s

/-- VSLL (R256). -/
def execVsll (g : Option (BitVec 3)) (x y z : BitVec 3) (s : State) : Out := issueVector (vcmd (.shift 0) x y z true s) g s

/-- VSRL (R256). -/
def execVsrl (g : Option (BitVec 3)) (x y z : BitVec 3) (s : State) : Out := issueVector (vcmd (.shift 1) x y z true s) g s

/-- VSRA (R256). -/
def execVsra (g : Option (BitVec 3)) (x y z : BitVec 3) (s : State) : Out := issueVector (vcmd (.shift 2) x y z true s) g s

/-- VCVT (R257). -/
def execVcvt (g : Option (BitVec 3)) (x y : BitVec 3) (s : State) : Out := issueVector (vcmd .cvt x y 0 true s) g s

/-- VQNT (R261). -/
def execVqnt (g : Option (BitVec 3)) (x y : BitVec 3) (w f : Bool) (s : State) : Out := issueVector (vcmd (.qnt f w) x y 0 false s) g s

/-- VDQNT (R262). -/
def execVdqnt (g : Option (BitVec 3)) (x y z : BitVec 3) (w u : Bool) (s : State) : Out := issueVector (vcmd (.dqnt u w) x y z true s) g s

/-- VRED (R258). -/
def execVred (g : Option (BitVec 3)) (x y : BitVec 3) (o : BitVec 3) (f : BitVec 5) (s : State) : Out :=
  issueVector (vcmd (.red o.toNat f.toNat) x y 0 true s) g s

/-- VSCAN (R258). -/
def execVscan (g : Option (BitVec 3)) (x y : BitVec 3) (o : BitVec 3) (e : Bool) (s : State) : Out :=
  issueVector (vcmd (.scan o.toNat e) x y 0 true s) g s

/-- VPERM (R257). -/
def execVperm (g : Option (BitVec 3)) (x y z : BitVec 3) (s : State) : Out := issueVector (vcmd .perm x y z true s) g s

/-- VBCST (R257): the register is read at issue. -/
def execVbcst (g : Option (BitVec 3)) (x y : BitVec 3) (f : BitVec 5) (s : State) : Out :=
  issueVector { vcmd (.bcst f.toNat) x y 0 true s with k1 := k48 s y } g s

/-- VMOV (R257). -/
def execVmov (g : Option (BitVec 3)) (x y : BitVec 3) (s : State) : Out := issueVector (vcmd .mov x y 0 true s) g s

/-- MAND (R259). -/
def execMand (g : Option (BitVec 3)) (x y z : BitVec 3) (s : State) : Out := issueVector (vcmd (.mlogic 0) x y z false s) g s

/-- MOR (R259). -/
def execMor (g : Option (BitVec 3)) (x y z : BitVec 3) (s : State) : Out := issueVector (vcmd (.mlogic 1) x y z false s) g s

/-- MXOR (R259). -/
def execMxor (g : Option (BitVec 3)) (x y z : BitVec 3) (s : State) : Out := issueVector (vcmd (.mlogic 2) x y z false s) g s

/-- MNOT (R259). -/
def execMnot (g : Option (BitVec 3)) (x y : BitVec 3) (s : State) : Out := issueVector (vcmd (.mlogic 3) x y 0 false s) g s

/-- MSET (R259): a base that is not 4-aligned raises stream binding. -/
def execMset (g : Option (BitVec 3)) (x y z : BitVec 3) (s : State) : Out :=
  let k1 := k48 s y
  if wbits k1.val 31 0 % 4 ≠ 0 then .next (trapAt 0x15 (wbits k1.val 31 0) s)
  else issueVector { vcmd (.mset false) x y z false s with k1 := k1, k2 := k48 s z } g s

/-- MSET.U (R259). -/
def execMsetU (g : Option (BitVec 3)) (x : BitVec 3) (s : State) : Out := issueVector (vcmd (.mset true) x 0 0 false s) g s

/-- A special function: with TR the tolerance is K[48 + z][7:0], else that of R81. -/
def issueSpecial (k : Nat) (g : Option (BitVec 3)) (x y z : BitVec 3) (t : Bool) (s : State) : Out :=
  let v := vcmd (.special k) x y z true s
  issueVector { v with env := { v.env with tol := if t then wbits (k48 s z).val 7 0 else v.env.tol } } g s

/-- VRCP (R265). -/
def execVrcp (g : Option (BitVec 3)) (x y z : BitVec 3) (t : Bool) (s : State) : Out := issueSpecial 0 g x y z t s

/-- VRSQ (R265). -/
def execVrsq (g : Option (BitVec 3)) (x y z : BitVec 3) (t : Bool) (s : State) : Out := issueSpecial 1 g x y z t s

/-- VEXP2 (R265). -/
def execVexp2 (g : Option (BitVec 3)) (x y z : BitVec 3) (t : Bool) (s : State) : Out := issueSpecial 2 g x y z t s

/-- VLOG2 (R265). -/
def execVlog2 (g : Option (BitVec 3)) (x y z : BitVec 3) (t : Bool) (s : State) : Out := issueSpecial 3 g x y z t s

/-- VTANH (R265). -/
def execVtanh (g : Option (BitVec 3)) (x y z : BitVec 3) (t : Bool) (s : State) : Out := issueSpecial 4 g x y z t s

/-- VSIGM (R265). -/
def execVsigm (g : Option (BitVec 3)) (x y z : BitVec 3) (t : Bool) (s : State) : Out := issueSpecial 5 g x y z t s

/-- VSIN (R265). -/
def execVsin (g : Option (BitVec 3)) (x y z : BitVec 3) (t : Bool) (s : State) : Out := issueSpecial 6 g x y z t s

/-- VCOS (R265). -/
def execVcos (g : Option (BitVec 3)) (x y z : BitVec 3) (t : Bool) (s : State) : Out := issueSpecial 7 g x y z t s

/-- BADDQ (R327). -/
def execBaddq (g : Option (BitVec 3)) (x y z : BitVec 3) (w f : Bool) (s : State) : Out := issueVector (vcmd (.baddq f w) x y z false s) g s

/-- Whether an earlier command names mask stream `n` (R259). -/
def maskBusy (x : Ctx) (n : Nat) : Bool := x.vq.any fun v => v.namesMask n

/-- The number of one bits among `n` elements of a mask stream, or the first failing access's cause and address (R259). -/
def countMask (s : State) (m : MaskStream) : Nat → Nat → Nat → Except (Option Nat × Nat) Nat
  | 0, _, acc => .ok acc
  | n + 1, j, acc =>
    let va := (m.base + (m.pos + j) / 8) % 2 ^ 32
    match localMap s s.cur (onSup s) (cx s) va (permST + permR) true with
    | .bad cause => .error (some cause, va)
    | .wait => .error (none, va)
    | .ok p => countMask s m n (j + 1) (acc + b2n (bitAt (ofBytes (placeBytes s p 1)) ((m.pos + j) % 8)))

/-- The line of the banks that a local address lies in, as an engine of the context reaches it. -/
def lineOf (s : State) (c : Nat) (sup : Bool) (x : Ctx) (va : Nat) : List Nat :=
  match localMap s c sup x.engine (va % 2 ^ 32) permST true with
  | .ok (.bank i) => [i / 128]
  | _ => []

/-- The lines of the banks that hold bits `j` to `j + n - 1` of a mask stream. -/
def maskLines (s : State) (c : Nat) (sup : Bool) (x : Ctx) (m : MaskStream) (j n : Nat) : List Nat :=
  dedup ((List.range n).flatMap fun i => lineOf s c sup x (m.base + (m.pos + j + i) / 8))

/-- The clocks of the lines that were read reach the reader's die (R295). -/
def mergeLines (c : Nat) (l : List Nat) (s : State) : State := l.foldl (fun s i => readClock c (.bank (128 * i)) 128 s) s

/-- MCNT (R259). -/
def execMcnt (d a : BitVec 6) (s : State) : Out :=
  if maskBusy (cx s) a.toNat then .next (wait 8 s)
  else
    match tfind (cx s).masks a.toNat with
    | none => .next (finish (putNat d (fld 1 64) s))
    | some m =>
      match countMask s m (m.count - m.pos) 0 0 with
      | .ok n =>
        let t := if s.locClock.isEmpty then s else mergeLines s.cur (maskLines s s.cur (onSup s) (cx s) m 0 (m.count - m.pos)) s
        .next (finish (putNat d ((m.count - m.pos) + fld n 32) t))
      | .error (some cause, va) => .next (trapLocal cause va s)
      | .error (none, _) => .next (wait 8 s)

/-! ## Taking a command (R245, R250) -/

/-- The streams and masks a command uses take their direction (R211). -/
def setDirs (x : Ctx) (v : VCmd) : Ctx :=
  let u := v.uses
  let ds (d : Nat) (x : Ctx) (n : Nat) : Ctx :=
    match tfind x.streams n with
    | some t => if t.dir = 0 then { x with streams := tset x.streams n { t with dir := d } } else x
    | none => x
  let dm (d : Nat) (x : Ctx) (n : Nat) : Ctx :=
    match tfind x.masks n with
    | some m => if m.dir = 0 then { x with masks := tset x.masks n { m with dir := d } } else x
    | none => x
  u.mwr.foldl (dm 2) ((u.mrd ++ u.sel).foldl (dm 1) (u.wr.foldl (ds 2) (u.rd.foldl (ds 1) x)))

/-- Whether a vector command reads a bank, so that the cycles before its first group are those of its latency (R250). -/
def VCmd.readsBank (v : VCmd) : Bool := !v.uses.rd.isEmpty || !v.uses.mrd.isEmpty || !v.uses.sel.isEmpty

/-- VECTOR_COMMAND_TAKE (R250): the head command, once its guard has resolved. -/
def execVectorCommandTake (c : Nat) (s : State) : Out :=
  let s := taken (.vectorCommandTake c) s
  let sup := vectorSide (core s c)
  let x := ctxOf s c sup
  match x.vq with
  | v :: r =>
    if v.bind = .run && v.run.isNone && !v.ungranted (core s c) && !(core s c).enginesStop sup && !x.dbg.halted then
      let len := v.length x
      let s := setCtxOf s c sup (setDirs { x with vq := { v with run := some { len := len } } :: r } v)
      .next (spendOn c none (some (if len = 0 then 2 else if v.readsBank then 10 else 8)) none s)
    else .next s
  | [] => .next s

/-! ## The lanes of a group -/

/-- The cycles of the vector slot that a group takes (R154, R212, R250): of bank conflict, of operand wait, issued. -/
structure Cycles where
  conflict : Nat := 0
  wait : Nat := 0
  issued : Nat := 1
deriving DecidableEq, Repr

/-- What a group comes to: the state after it with its cycles, a wait charged to a cause, or a stop by a fault. -/
inductive Group where
  | next (s : State) (t : Cycles)
  | wait (cause : Nat)
  | stop (cause : Nat)

/-- A reduction or scan takes one on element (R258). In a sum, bit 0 of `accBits` records a NaN, bits 1 and 2 the infinities. -/
def VRun.take (r : VRun) (op : Nat) (e : Elem) : VRun :=
  let sig := if e.val.isSig then flagNV else 0
  let bitsOp (f : Nat → Nat → Nat) : Nat := if r.seen then f r.accBits e.raw else e.raw
  match op with
  | 0 =>
    match e.val with
    | .nan _ => { r with seen := true, accBits := r.accBits ||| 1, flags := r.flags ||| sig }
    | .inf s => { r with seen := true, accBits := r.accBits ||| (if s then 4 else 2) }
    | v => { r with seen := true, acc := some (match r.acc with | some a => sumFin a v 0 | none => v) }
  | 1 => let m := match r.acc with | some a => minmaxV false a e.val | none => (e.val, sig)
         { r with seen := true, acc := some m.1, flags := r.flags ||| m.2 }
  | 2 => let m := match r.acc with | some a => minmaxV true a e.val | none => (e.val, sig)
         { r with seen := true, acc := some m.1, flags := r.flags ||| m.2 }
  | 3 => { r with seen := true, accBits := bitsOp (· &&& ·) }
  | 4 => { r with seen := true, accBits := bitsOp (· ||| ·) }
  | _ => { r with seen := true, accBits := bitsOp (· ^^^ ·) }

/-- The value of a reduction that has met an on element, read in the source's format, and the flag of opposite infinities (R62). -/
def VRun.value (r : VRun) (op yfmt : Nat) : FV × Nat :=
  if op = 0 then
    if bitAt r.accBits 0 then (.nan false, 0)
    else if r.accBits = 6 then (.nan false, flagNV)
    else if r.accBits ≠ 0 then (.inf (r.accBits == 4), 0)
    else (r.acc.getD (.fin false 0 0), 0)
  else if op < 3 then (r.acc.getD (.fin false 0 0), 0)
  else (valueOf yfmt r.accBits, 0)

/-- The identity of a reduction as a pattern of a format (R258). -/
def identity (op fmt : Nat) : Nat :=
  let low := op = 2
  match op with
  | 0 => 0
  | 3 => 2 ^ elemBits fmt - 1
  | 4 => 0
  | 5 => 0
  | _ =>
    match floatFmt fmt, intFmt fmt with
    | some f, _ => if f.kind = 0 then packInf f low else packMag f low (largest f).1 (largest f).2
    | none, some (w, sg) => wrap w (if low then intMin w sg else intMax w sg)
    | none, none => 0

/-- Whether a comparison holds (R255), and its flags. -/
def vcmpV (cond : Nat) (a b : FV) : Bool × Nat :=
  let fl := if a.isSig || b.isSig || ((a.isNan || b.isNan) && 2 ≤ cond && cond ≤ 5) then flagNV else 0
  if a.isNan || b.isNan then (cond == 1 || cond == 6, fl)
  else
    let o := cmpV a b
    (match cond with
      | 0 => o == .eq
      | 1 => o != .eq
      | 2 => o == .lt
      | 3 => o != .gt
      | 4 => o == .gt
      | 5 => o != .lt
      | _ => false, fl)

/-- The exact result of an operation on values, with its flags (R254, R255, R257). -/
def opValue (v : VCmd) (y z w : FV) (sel : Bool) : FV × Nat :=
  match v.op with
  | .arith 0 _ => addV y z v.env.mode
  | .arith 1 _ => addV y (negV z) v.env.mode
  | .arith 2 _ => mulV y z
  | .arith 3 _ => minmaxV false y z
  | .arith _ _ => minmaxV true y z
  | .fma _ => fmaV y z w v.env.mode
  | .unary neg _ => (if neg then negV y else y.withSign false, 0)
  | .sel _ => (if sel then y else z, 0)
  | .bcst f => (scalarVal f v.k1.val.toNat, 0)
  | _ => (y, 0)

/-- Whether a command wraps its integer results (R246): IW set and every stream of an integer format. -/
def VCmd.wraps (v : VCmd) (fmts : List Nat) : Bool :=
  (match v.op with | .arith _ w => w | .fma w => w | .unary _ w => w | _ => false) && fmts.all isIntFmt

/-- A logic or shift result as a pattern of `w` bits (R256). -/
def patternOp (op : VOp) (w : Nat) (y z : Elem) : Nat :=
  match op with
  | .logic 0 => y.raw &&& z.raw
  | .logic 1 => y.raw ||| z.raw
  | .logic _ => y.raw ^^^ z.raw
  | .shift k =>
    let a := (z.val.at 0 % (w : Int)).toNat
    let yv := y.val.at 0
    match k with
    | 0 => wrap w (yv * (2 ^ a : Nat))
    | 1 => wrap w yv / 2 ^ a
    | _ => wrap w (yv / (2 ^ a : Nat))
  | _ => y.raw

/-- Operations that act on patterns, with no rounding and no flag. -/
def VOp.onPatterns : VOp → Bool
  | .logic _ => true
  | .shift _ => true
  | .mov => true
  | _ => false

/-- One on lane: the pattern to store, and the roundings' state (R246). `ng`: the elements in the group; `ys`: the group's first source. -/
def laneValue (v : VCmd) (xfmt : Nat) (wraps : Bool) (ys : List Elem) (y z w : Elem) (sel : Bool) (n : NumSt) : Nat × NumSt :=
  let sat := xfmt ≠ 0 && v.env.sat
  if v.op.onPatterns then (storedClean xfmt (patternOp v.op (storeBits xfmt) y z), n)
  else
    match v.op with
    | .special k =>
      let r := deliverSpecial (specialFn k (iterations k v.env.tol) y.val) xfmt v.env.mode sat n
      (stored xfmt r.1, r.2)
    | .perm =>
      let src := match ys[(z.val.at 0 % 32).toNat]? with | some e => e.val | none => .fin false 0 0
      let r := convert xfmt src v.env.mode sat n
      (stored xfmt r.1, r.2)
    | _ =>
      let r := opValue v y.val z.val w.val sel
      if wraps then (wrap (storeBits xfmt) (r.1.at 0), n)
      else
        let q := convert xfmt r.1 v.env.mode sat (n.raise r.2)
        (stored xfmt q.1, q.2)

/-- The default element: where a command has fewer sources. -/
def noElem : Elem := ⟨0, .fin false 0 0⟩

/-- The lanes of a group, in increasing element index (R248). Each lane: its sources, selector bit and whether it is on. -/
def lanes (v : VCmd) (xfmt : Nat) (wraps : Bool) (ys : List Elem) : List (Elem × Elem × Elem × Bool × Bool) → NumSt → List (Option Nat) × NumSt
  | [], n => ([], n)
  | (y, z, w, sel, on) :: t, n =>
    if on then
      let p := laneValue v xfmt wraps ys y z w sel n
      let r := lanes v xfmt wraps ys t p.2
      (some p.1 :: r.1, r.2)
    else
      let r := lanes v xfmt wraps ys t n
      ((if v.env.zero then some 0 else none) :: r.1, r.2)

/-- The lanes of a reduction or a scan (R258): what a scan stores, the running value, the roundings' state. -/
def scanLanes (v : VCmd) (op yfmt xfmt : Nat) (excl : Bool) : List (Elem × Bool) → VRun → NumSt → List (Option Nat) × VRun × NumSt
  | [], r, n => ([], r, n)
  | (y, on) :: t, r, n =>
    let r1 := if on then r.take op y else r
    let src := if excl then r else r1
    if on then
      let p : Nat × NumSt :=
        if src.seen then
          let q := src.value op yfmt
          convert xfmt q.1 v.env.mode (xfmt ≠ 0 && v.env.sat) (n.raise q.2)
        else (identity op xfmt, n)
      let u := scanLanes v op yfmt xfmt excl t r1 p.2
      (some (stored xfmt p.1) :: u.1, u.2)
    else
      let u := scanLanes v op yfmt xfmt excl t r1 n
      ((if v.env.zero then some 0 else none) :: u.1, u.2)

/-! ## Sources and destinations of a group -/

/-- The lines that an element's group touches for it (R212): of a segment, the lines of its block and of the header. -/
def ELoc.lines (s : State) (c : Nat) (sup : Bool) (x : Ctx) (wide : Bool) : ELoc → List Nat
  | .plain bit => lineOf s c sup x (bit / 8)
  | .seg base k =>
    lineOf s c sup x base ++
      match streamBytes s c sup x base 2 with
      | .ok h =>
        match segHead wide (ofBytes (h.take 1)) (ofBytes (h.drop 1)) with
        | .fp16 => lineOf s c sup x (base + 64 + 2 * k)
        | .bx code => match bxFmt code with | some f => lineOf s c sup x (base + 64 * (bxPlace f k).1) | none => []
        | _ => []
      | _ => []

/-- The lines that a group touches through one stream. -/
def groupLines (s : State) (c : Nat) (sup : Bool) (x : Ctx) (wide : Bool) (l : List ELoc) : List Nat :=
  dedup (l.flatMap (ELoc.lines s c sup x wide))

/-- The sources of a group that have been read, with the streams and the state as reading rings left them. -/
structure Sources where
  elems : AList (List Elem)
  locs : AList (List ELoc)
  x : Ctx
  s : State

/-- Reads `n` elements, `k` after the position, of each source stream. -/
def readSources (c : Nat) (sup : Bool) (v : VCmd) (k n : Nat) : List Nat → Sources → Except Group Sources
  | [], a => .ok a
  | i :: t, a =>
    match tfind a.x.streams i with
    | none => .error (.stop 0x46)
    | some st =>
      match locate c a.x st (v.wide false st.fmt) false k n a.s with
      | .wait => .error (.wait 11)
      | .bad e => .error (.stop (elementCause e))
      | .ok l st1 s1 =>
        match readElems s1 c sup a.x st.fmt (v.wide false st.fmt) l with
        | .wait => .error (.wait 8)
        | .stop e => .error (.stop e)
        | .ok es =>
          let s2 := if s1.locClock.isEmpty then s1 else mergeLines c (groupLines s1 c sup a.x (v.wide false st.fmt) l) s1
          readSources c sup v k n t
            { elems := tset a.elems i es, locs := tset a.locs i l, x := { a.x with streams := tset a.x.streams i st1 }, s := s2 }

/-- The elements read of stream `i`. -/
def Sources.of (a : Sources) (i : Nat) : List Elem := tget a.elems i []

/-- Bits of a mask used as operand or selector: an unbound selector reads as ones (R247). -/
def readMask (c : Nat) (sup : Bool) (k n : Nat) (a : Sources) (i : Nat) : Except Group (List Bool) :=
  match tfind a.x.masks i with
  | none => .ok (List.replicate n true)
  | some m =>
    match maskBits a.s c sup a.x m n k with
    | .ok l => .ok l
    | .wait => .error (.wait 8)
    | .stop e => .error (.stop e)

/-- Lane `i` of what was read of a stream. -/
def laneElem (l : List Elem) (i : Nat) : Elem := match l[i]? with | some e => e | none => noElem

/-- The masks of a group: which lanes are on, and the selector's bits. -/
def groupMasks (c : Nat) (sup : Bool) (v : VCmd) (k n : Nat) (a : Sources) : Except Group (List Bool × List Bool) :=
  match (match v.env.mask with | some m => readMask c sup k n a m | none => .ok (List.replicate n true)) with
  | .error g => .error g
  | .ok on =>
    match (match v.op with | .sel m => readMask c sup k n a m | _ => .ok (List.replicate n true)) with
    | .error g => .error g
    | .ok sel => .ok (on, sel)

/-- The stall cycles of a group whose operands touch the lines given, `reads` of them read (R154, R212): for each bank one for each operand
beyond the first, for each operand and bank one for each line beyond the first, and one for a third or fourth read operand. A group's reads and
its writes count as of one cycle (DEDUCED, entry 127). -/
def groupStalls (ops : List (List Nat)) (reads : Nat) : Cycles :=
  let banks (l : List Nat) : List Nat := dedup (l.map (· / 256))
  let all := dedup (ops.flatMap banks)
  { conflict := (all.map fun b => (ops.filter fun l => (banks l).contains b).length - 1).sum
    wait := (ops.map fun l => l.length - (banks l).length).sum + b2n (decide (3 ≤ reads)) }

/-- The lines that a group touches through each stream that it reads. -/
def Sources.lines (c : Nat) (sup : Bool) (v : VCmd) (a : Sources) : List (List Nat) :=
  a.locs.map fun p => groupLines a.s c sup a.x (match tfind a.x.streams p.1 with | some t => v.wide false t.fmt | none => false) p.2

/-- The lines that a group writes. -/
def writeLines (l : List WLoc) : List Nat := dedup (l.filterMap fun w => match w.place with | .bank i => some (i / 128) | .sram _ => none)

/-- The segments that a group of VDQNT is the first to touch. -/
def newSegs : Bool → List ELoc → Nat
  | _, [] => 0
  | first, .seg _ k :: t => b2n (first || k == 0) + newSegs false t
  | _, .plain _ :: t => newSegs false t

/-- The cycles that a group takes in the vector slot (R154, R212, R250, R262, R265): VDQNT adds one for each segment header that it is the
first to touch, and is timed by its own rule alone (DEDUCED, entry 99). -/
def groupCycles (v : VCmd) (first : Bool) (ylocs : List ELoc) (ops : List (List Nat)) (reads : Nat) : Cycles :=
  match v.op with
  | .dqnt _ _ => { issued := 1 + newSegs first ylocs }
  | .special k =>
    let n := iterations k v.env.tol
    { groupStalls ops reads with issued := 1 + (match k with | 3 => n + 3 | 4 => 2 * n | 5 => 2 * n | 6 => n + 1 | 7 => n + 1 | _ => n) }
  | _ => groupStalls ops reads

/-- Puts the context and the running command back after a group of `n` elements. -/
def groupDone (c : Nat) (sup : Bool) (x : Ctx) (v : VCmd) (r : VRun) (n : Nat) (num : NumSt) (t : Cycles) (s : State) : Group :=
  let r := { r with done := r.done + n, flags := r.flags ||| num.flags }
  let s := setCtxOf s c sup { x with vq := { v with run := some r } :: x.vq.drop 1 }
  .next (setCore s c { core s c with rseed := num.seed }) t

/-- The destination of a group: its places and the stream after it. -/
def destination (c : Nat) (sup : Bool) (v : VCmd) (k n : Nat) (a : Sources) : Except Group (List WLoc × Nat × Sources) :=
  match tfind a.x.streams v.x with
  | none => .error (.stop 0x46)
  | some st =>
    match locate c a.x st false true k n a.s with
    | .wait => .error (.wait 12)
    | .bad e => .error (.stop (elementCause e))
    | .ok l st1 s1 =>
      match writeLocs s1 c sup a.x st.fmt l with
      | .wait => .error (.wait 8)
      | .stop e => .error (.stop e)
      | .ok ws => .ok (ws, st.fmt, { a with x := { a.x with streams := tset a.x.streams v.x st1 }, s := s1 })

/-- The group's result, whichever way it ended. -/
def Except.group (e : Except Group Group) : Group := match e with | .ok g => g | .error g => g

/-- The summary of the segments that a group of VDQNT is the first to touch (R262). -/
def summarise (c : Nat) (sup : Bool) (x : Ctx) (s : State) (first : Bool) : List ELoc → VRun → VRun
  | [], r => r
  | .seg base k :: t, r =>
    if first ∨ k = 0 then
      let r :=
        match streamBytes s c sup x base 2, streamBytes s c sup x (base + 62) 2 with
        | .ok h, .ok tail =>
          let r := { r with sumSegs := r.sumSegs + 1 }
          match segHead true (ofBytes (h.take 1)) (ofBytes (h.drop 1)) with
          | .z => { r with sumZ := r.sumZ + 1 }
          | _ => { r with sumErr := Nat.min r.sumErr (ofBytes (tail.take 1)), sumFlags := r.sumFlags ||| ofBytes (tail.drop 1) }
        | _, _ => r
      summarise c sup x s false t r
    else summarise c sup x s false t r
  | .plain _ :: t, r => summarise c sup x s false t r

/-- A group of a command that writes elements, lane by lane (R246). -/
def elementGroup (c : Nat) (sup : Bool) (x : Ctx) (v : VCmd) (r : VRun) (s : State) : Except Group Group := do
  let n := Nat.min 32 (r.len - r.done)
  let a ← readSources c sup v r.done n v.uses.rd { elems := [], locs := [], x := x, s := s }
  let m ← groupMasks c sup v r.done n a
  let d ← destination c sup v r.done n a
  let fmts := d.2.1 :: (v.uses.rd.filterMap (fmtOf x))
  let ys := a.of v.y
  let row := (List.range n).map fun i =>
    (laneElem ys i, laneElem (a.of v.z) i, laneElem (a.of (v.env.op4.getD v.y)) i, m.2.getD i true, m.1.getD i true)
  let res : List (Option Nat) × VRun × NumSt :=
    match v.op with
    | .scan op excl => scanLanes v op ((fmtOf x v.y).getD 0) d.2.1 excl (row.map fun t => (t.1, t.2.2.2.2)) r (core s c).num
    | _ =>
      let p := lanes v d.2.1 (v.wraps fmts) ys row (core s c).num
      (p.1, r, p.2)
  let r' := match v.op with | .dqnt true _ => summarise c sup x s (r.done == 0) (tget a.locs v.y []) res.2.1 | _ => res.2.1
  let t := groupCycles v (r.done == 0) (tget a.locs v.y []) (a.lines c sup v ++ [writeLines d.1]) a.locs.length
  pure (groupDone c sup d.2.2.x v r' n res.2.2 t (writeElems c 1 (d.1.zip res.1) d.2.2.s))

/-- A group of VRED (R258): nothing is written before it completes. -/
def reduceGroup (c : Nat) (sup : Bool) (x : Ctx) (v : VCmd) (r : VRun) (op : Nat) (s : State) : Except Group Group := do
  let n := Nat.min 32 (r.len - r.done)
  let a ← readSources c sup v r.done n v.uses.rd { elems := [], locs := [], x := x, s := s }
  let m ← groupMasks c sup v r.done n a
  let r' := ((a.of v.y).zip m.1).foldl (fun r p => if p.2 then r.take op p.1 else r) r
  pure (groupDone c sup a.x v r' n (core s c).num (groupStalls (a.lines c sup v) a.locs.length) a.s)

/-- The places of the mask bits that a group writes. -/
def maskDest (c : Nat) (sup : Bool) (v : VCmd) (k n : Nat) (a : Sources) : Except Group (List (Place × Nat)) :=
  match tfind a.x.masks v.x with
  | none => .error (.stop 0x46)
  | some m =>
    match maskLocs a.s c sup a.x m n k with
    | .ok l => .ok l
    | .wait => .error (.wait 8)
    | .stop e => .error (.stop e)

/-- A group of VCMP (R255). -/
def compareGroup (c : Nat) (sup : Bool) (x : Ctx) (v : VCmd) (r : VRun) (cond : Nat) (s : State) : Except Group Group := do
  let n := Nat.min 32 (r.len - r.done)
  let a ← readSources c sup v r.done n v.uses.rd { elems := [], locs := [], x := x, s := s }
  let m ← groupMasks c sup v r.done n a
  let d ← maskDest c sup v r.done n a
  let res := (List.range n).map fun i =>
    if m.1.getD i true then
      let q := vcmpV cond (laneElem (a.of v.y) i).val (laneElem (a.of v.z) i).val
      (some q.1, q.2)
    else (if v.env.zero then some false else none, 0)
  let fl := res.foldl (fun f p => f ||| p.2) 0
  pure (groupDone c sup a.x v r n ((core s c).num.raise fl) (groupStalls (a.lines c sup v) a.locs.length)
    (writeBits c (d.zip (res.map (·.1))) a.s))

/-- A group of MAND, MOR, MXOR or MNOT (R259). -/
def maskGroup (c : Nat) (sup : Bool) (x : Ctx) (v : VCmd) (r : VRun) (k : Nat) (s : State) : Except Group Group := do
  let n := Nat.min 32 (r.len - r.done)
  let a : Sources := { elems := [], locs := [], x := x, s := s }
  let y ← readMask c sup r.done n a v.y
  let z ← if k = 3 then pure [] else readMask c sup r.done n a v.z
  let d ← maskDest c sup v r.done n a
  let res := (List.range n).map fun i =>
    let p := y.getD i false
    let q := z.getD i false
    some (match k with | 0 => p && q | 1 => p || q | 2 => p != q | _ => !p)
  pure (groupDone c sup x v r n (core s c).num {} (writeBits c (d.zip res) s))

/-- The blocks of a segment with the runs where they are to be written, checked before any is written. -/
def segRuns (s : State) (c : Nat) (sup : Bool) (x : Ctx) : Nat → List (List Byte) → Except Group (List (List (Place × Nat) × List Byte))
  | _, [] => .ok []
  | va, b :: t =>
    match spanOf s c sup x.engine (permST + permW) true va b.length with
    | .wait => .error (.wait 8)
    | .bad e _ => .error (.stop (elementCause e))
    | .ok l =>
      match segRuns s c sup x (va + 64) t with
      | .ok r => .ok ((l, b) :: r)
      | .error g => .error g

/-- Writes the blocks of a segment. -/
def putRuns (c : Nat) (l : List (List (Place × Nat) × List Byte)) (s : State) : State := l.foldl (fun s p => writeRuns c 1 p.1 p.2 s) s

/-- A segment's destination: its base, and the stream after it. -/
def segDest (c : Nat) (v : VCmd) (k : Nat) (a : Sources) : Except Group (Nat × Sources) :=
  match tfind a.x.streams v.x with
  | none => .error (.stop 0x46)
  | some st =>
    match locate c a.x st (v.wide true st.fmt) true k 256 a.s with
    | .wait => .error (.wait 12)
    | .bad e => .error (.stop (elementCause e))
    | .ok (.seg base _ :: _) st1 s1 => .ok (base, { a with x := { a.x with streams := tset a.x.streams v.x st1 }, s := s1 })
    | .ok _ _ _ => .error (.stop 0x46)

/-- A segment of VQNT (R261): elements beyond L are encoded as +0. -/
def quantGroup (c : Nat) (sup : Bool) (x : Ctx) (v : VCmd) (r : VRun) (fix wide : Bool) (s : State) : Except Group Group := do
  let n := Nat.min 256 (r.len - r.done)
  let a ← readSources c sup v r.done n v.uses.rd { elems := [], locs := [], x := x, s := s }
  let vals := (a.of v.y).map (·.val) ++ List.replicate (256 - n) (.fin false 0 0)
  let code := (fmtOf x v.x).getD 17
  let e := encodeSegment v.env.tol (if fix then some code else none) wide (v.env.mode == 4) vals
  let d ← segDest c v r.done a
  let l ← segRuns d.2.s c sup d.2.x d.1 e.1
  pure (groupDone c sup d.2.x v r n ((core s c).num.raise e.2.1) { issued := 9 + e.1.length } (putRuns c l d.2.s))

/-- The FP32 sums of BADDQ (R327): patterns and flags. -/
def sums : List Elem → List Elem → List Nat × Nat
  | y :: ys, z :: zs =>
    let q := addV y.val z.val 0
    let p := toFloat fp32 q.1 0 false ⟨0, q.2⟩
    let r := sums ys zs
    (p.1 :: r.1, p.2.flags ||| r.2)
  | _, _ => ([], 0)

/-- A segment of BADDQ (R327): RM is ignored, in the sum and in the encoding (DEDUCED, entry 97); R327's cycles are all it takes (DEDUCED, entry
99). -/
def baddGroup (c : Nat) (sup : Bool) (x : Ctx) (v : VCmd) (r : VRun) (fix wide : Bool) (s : State) : Except Group Group := do
  let n := Nat.min 256 (r.len - r.done)
  let a ← readSources c sup v r.done n v.uses.rd { elems := [], locs := [], x := x, s := s }
  let q := sums (a.of v.y) (a.of v.z)
  if fmtOf x v.x = some 0 then
    let d ← destination c sup v r.done n a
    pure (groupDone c sup d.2.2.x v r n ((core s c).num.raise q.2) { issued := 10 } (writeElems c 1 (d.1.zip (q.1.map some)) d.2.2.s))
  else
    let code := (fmtOf x v.x).getD 17
    let vals := q.1.map (valueOf 0) ++ List.replicate (256 - n) (.fin false 0 0)
    let e := encodeSegment v.env.tol (if fix then some code else none) (wide && code == 2) false vals
    let d ← segDest c v r.done a
    let l ← segRuns d.2.s c sup d.2.x d.1 e.1
    pure (groupDone c sup d.2.x v r n ((core s c).num.raise (q.2 ||| e.2.1)) { issued := 10 + e.1.length } (putRuns c l d.2.s))

/-- The clocks of the lines of the masks that a group has read at `s` reach the reader's die (R295). -/
def readMaskClocks (c : Nat) (sup : Bool) (x : Ctx) (v : VCmd) (r : VRun) (s t : State) : State :=
  if s.locClock.isEmpty then t else
  mergeLines c ((v.uses.mrd ++ v.uses.sel).flatMap fun i =>
    match tfind x.masks i with | some m => maskLines s c sup x m r.done (Nat.min 32 (r.len - r.done)) | none => []) t

/-- The next group or segment of an executing command. -/
def runGroup (c : Nat) (sup : Bool) (x : Ctx) (v : VCmd) (r : VRun) (s : State) : Group :=
  match Except.group (match v.op with
    | .red op _ => reduceGroup c sup x v r op s
    | .cmp cond => compareGroup c sup x v r cond s
    | .mlogic k => maskGroup c sup x v r k s
    | .qnt fix wide => quantGroup c sup x v r fix wide s
    | .baddq fix wide => baddGroup c sup x v r fix wide s
    | _ => elementGroup c sup x v r s) with
  | .next t n => .next (readMaskClocks c sup x v r s t) n
  | g => g

/-- The cycles of a group pass in the vector slot, after a free number of stall cycles. -/
def spendGroup (c : Nat) (t : Cycles) (s : State) : State :=
  let pass (n cause : Nat) (s : State) : State := if n = 0 then s else spendFor c n none (some cause) none s
  pass t.issued 2 (pass t.wait 8 (pass t.conflict 9 s))

/-- Whether a running command is at a point where a pre-emption stops it (R252): after a group, and of VDQNT after the group that ends a
segment. -/
def VRun.stops (x : Ctx) (v : VCmd) (r : VRun) : Bool :=
  match v.op, tfind x.streams v.y with
  | .dqnt _ _, some t => r.done == 0 || (t.pos + r.done) / 256 != (t.pos + r.done - 32) / 256
  | _, _ => true

/-- VECTOR_GROUP (R250, R252): one element group, or one segment of a quantising command; a failing element access stops the command. -/
def execVectorGroup (c : Nat) (s : State) : Out :=
  let s := taken (.vectorGroup c) s
  let sup := vectorSide (core s c)
  let x := ctxOf s c sup
  match x.vq with
  | v :: t =>
    match v.run with
    | none => .next s
    | some r =>
      if r.fault.isSome ∨ r.len ≤ r.done ∨ x.dbg.halted ∨ ((core s c).enginesStop sup ∧ r.stops x v) then .next s
      else
        match runGroup c sup x v r s with
        | .next s1 t => .next (spendGroup c t s1)
        | .wait cause => .next (spendOn c none (some cause) none s)
        | .stop cause =>
          let r := { r with fault := some (cause, BitVec.ofNat 128 v.pc) }
          .next (spendOn c none (some 8) none (setCtxOf s c sup { x with vq := { v with run := some r } :: t }))
  | [] => .next s

/-! ## Completion (R250, R252) -/

/-- How far a stream that a command names moves on when `n` of its elements are done (R245, R252, R261, R262, R327). -/
def VCmd.moves (v : VCmd) (i : Nat) (t : Stream) (n : Nat) (stopped : Bool) : Nat :=
  match v.op with
  | .qnt _ _ => if i = v.x then ceilDiv n 256 * 256 else n
  | .dqnt _ _ => n
  | .baddq _ wide => if segFmt wide t.fmt && !stopped then ceilDiv n 256 * 256 else n
  | _ => n

/-- The elements that VDQNT advances by on its source and on its destination (R252, R262). -/
def dqntMoves (p n : Nat) (stopped : Bool) : Nat × Nat :=
  let e := p + n
  if n = 0 then (0, 0)
  else if stopped then (e / 256 * 256 - p, e / 256 * 256 - p)
  else (ceilDiv e 256 * 256 - p, n)

/-- Every stream and mask stream that a command names moves on by what was done. -/
def advanceStreams (x : Ctx) (v : VCmd) (r : VRun) : Ctx :=
  let u := v.uses
  let stopped := r.fault.isSome
  let dq := match tfind x.streams v.y with | some t => dqntMoves t.pos r.done stopped | none => (0, 0)
  let mv (i : Nat) (t : Stream) : Nat :=
    match v.op with
    | .dqnt _ _ => if i = v.y then dq.1 else dq.2
    | _ => v.moves i t r.done stopped
  let f (x : Ctx) (i : Nat) : Ctx :=
    match tfind x.streams i with
    | some t => { x with streams := tset x.streams i { t with pos := t.pos + mv i t } }
    | none => x
  let g (x : Ctx) (i : Nat) : Ctx :=
    match tfind x.masks i with
    | some m => { x with masks := tset x.masks i { m with pos := m.pos + (match v.op with | .dqnt _ _ => dq.2 | _ => r.done) } }
    | none => x
  (dedup (u.mrd ++ u.mwr ++ u.sel)).foldl g ((dedup (u.rd ++ u.wr)).foldl f x)

/-- The executing command as a save records it (R252): its positions and the flags of what is done are the context's, and what remains of it is
the command. -/
def Ctx.suspendVector (x : Ctx) : Ctx :=
  match x.vq with
  | v :: t =>
    match v.run with
    | some r => { (advanceStreams x v r).raise r.flags with vq := { v with run := some { r with len := r.len - r.done, done := 0, flags := 0 } } :: t }
    | none => x
  | [] => x

/-- Whether the executing command of a context stands where a save may record it (R252): between groups, or segments, and not finished. -/
def vectorStopped (x : Ctx) : Bool :=
  match x.vq with
  | v :: _ => match v.run with | some r => r.fault.isNone && decide (r.done < r.len) && r.stops x v | none => true
  | [] => true

/-- The register result of a completed command: its value, and the roundings' state (R258, R262). -/
def VCmd.result (x : Ctx) (v : VCmd) (r : VRun) (n : NumSt) : Nat × NumSt :=
  match v.op with
  | .red op f =>
    if !r.seen then (identity op f, n)
    else if 3 ≤ op then (r.accBits, n)
    else
      let q := r.value op ((fmtOf x v.y).getD 0)
      convert f q.1 v.env.mode (f ≠ 0 && v.env.sat) (n.raise q.2)
  | .dqnt _ _ => (r.sumErr + fld (r.sumFlags % 8) 8 + fld (r.sumSegs % 65536) 16 + fld (r.sumZ % 65536) 32, n)
  | _ => (0, n)

/-- A register whose result is still outstanding from a command in the queue stays so. -/
def stillPending (x : Ctx) : Ctx :=
  x.vq.foldl (fun x v => match v.target with | some n => { x with pend := tset x.pend n 8 } | none => x) x

/-- MSET takes effect (R259). -/
def bindMask (x : Ctx) (v : VCmd) (unb : Bool) : Ctx :=
  { x with masks := if unb then tdel x.masks v.x
                    else tset x.masks v.x { base := wbits v.k1.val 31 0, count := wbits v.k2.val 31 0 } }

/-- VECTOR_COMMAND_COMPLETE (R49, R250): positions, flags and the register result; a command stopped by a fault raises its cause. -/
def execVectorCommandComplete (c : Nat) (s : State) : Out :=
  let s := taken (.vectorCommandComplete c) s
  let sup := vectorSide (core s c)
  let x := ctxOf s c sup
  match x.vq with
  | v :: t =>
    match v.run with
    | none => .next s
    | some r =>
      if (r.fault.isNone && r.done < r.len) || x.dbg.halted then .next s
      else
        let x1 := advanceStreams { x with vq := t } v r
        let x1 := match v.op with | .mset unb => bindMask x1 v unb | _ => x1
        match r.fault with
        | some (cause, val) =>
          let x1 := match v.target with | some n => { x1 with pend := tdel x1.pend n } | none => x1
          .next (raiseImprecise c sup cause val (setCtxOf s c sup (stillPending (x1.raise r.flags))))
        | none =>
          let p := v.result x r ((core s c).num.raise r.flags)
          let s1 := putNum c sup p.2 (setCtxOf s c sup x1)
          match v.target with
          | some n =>
            let s2 := deliver c sup n (BitVec.ofNat 128 p.1) s1
            .next (setCtxOf s2 c sup (stillPending (ctxOf s2 c sup)))
          | none => .next s1
  | [] => .next s

/-- The vector engine discards its head command, whose guard is FALSE (R151): its register result will not come. -/
def discardVector (c : Nat) (s : State) : State :=
  let sup := vectorSide (core s c)
  let x := ctxOf s c sup
  match x.vq with
  | v :: t =>
    if v.bind = .discard && !x.dbg.halted then
      let s := spendOn c none (some 5) none s
      let x := ctxOf s c sup
      setCtxOf s c sup (stillPending { x with vq := t, pend := match v.target with | some n => tdel x.pend n | none => x.pend })
    else s
  | [] => s

end Sys2Proof.Machine
end

