-- ==== Sys2Proof/Machine/Matrix.lean ====
section
/-! DEFINITION. The matrix unit (R268 to R290): slots, loads, multiply and accumulate, drains, spills, remote commands, queries. The unit
takes the command at its head as soon as it may (entry 12). -/

namespace Sys2Proof.Machine

/-! ## Slots (R268 to R270) -/

def slotFree : Nat := 0
def slotClaimed : Nat := 1
def slotFilling : Nat := 2
def slotFull : Nat := 3
def slotFaulted : Nat := 4
def slotStaging : Nat := 5
def slotReleasing : Nat := 6

/-- A slot of a context. -/
def mslot (x : Ctx) (i : Nat) : MSlot := tget x.mslots i {}

/-- Whether slot `h` is the head of a group. -/
def isHead (x : Ctx) (h : Nat) : Bool := (mslot x h).st != slotFree && (mslot x h).head == h

/-- Writes a group: its slots share the state, the head holds the tile. -/
def Ctx.putGroup (x : Ctx) (h : Nat) (m : MSlot) : Ctx :=
  { x with mslots := (List.range m.span).foldl (fun t i =>
      tset t (h + i) (if i = 0 then { m with head := h } else { st := m.st, head := h, span := m.span })) x.mslots }

/-- Frees the slots of a group. -/
def Ctx.freeGroup (x : Ctx) (h span : Nat) : Ctx := { x with mslots := (List.range span).foldl (fun t i => tdel t (h + i)) x.mslots }

/-- The span that a record's FMT takes (R268). -/
def spanOfFmt (f : Nat) : Nat := if f = 0 ∨ f = 1 then 4 else if f = 2 ∨ f = 3 ∨ f = 9 then 2 else 1

/-! ## Faults (R285) -/

/-- The imprecise cause of an operation fault: none for the access faults. -/
def matrixTrap (status : Nat) : Option Nat :=
  if status = 9 then some 0x41 else if status = 10 then some 0x42
  else if status = 8 ∨ status = 11 ∨ status = 12 ∨ status = 13 ∨ status = 15 then some 0x43 else none

/-- The fault word keeps the first fault of a command. -/
def keepFault (c : Nat) (sup : Bool) (pc status elem : Nat) (s : State) : State :=
  let x := ctxOf s c sup
  if x.mfault = 0 then setCtxOf s c sup { x with mfault := BitVec.ofNat 128 (status + fld (elem % 2 ^ 24) 8 + fld (pc % 65536) 32) } else s

/-- A command completes with a fault: the fault word keeps the first, and an operation fault raises its imprecise trap. -/
def matrixFault (c : Nat) (sup : Bool) (pc status elem : Nat) (s : State) : State :=
  let s := keepFault c sup pc status elem s
  match matrixTrap status with
  | some cause => raiseImprecise c sup cause (BitVec.ofNat 128 pc) s
  | none => s

/-- What is logged of a fault: a malformed table, or a refused record with its address (R76, R226). -/
def logErr (c : Nat) (sup : Bool) (recAddr pc : Nat) (e : MErr) (s : State) : State :=
  match e with
  | .bad _ (some f) _ => logMalformed c f s
  | .bad _ none (some cause) => logFor c (ctxOf s c sup) cause false pc (BitVec.ofNat 128 recAddr) s
  | _ => s

/-! ## Tiles (R40, R272) -/

/-- Elements of a plain row from its bytes. -/
def plainElems (f n v : Nat) (scales : Nat → Nat) : List TElem :=
  (List.range n).map fun k =>
    let w := storeBits f
    let raw := v / 2 ^ (k * w) % 2 ^ w
    let p := if f = 1 then raw / 2 ^ 13 else raw % 2 ^ elemBits f
    if f = 14 then .scaled f p true (scales 0) else if f = 15 ∨ f = 16 then .scaled f p false (scales (k / 32)) else .raw f p

/-- A row of a plain record: positions 256s to 256s + kv - 1. -/
def loadPlainRow (s : State) (c : Nat) (sup : Bool) (u : RecUse) (row g kv : Nat) : Except MErr TileRow :=
  let f := recFmt u.rec_
  let e := plainExtent u row (256 * g) kv
  let sc := scaleExtent u row (256 * g) kv
  match readThrough s c sup u.cap (addr52 e.1) e.2, readThrough s c sup u.cap (addr52 sc.1) sc.2 with
  | .error e, _ => .error e
  | _, .error e => .error e
  | .ok b, .ok sb =>
    let sv := ofBytes sb
    .ok ⟨f, plainElems f kv (ofBytes b) fun j => if f = 14 then sv else sv / 256 ^ j % 256⟩

/-- A BX element as it is held. -/
def bxHeld : FV → TElem
  | .fin neg m e => .bx neg m e
  | _ => .bx false 0 0

/-- A row of a segment record: one segment (R43 to R45), under the record's policy (R75). -/
def loadSegRow (s : State) (c : Nat) (sup : Bool) (u : RecUse) (row g : Nat) : Except MErr TileRow :=
  let a := (segExtent u row g).1
  let rd (off n : Nat) := readThrough s c sup u.cap (addr52 (a + (off : Int))) n
  match rd 0 2 with
  | .error e => .error e
  | .ok h =>
    let code := ofBytes (h.take 1)
    let head := segHead (recWide u.rec_) code (ofBytes (h.drop 1))
    match head with
    | .malformed => .error (.bad 9 none none)
    | .z => .ok ⟨31, []⟩
    | _ =>
      if !recPerSeg u.rec_ && code != recFmt u.rec_ then .error (.bad 10 none none)
      else
        match rd 0 (64 * blocksOf head) with
        | .error e => .error e
        | .ok b =>
          let v := ofBytes b
          match bxFmt code with
          | some f =>
            .ok ⟨code, (List.range 256).map fun k =>
              let p := bxPlace f k
              bxHeld (bxElem f (v / 2 ^ (512 * p.1) % 2 ^ 512) p.2)⟩
          | none =>
            .ok ⟨2, (List.range 256).map fun k => .scaled 2 (v / 2 ^ (512 + 16 * k) % 65536) false (bits v 15 8)⟩

/-- The rows of a tile from row `i` on, or the first that fails (R272). -/
def loadRows (s : State) (c : Nat) (sup : Bool) (u : RecUse) (row0 g kv : Nat) : Nat → Nat → Except (MErr × Nat) (List TileRow)
  | 0, _ => .ok []
  | n + 1, i =>
    let one : Except MErr TileRow :=
      if kv = 0 then .ok ⟨recFmt u.rec_, []⟩
      else if recSeg u.rec_ then loadSegRow s c sup u (row0 + i) g else loadPlainRow s c sup u (row0 + i) g kv
    match one with
    | .error e => .error (e, i)
    | .ok r =>
      match loadRows s c sup u row0 g kv n (i + 1) with
      | .error e => .error e
      | .ok l => .ok (r :: l)

/-- The fields of an MLD descriptor (R271). -/
def mldRow0 (d : Nat) : Nat := bits d 23 0
def mldSeg (d : Nat) : Nat := bits d 47 24
def mldRows (d : Nat) : Nat := bits d 53 48

/-- The present rows and KV of a load (R272). -/
def mldPresent (r d : Nat) : Nat := Nat.min (mldRows d) (recRows r - mldRow0 d)
def mldKv (r d : Nat) : Nat := Nat.min 256 (recKdim r - 256 * mldSeg d)

/-- The extents that an MLD's record use checks (R272), each with its present row: of a load of no positions, none. -/
def mldExtents (u : RecUse) (d : Nat) : List (Nat × Extent) :=
  if mldKv u.rec_ d = 0 then [] else
  (List.range (mldPresent u.rec_ d)).flatMap fun i =>
    let row := mldRow0 d + i
    if recSeg u.rec_ then [(i, segExtent u row (mldSeg d))]
    else [(i, plainExtent u row (256 * mldSeg d) (mldKv u.rec_ d)), (i, scaleExtent u row (256 * mldSeg d) (mldKv u.rec_ d))]

/-- Every line of a load's extents is checked at the core's table that the capability names, whatever the load will read (R272): the first
present row that fails. -/
def checkLines (s : State) (c : Nat) (sup : Bool) (cap : Nat) : List (Nat × Extent) → Except (MErr × Nat) Unit
  | [] => .ok ()
  | (i, e) :: t =>
    if e.2 = 0 then checkLines s c sup cap t
    else
      match coreSpan s c sup (bits (capAddr cap) 43 32) permML (addr52 e.1 % 2 ^ 31) e.2 with
      | .error m => .error (m, i)
      | .ok _ => checkLines s c sup cap t

/-- The checks of an MLD with its record (R272): the span against the record's FMT, the record's use with NR and extent, and the lines of a
core's table. The record is read before the span is tested (DEDUCED, entry 100). -/
def useMld (s : State) (c : Nat) (sup : Bool) (m : MCmd) : Except (MErr × Nat) RecUse :=
  let d := m.k2.val.toNat
  let span (f : Nat) : Option MErr := if (mslot (ctxOf s c sup) m.x).span ≠ spanOfFmt f then some (.bad 11 none none) else none
  match useRecord s c sup (bits m.k1.val.toNat 51 0) (fun p => capLD p && capML p) span with
  | .error e => .error (e, 0)
  | .ok u =>
    if 32 < mldRows d then .error (.bad 8 none none, 0)
    else if !extentsIn u.cap ((mldExtents u d).map (·.2)) then .error (refuse 0x2F, 0)
    else if inCoreSpace (capAddr u.cap) then (checkLines s c sup u.cap (mldExtents u d)).map fun _ => u
    else .ok u

/-- A released group becomes FREE once no fill and no store of it is in flight (R269, R270). -/
def Ctx.endWork (x : Ctx) (h : Nat) : Ctx :=
  let g := mslot x h
  if g.st = slotReleasing ∧ !(x.fills.any fun f => f.slot == h) ∧ !(x.mstores.any fun p => p.groups.contains h) then x.freeGroup h g.span else x

/-- An MLD fails: its group is FAULTED with KV 0 and ROWSP 0 (R272). -/
def failMld (c : Nat) (sup : Bool) (m : MCmd) (status elem : Nat) (s : State) : State :=
  let x := ctxOf s c sup
  let g := mslot x m.x
  let x := if g.st = slotReleasing then x.endWork m.x
    else x.putGroup m.x { st := slotFaulted, head := m.x, span := g.span }
  matrixFault c sup m.pc status elem (setCtxOf s c sup x)

/-- Waits for a page on behalf of the matrix unit (R227). -/
def matrixPage (c : Nat) (x : Ctx) (st2 : Bool) (addr vpage : Nat) (wr : Bool) (s : State) : State :=
  match fnOf x with
  | some fn =>
    let s := walkLost s (dieOf c) fn (4096 * vpage) wr fun e => lostToCtx c x e 8
    (pageRequest fn st2 addr wr [{ core := c, vpage := vpage, eng := 2, wr := wr }] s).getD s
  | none => s

/-- The lines of an extent, by the address of each one's first byte. -/
def extentLines (e : Extent) : List Nat :=
  let a := addr52 e.1
  (List.range ((a % 128 + e.2 + 127) / 128)).map fun i => if i = 0 then a else (a / 128 + i) * 128

/-- A line of global memory that an engine has read: the clock of its location merges into the reader's die's (R295), and a line that is
lost is recorded (R220). -/
def noteRead (c : Nat) (sup : Bool) (s : State) (va : Nat) : State :=
  match xlate s c (ctxOf s c sup) (va % 2 ^ 52) true false with
  | .ok pa =>
    let s := mergeClock (dieOf c) (locationClock s (pa / 128 * 128) 128) s
    if cxlDead s pa then lossRecord c sup 4 pa s else s
  | .error _ => s

/-- Whether the home of a line serves an engine's read of it now: the causal rule permits it (R295). -/
def lineReady (s : State) (c : Nat) (sup : Bool) (va : Nat) : Bool :=
  match xlate s c (ctxOf s c sup) (va % 2 ^ 52) true false with
  | .ok pa => permitted s { id := 0, core := c, sup := sup, eng := 2, dest := .home pa, size := 1, die := dieOf c, clock := (die s (dieOf c)).vc }
  | .error _ => true

/-! ## Sums (R61 to R63) -/

/-- The exact value of a held element, with the flags of its scale (R40). -/
def TElem.value : TElem → FV × Nat
  | .raw f p => (valueOf f p, 0)
  | .bx neg m e => (.fin neg m e, 0)
  | .scaled f p true scale =>
    mulV (valueOf f p) (floatVal fp32 scale)
  | .scaled f p false x => (if x = 255 then .fin false 0 0 else (valueOf f p).scale ((x : Int) - 127), 0)

/-- Row `i` of a tile at its first kv positions: +0 where absent or short. -/
def tileRow (g : MSlot) (i kv : Nat) : List (FV × Nat) :=
  match g.rows[i]? with
  | some r => (List.range kv).map fun k => match r.elems[k]? with | some e => e.value | none => (.fin false 0 0, 0)
  | none => List.replicate kv (.fin false 0 0, 0)

/-- What a segment sum has met: NaN, +infinity, -infinity, and the exact finite sum. -/
structure SegSum where
  nan : Bool := false
  pinf : Bool := false
  ninf : Bool := false
  sum : FV := .fin false 0 0
  flags : Nat := 0
deriving DecidableEq, Repr

/-- One more product (R62): 0 x infinity and a signalling NaN raise NV (R37, R50). -/
def SegSum.add (t : SegSum) (a b : FV × Nat) : SegSum :=
  let p := mulV a.1 b.1
  let t := { t with flags := t.flags ||| a.2 ||| b.2 ||| p.2 }
  match p.1 with
  | .nan _ => { t with nan := true }
  | .inf neg => if neg then { t with ninf := true } else { t with pinf := true }
  | v => { t with sum := sumFin t.sum v 0 }

/-- The products of two rows. -/
def segSum : List (FV × Nat) → List (FV × Nat) → SegSum → SegSum
  | a :: l, b :: r, t => segSum l r (t.add a b)
  | _, _, t => t

/-- S of a segment (R62): an exact zero is +0. -/
def SegSum.value (t : SegSum) : FV × Nat :=
  if t.nan then (.nan false, t.flags)
  else if t.pinf && t.ninf then (.nan false, t.flags ||| flagNV)
  else if t.pinf then (.inf false, t.flags)
  else if t.ninf then (.inf true, t.flags)
  else (if t.sum.isZero then .fin false 0 0 else t.sum, t.flags)

/-- RoundNearestEven to FP32 (R61): pattern and flags. -/
def rne32 (v : FV) : Nat × Nat :=
  let r := toFloat fp32 v 0 false ⟨0, 0⟩
  (r.1, r.2.flags)

/-- The accumulator addition (R62): as FADD under nearest-even. -/
def accAdd (a b : FV) : FV × Nat := addV a b 0

/-- One float cell (R275): decay, the segment sum rounded, the addition rounded. -/
def floatCell (cell : Nat) (decay : Option Nat) (a b : List (FV × Nat)) : Nat × Nat :=
  let c0 : Nat × Nat := match decay with
    | none => (cell, 0)
    | some g =>
      let p := mulV (floatVal fp32 g) (floatVal fp32 cell)
      let r := rne32 p.1
      (r.1, p.2 ||| r.2)
  let sv := (segSum a b {}).value
  let sr := rne32 sv.1
  let ad := accAdd (floatVal fp32 c0.1) (floatVal fp32 sr.1)
  let rr := rne32 ad.1
  (rr.1, c0.2 ||| sv.2 ||| sr.2 ||| ad.2 ||| rr.2)

/-- One integer cell (R63, R275). -/
def intCell (cell : Nat) (a b : List (FV × Nat)) : Nat :=
  wrap 32 ((cell : Int) + (segSum a b {}).sum.at 0)

/-! ## Accumulators (R60, R277, R278) -/

/-- The cells of an accumulator, as a table by 32i + j: those an MMA has computed and not yet written back come first. -/
def accTable (x : Ctx) (ac : Nat) : AList (BitVec 32) :=
  match tfind x.fresh ac with
  | some t => t
  | none => (x.cells.filter fun p => p.1 / 1024 == ac).map fun p => (p.1 % 1024, p.2)

/-- A table of cells from a function: zero cells are not listed. -/
def cellTable (f : Nat → Nat) : AList (BitVec 32) :=
  (List.range 1024).filterMap fun k =>
    let v := BitVec.ofNat 32 (f k)
    if v = 0 then none else some (k, v)

/-- Writes an accumulator's cells. -/
def Ctx.putCells (x : Ctx) (ac : Nat) (t : AList (BitVec 32)) : Ctx :=
  { x with cells := (x.cells.filter fun p => decide (p.1 < 1024 * ac)) ++ t.map (fun p => (1024 * ac + p.1, p.2)) ++
      x.cells.filter fun p => decide (1024 * ac + 1024 ≤ p.1) }

/-- The decay factor of an accumulator: 1.0 at creation. -/
def gammaOf (x : Ctx) (ac : Nat) : Nat := (tget x.gamma ac 0x3F800000#32).toNat

/-- Whether an accumulator's cells wait to be written back. -/
def accBusy (x : Ctx) (ac : Nat) : Bool := (tfind x.fresh ac).isSome

/-- The formats of the present rows of a tile. -/
def tileFmts (g : MSlot) : List Nat := (g.rows.take g.rowsp).map (·.fmt)

/-- Eighths of a cycle that one K position takes at a format's rate (R278). -/
def fmtRate (f : Nat) : Nat :=
  if f = 19 then 2 else if f = 18 then 4 else if f = 0 then 64 else if f = 1 ∨ f = 2 ∨ f = 3 ∨ f = 9 then 16 else 8

/-- The cycles of an MMA (R278). -/
def mmaCycles (fa fb : List Nat) (kv : Nat) : Nat :=
  let special (f : Nat) : Bool := f ≤ 5 || f == 14 || f == 15
  let zero := (fa.all (· == 31) && !fb.any special) || (fb.all (· == 31) && !fa.any special)
  if kv = 0 ∨ zero then 1
  else ceilDiv (kv * maxNat ((fa ++ fb).map fun f => if f = 31 then 0 else fmtRate f)) 8

/-- The cells after an MMA, with the flags raised (R275). -/
def mmaCells (old : AList (BitVec 32)) (gamma : Option Nat) (a b : MSlot) (zero rmk cmk int : Bool) : AList (BitVec 32) × Nat :=
  let kv := Nat.min a.kv b.kv
  let ra := (List.range 32).map fun i => tileRow a i kv
  let rb := (List.range 32).map fun j => tileRow b j kv
  let cell (k : Nat) : Nat × Nat :=
    let i := k / 32
    let j := k % 32
    let c0 := (tget old k 0#32).toNat
    if (rmk && decide (a.rowsp ≤ i)) || (cmk && decide (b.rowsp ≤ j)) then (c0, 0)
    else
      let c := if zero then 0 else c0
      if kv = 0 then (c, 0)
      else if int then (intCell c (ra.getD i []) (rb.getD j []), 0)
      else floatCell c gamma (ra.getD i []) (rb.getD j [])
  let l := (List.range 1024).map cell
  ((List.range 1024).zip l |>.filterMap fun p => if p.2.1 = 0 then none else some (p.1, BitVec.ofNat 32 p.2.1),
    l.foldl (fun f p => f ||| p.2) 0)

/-! ## Writing (R280, R281) -/

/-- A row to be written: its number for ELEM, and its pieces: address and bytes. -/
structure OutRow where
  elem : Nat
  pieces : List (Int × List Byte)

/-- Puts elements of `w` bits from bit `b0` on over the bytes given. -/
def overlay (w : Nat) : Nat → List Nat → Nat → Nat
  | _, [], v => v
  | b, p :: t, v => overlay w (b + w) t (setBits v (b + w - 1) b p)

/-- The elements of a row converted one after another (R51 to R55, R279). -/
def convertRow (f mode : Nat) (sat : Bool) : List FV → NumSt → List Nat × NumSt
  | [], n => ([], n)
  | v :: t, n =>
    let r := convert f v mode sat n
    let q := convertRow f mode sat t r.2
    (stored f r.1 :: q.1, q.2)

/-- The scale byte of a written group (R280). -/
def groupScale (f : Nat) (l : List FV) : Nat :=
  match maxLog l with
  | none => 255
  | some k => Nat.min 254 (127 + k - (if f = 15 then 8 else 2)).toNat

/-- A row of plain output (R280): its elements and, for codes 15 and 16, the group's scale byte. `cur`: the bytes there now. -/
def plainRow (u : RecUse) (env : NumEnv) (row k : Nat) (l : List FV) (cur : Nat) (n : NumSt) : List (Int × List Byte) × NumSt :=
  let f := recFmt u.rec_
  let w := storeBits f
  let e := plainExtent u row k l.length
  if f = 15 ∨ f = 16 then
    let x := groupScale f l
    let r := convertRow f env.mode env.sat (l.map fun a => a.scale (127 - (x : Int))) n
    ([(e.1, toBytes e.2 (overlay w (k * w % 8) r.1 cur)), ((scaleExtent u row k l.length).1, [BitVec.ofNat 8 x])], r.2)
  else
    let r := convertRow f env.mode env.sat l n
    ([(e.1, toBytes e.2 (overlay w (k * w % 8) r.1 cur))], r.2)

/-- One output of an MDRN (R279, R282): its record, where it stands there, its share, its staging group and its cells. -/
structure DrainOut where
  addr : Nat
  ro : Nat
  co : Nat
  nr : Nat
  nc : Nat
  share : Nat
  sg : Nat
  cells : List (List FV)

/-- The cell values of an accumulator (R279), row by row. -/
def cellValues (t : AList (BitVec 32)) (int : Bool) : List (List FV) :=
  (List.range 32).map fun i => (List.range 32).map fun j =>
    let v := (tget t (32 * i + j) 0#32).toNat
    if int then intVal (signed 32 v) else floatVal fp32 v

/-- The columns of a matrix of values. -/
def transposed (m : List (List FV)) : List (List FV) := (List.range 32).map fun j => m.map fun r => r.getD j (.fin false 0 0)

/-- The outputs of an MDRN. -/
def drainOuts (m : MCmd) (t int tl : Bool) (cells : AList (BitVec 32)) : List DrainOut :=
  let d := m.k3.val.toNat
  let mat := cellValues cells int
  let r0 := bits d 23 0
  let c0 := bits d 47 24
  let nr := bits d 53 48
  let nc := bits d 59 54
  let share (hi lo : Nat) := if tl then bits d hi lo else m.env.tol
  ⟨bits m.k1.val.toNat 51 0, r0, c0, nr, nc, share 71 64, 4 * bits d 60 60, mat⟩ ::
    (if t then [⟨bits m.k2.val.toNat 51 0, c0, r0, nc, nr, share 79 72, 4 * bits d 61 61, transposed mat⟩] else [])

/-- The rows and the columns of an output that its record has (R279). -/
def DrainOut.rowsIn (o : DrainOut) (r : Nat) : Nat := Nat.min o.nr (recRows r - o.ro)
def DrainOut.colsIn (o : DrainOut) (r : Nat) : Nat := Nat.min o.nc (recKdim r - o.co)

/-- What an output stages into (R281): the group where it is STAGING for the same target already, else a fresh one. -/
def DrainOut.staging (x : Ctx) (o : DrainOut) : MSlot :=
  let g := mslot x o.sg
  let target := some (o.addr, o.ro, o.co / 256)
  if g.st = slotStaging ∧ g.target = target then g else { st := slotStaging, head := o.sg, span := 4, target := target }

/-- Whether an output flushes the group that it stages into (R281). -/
def DrainOut.flushes (x : Ctx) (o : DrainOut) (u : RecUse) (fl : Bool) : Bool :=
  fl || (List.range 8).all fun q =>
    decide (recKdim u.rec_ ≤ 256 * (o.co / 256) + 32 * q) || q == o.co % 256 / 32 || (o.staging x).parts.contains q

/-- The extents that an output touches: of the cells, with their scales; or of the segments, those of every staged row where it flushes
(R76, R281). An MDRN that only stages has the segments of its rows checked, which a flush will write (DESIGN CHOICE, entry 119). -/
def drainExtents (x : Ctx) (o : DrainOut) (u : RecUse) (fl : Bool) : List (Nat × Extent) :=
  if o.nr = 0 ∨ o.nc = 0 then []
  else if recSeg u.rec_ then
    let flush := o.flushes x u fl
    let n := if flush then Nat.max (o.staging x).stagedRows o.nr else o.nr
    if !flush ∧ o.colsIn u.rec_ = 0 then []
    else (List.range (Nat.min n (recRows u.rec_ - o.ro))).map fun i => (i, segExtent u (o.ro + i) (o.co / 256))
  else if o.colsIn u.rec_ = 0 then []
  else (List.range (o.rowsIn u.rec_)).flatMap fun i =>
    [(i, plainExtent u (o.ro + i) o.co (o.colsIn u.rec_)), (i, scaleExtent u (o.ro + i) o.co (o.colsIn u.rec_))]

/-- The places that an extent is written to: each line's access destination, or why there is none. -/
def outDests (s : State) (c : Nat) (sup : Bool) (cap : Nat) : Nat → Nat → Nat → Except MErr (List (Dest × Nat))
  | 0, _, _ => .ok []
  | fuel + 1, va, n =>
    if n = 0 then .ok []
    else
      let m := Nat.min n (128 - va % 128)
      let one : Except MErr Dest :=
        if inCoreSpace (capAddr cap) then
          let k := bits (capAddr cap) 43 32
          (coreSpan s c sup k permW (va % 2 ^ 31) m).map fun _ => .bank k false (va % 2 ^ 31) true
        else (xlate s c (ctxOf s c sup) (va % 2 ^ 52) false true).map Dest.home
      match one with
      | .error e => .error e
      | .ok d =>
        match outDests s c sup cap fuel (va + m) (n - m) with
        | .error e => .error e
        | .ok l => .ok ((d, m) :: l)

/-- Checks every line of the extents, before anything is written (R279). -/
def checkOuts (s : State) (c : Nat) (sup : Bool) (cap : Nat) : List (Nat × Extent) → Except (MErr × Nat) Unit
  | [] => .ok ()
  | (i, e) :: t =>
    match outDests s c sup cap (e.2 / 128 + 2) (addr52 e.1) e.2 with
    | .error x => .error (x, i)
    | .ok _ => checkOuts s c sup cap t

/-- The use of an output's record (R76, R279): a fault of it ends the MDRN before anything is written. -/
def useDrain (s : State) (c : Nat) (sup : Bool) (fl : Bool) (o : DrainOut) : Except (MErr × Nat) RecUse :=
  match useRecord s c sup o.addr capSD (fun _ => none) with
  | .error e => .error (e, 0)
  | .ok u =>
    let l := drainExtents (ctxOf s c sup) o u fl
    if !extentsIn u.cap (l.map (·.2)) then .error (refuse 0x2F, 0)
    else (checkOuts s c sup u.cap l).map fun _ => u

/-- What an output's own checks come to (R280 to R282), each output's apart from the other's: it goes ahead, waits for a fill, or has a
status; what it waits for is the group's fill. `used`: the staging group of an output before it. -/
def outStatus (x : Ctx) (o : DrainOut) (u : RecUse) (used : Option Nat) : Except Nat Nat :=
  if o.nr = 0 ∨ o.nc = 0 then .ok 0
  else if !recSeg u.rec_ then .ok (if recFmt u.rec_ = 14 then 8 else 0)
  else
    let g := mslot x o.sg
    if o.co % 32 ≠ 0 ∨ used = some o.sg then .ok 8
    else if g.st = slotFilling ∧ g.head = o.sg then .error o.sg
    else if !isHead x o.sg ∨ g.span ≠ 4 ∨ g.st = slotReleasing then .ok 12
    else if g.st = slotStaging ∧ g.target ≠ some (o.addr, o.ro, o.co / 256) then .ok 15
    else .ok 0

/-- Stages an output's cells (R281): the group, and the rows to write where it flushes, with the flags raised. -/
def stageOut (x : Ctx) (o : DrainOut) (u : RecUse) (fl : Bool) (env : NumEnv) : Ctx × List OutRow × Nat :=
  let g0 := o.staging x
  let part := o.co % 256 / 32
  let keep := g0.staged.filter fun p => p.1 % 256 / 32 != part
  let new : AList FV := (List.range o.nr).flatMap fun i => (List.range o.nc).map fun j =>
    (256 * i + 32 * part + j, (o.cells.getD i []).getD j (.fin false 0 0))
  let g1 := { g0 with staged := keep ++ new, parts := part :: g0.parts.filter (· != part), stagedRows := Nat.max g0.stagedRows o.nr }
  let s0 := o.co / 256
  if !o.flushes x u fl then (x.putGroup o.sg g1, [], 0)
  else
    let kd := recKdim u.rec_
    let rows := (List.range (Nat.min g1.stagedRows (recRows u.rec_ - o.ro))).map fun i =>
      let xs := (List.range 256).map fun k => if 256 * s0 + k < kd then tget g1.staged (256 * i + k) (.fin false 0 0) else .fin false 0 0
      let r := encodeSegment o.share (if recPerSeg u.rec_ then none else some (recFmt u.rec_)) (recWide u.rec_) (env.mode == 4) xs
      let a := (segExtent u (o.ro + i) s0).1
      ((⟨i, [(a, r.1.flatten)]⟩ : OutRow), r.2.1)
    (x.putGroup o.sg { st := slotClaimed, head := o.sg, span := 4 }, rows.map (·.1), rows.foldl (fun f p => f ||| p.2) 0)

/-- The rows of a plain output, with the roundings (R280). -/
def plainOut (s : State) (c : Nat) (sup : Bool) (o : DrainOut) (u : RecUse) (env : NumEnv) : Nat → Nat → NumSt → List OutRow × NumSt
  | 0, _, n => ([], n)
  | k + 1, i, n =>
    let l := (o.cells.getD i []).take (o.colsIn u.rec_)
    let e := plainExtent u (o.ro + i) o.co l.length
    let cur := if storeBits (recFmt u.rec_) = 4 then
        (match outDests s c sup u.cap (e.2 / 128 + 2) (addr52 e.1) e.2 with
          | .ok ds => ofBytes (ds.flatMap fun (d, m) =>
              match d with
              | .home pa => homeBytes s pa m
              | .bank k _ la _ => (match coreSpan s c sup k permW la m with | .ok l => runBytes s l | .error _ => List.replicate m 0)
              | .istore _ _ => List.replicate m 0)
          | .error _ => 0)
      else 0
    let r := plainRow u env (o.ro + i) o.co l cur n
    let q := plainOut s c sup o u env k (i + 1) r.2
    (⟨i, r.1⟩ :: q.1, q.2)

/-- Sends a row's pieces as accesses of the matrix unit. -/
def postPieces (c : Nat) (sup : Bool) (id : Nat) (m : MCmd) (cap elem : Nat) (l : List (Int × List Byte)) (s : State) : State :=
  l.foldl (fun s p =>
    match outDests s c sup cap (p.2.length / 128 + 2) (addr52 p.1) p.2.length with
    | .error _ => s
    | .ok ds =>
      (ds.foldl (fun (t : State × List Byte) d =>
        (post { id := 0, core := c, sup := sup, eng := 2, dest := d.1, size := d.2, write := some (t.2.take d.2), born := m.seq, copy := id,
                part := elem, need := permW } t.1, t.2.drop d.2)) (s, p.2)).1) s

/-! ## Taking the command at the head -/

/-- What a command at the head comes to: it waits, for a fill of a group where it says so, or it is done with the state after it; a page that
it waits for is requested. -/
inductive Took where
  | wait (cause : Nat) (s : State)
  | fill (slot : Nat) (s : State)
  | done (s : State)

/-- The matrix slot waits for a cause from now on (R153); for a first datum, until it arrives. -/
def stallMatrix (c cause : Nat) (datum : Option Nat) (s : State) : State :=
  let s := settle c s
  setCore s c { core s c with stallm := cause, datum := datum }

/-- What a command that waits for a FILLING group is charged to (R273): the translation of the fill, its banks until their first datum arrives,
or the global memory that it reads, else the slot. -/
def stallFill (c : Nat) (sup : Bool) (h : Nat) (s : State) : State :=
  match (ctxOf s c sup).fills.find? fun f => f.slot == h with
  | some f =>
    if f.paged then stallMatrix c 20 none s
    else
      match f.use with
      | some (_, _, cap) => if inCoreSpace (capAddr cap) then stallMatrix c 10 (some f.datum) s else stallMatrix c 21 none s
      | none => stallMatrix c 24 none s
  | none => stallMatrix c 24 none s

/-- The banks that a fill reads through a core's table. -/
def fillBanks (s : State) (c : Nat) (sup : Bool) (u : RecUse) (d : Nat) : List Nat :=
  if !inCoreSpace (capAddr u.cap) then []
  else
    (mldExtents u d).flatMap fun e =>
      match coreSpan s c sup (bits (capAddr u.cap) 43 32) permML (addr52 e.2.1 % 2 ^ 31) e.2.2 with
      | .ok l => l.filterMap fun p => match p.1 with | .bank i => some (i / 32768) | .sram _ => none
      | .error _ => []

/-- The time at which the first datum of a fill that starts now arrives: after the latency of its nearest bank (R3, R273;
DEDUCED, entry 130). -/
def firstDatum (s : State) (c : Nat) (sup : Bool) (u : RecUse) (d : Nat) : Nat :=
  s.elapsed + (((fillBanks s c sup u d).map fun b => lat3 (c % 64 / 4) (b % 512 / 32)).min?).getD 0

/-- Takes the head command out of its queue. -/
def popMatrix (c : Nat) (sup : Bool) (s : State) : State :=
  let x := ctxOf s c sup
  setCtxOf s c sup { x with mq := x.mq.drop 1 }

/-- A command at the head completes with a fault. -/
def badHead (c : Nat) (sup : Bool) (m : MCmd) (status elem : Nat) (s : State) : Took :=
  .done (matrixFault c sup m.pc status elem (popMatrix c sup s))

/-- Cycles of the matrix slot, charged to issued. -/
def matrixCycles (c n : Nat) (s : State) : State := spendFor c n none none (some 2) s

/-- MCLM at the head (R270). -/
def takeMclm (c : Nat) (sup : Bool) (m : MCmd) (span : Nat) (s : State) : Took :=
  let x := ctxOf s c sup
  let sts := (List.range span).map fun i => (mslot x (m.x + i)).st
  if sts.any fun t => t != slotFree && t != slotReleasing then badHead c sup m 12 0 (matrixCycles c 1 s)
  else if sts.any (· == slotReleasing) then .wait 24 s
  else
    let s := popMatrix c sup (matrixCycles c 1 s)
    .done (setCtxOf s c sup ((ctxOf s c sup).putGroup m.x { st := slotClaimed, head := m.x, span := span }))

/-- MREL at the head (R270). -/
def takeMrel (c : Nat) (sup : Bool) (m : MCmd) (s : State) : Took :=
  let x := ctxOf s c sup
  let g := mslot x m.x
  if !isHead x m.x || g.st == slotReleasing then badHead c sup m 12 0 (matrixCycles c 1 s)
  else
    let s := popMatrix c sup (matrixCycles c 1 s)
    let x := ctxOf s c sup
    .done (setCtxOf s c sup ((x.putGroup m.x { st := slotReleasing, head := m.x, span := g.span }).endWork m.x))

/-- MLD at the head (R272, R273): the group and the record are checked, and the fill starts on the load path. -/
def takeMld (c : Nat) (sup : Bool) (m : MCmd) (o : Order) (s : State) : Took :=
  let x := ctxOf s c sup
  if 4 ≤ x.fills.length then .wait 24 s
  else if !acquired s c sup o m.seq then .wait 22 s
  else
    let g := mslot x m.x
    if !isHead x m.x || g.st == slotFilling || g.st == slotStaging || g.st == slotReleasing then badHead c sup m 12 0 (matrixCycles c 1 s)
    else
      match useMld s c sup m with
      | .error (.bad status f cause, i) =>
        let s := logErr c sup (bits m.k1.val.toNat 51 0) m.pc (.bad status f cause) (popMatrix c sup (matrixCycles c 1 s))
        .done (failMld c sup m status i s)
      | r =>
        let u : Option (Int × Nat × Nat) := match r with | .ok u => some (u.base, u.rec_, u.cap) | .error _ => none
        let s := popMatrix c sup (matrixCycles c 1 (if u.isSome then noteRead c sup s (bits m.k1.val.toNat 51 0) else s))
        let x := ctxOf s c sup
        let x := x.putGroup m.x { st := slotFilling, head := m.x, span := g.span }
        let paged := match r with | .error (.page _ _ _ _, _) => true | .error (.walk, _) => true | _ => false
        let datum := match r with | .ok u => firstDatum s c sup u m.k2.val.toNat | .error _ => 0
        let s := setCtxOf s c sup { x with fills := x.fills ++ [{ slot := m.x, cmd := m, use := u, paged := paged, datum := datum }] }
        .done (match r with | .error (.page st2 a v wr, _) => matrixPage c x st2 a v wr s | _ => s)

/-- MMA at the head (R274 to R276). -/
def takeMma (c : Nat) (sup : Bool) (m : MCmd) (init : Nat) (decay rmk cmk int : Bool) (s : State) : Took :=
  let x := ctxOf s c sup
  let a := mslot x m.y
  let b := mslot x m.z
  if a.st == slotFilling && a.head == m.y then .fill m.y s
  else if b.st == slotFilling && b.head == m.z then .fill m.z s
  else if !isHead x m.y || !isHead x m.z || !(a.st == slotFull || a.st == slotFaulted) || !(b.st == slotFull || b.st == slotFaulted) then
    badHead c sup m 12 0 (matrixCycles c 1 s)
  else if int && !((tileFmts a ++ tileFmts b).all fun f => 9 ≤ f && f ≤ 13) then badHead c sup m 13 0 (matrixCycles c 1 s)
  else
    let r := mmaCells (accTable x m.x) (if decay then some (gammaOf x m.x) else none) a b (init == 1) rmk cmk int
    let s := popMatrix c sup (matrixCycles c (mmaCycles (tileFmts a) (tileFmts b) (Nat.min a.kv b.kv)) s)
    let x := ctxOf s c sup
    .done (setCtxOf s c sup { x with fresh := tset x.fresh m.x r.1, mmas := x.mmas ++ [⟨m.x, m.grd, m.remote, r.2⟩] })

/-- The records of an MDRN's outputs, used one after another. -/
def useDrains (s : State) (c : Nat) (sup : Bool) (fl : Bool) : List DrainOut → Except (MErr × Nat × Nat) (List (DrainOut × RecUse))
  | [] => .ok []
  | o :: t =>
    match useDrain s c sup fl o with
    | .error e => .error (e.1, e.2, o.addr)
    | .ok u => (useDrains s c sup fl t).map fun l => (o, u) :: l

/-- The statuses of an MDRN's outputs, or that one waits for a fill. -/
def outStatuses (x : Ctx) : List (DrainOut × RecUse) → Option Nat → Except Nat (List Nat)
  | [], _ => .ok []
  | (o, u) :: t, used => do
    let a ← outStatus x o u used
    let l ← outStatuses x t (if recSeg u.rec_ then some o.sg else used)
    pure (a :: l)

/-- What the outputs of an MDRN have come to: the state, the flags raised, and the groups flushed. -/
structure Drained where
  s : State
  flags : Nat := 0
  groups : List Nat := []

/-- Writes or stages one output of an MDRN. -/
def drainOne (c : Nat) (sup : Bool) (id : Nat) (m : MCmd) (fl : Bool) (o : DrainOut) (u : RecUse) (d : Drained) : Drained :=
  let s := d.s
  let x := ctxOf s c sup
  let put (rows : List OutRow) (s : State) : State := rows.foldl (fun s w => postPieces c sup id m u.cap w.elem w.pieces s) s
  if o.nr = 0 ∨ o.nc = 0 then d
  else if recSeg u.rec_ then
    let r := stageOut x o u fl m.env
    { s := put r.2.1 (setCtxOf s c sup r.1), flags := d.flags ||| r.2.2, groups := if r.2.1.isEmpty then d.groups else o.sg :: d.groups }
  else if o.colsIn u.rec_ = 0 then d
  else
    let r := plainOut s c sup o u m.env (o.rowsIn u.rec_) 0 (core s c).num
    { d with s := put r.1 (setCore s c { core s c with rseed := r.2.seed }), flags := d.flags ||| r.2.flags }

/-- The outputs of an MDRN, one after another. -/
def drainAll (c : Nat) (sup : Bool) (id : Nat) (m : MCmd) (fl : Bool) : List (DrainOut × RecUse) → Drained → Drained
  | [], d => d
  | (o, u) :: t, d => drainAll c sup id m fl t (drainOne c sup id m fl o u d)

/-- MDRN at the head (R279 to R282). -/
def takeMdrn (c : Nat) (sup : Bool) (m : MCmd) (t int : Bool) (o : Order) (fl tl : Bool) (s : State) : Took :=
  let x := ctxOf s c sup
  let d := m.k3.val.toNat
  if accBusy x m.x || m.ungranted (core s c) then .wait 8 s
  else if !acquired s c sup o m.seq then .wait 22 s
  else if bits d 47 24 % 32 ≠ 0 ∨ 32 < bits d 53 48 ∨ 32 < bits d 59 54 ∨ bits d 63 62 ≠ 0 then badHead c sup m 8 0 (matrixCycles c 1 s)
  else
    match useDrains s c sup fl (drainOuts m t int tl (accTable x m.x)) with
    | .error (.page st2 a v wr, _, _) => .wait 20 (matrixPage c x st2 a v wr s)
    | .error (.walk, _, _) => .wait 20 s
    | .error (.held, _, _) => .wait 8 s
    | .error (.bad status f cause, elem, addr) =>
      let s := logErr c sup addr m.pc (.bad status f cause) (matrixCycles c 1 s)
      badHead c sup m status elem s
    | .ok l =>
      match outStatuses x l none with
      | .error h => .fill h s
      | .ok sts =>
        let status := (sts.find? (· != 0)).getD 0
        let good := (l.zip sts).filterMap fun p => if p.2 = 0 then some p.1 else none
        if good.isEmpty then badHead c sup m status 0 (matrixCycles c 1 s)
        else
          let s := popMatrix c sup (matrixCycles c 32 (l.foldl (fun s p => noteRead c sup s p.1.addr) s))
          let id := s.nextId
          let r := drainAll c sup id m fl good { s := { s with nextId := id + 1 } }
          let x := ctxOf r.s c sup
          .done (setCtxOf r.s c sup { x with
            mstores := x.mstores ++ [{ id := id, cmd := m, full := !r.groups.isEmpty, status := status, flags := r.flags, groups := r.groups }] })

/-- The bytes of a row of cells. -/
def cellRow (t : AList (BitVec 32)) (i : Nat) : List Byte := (List.range 32).flatMap fun j => toBytes 4 (tget t (32 * i + j) 0#32).toNat

/-- MSPL at the head (R283). -/
def takeMspl (c : Nat) (sup : Bool) (m : MCmd) (o : Order) (s : State) : Took :=
  let x := ctxOf s c sup
  let a := bits m.k1.val.toNat 31 0
  if accBusy x m.x then .wait 8 s
  else if !acquired s c sup o m.seq then .wait 22 s
  else if m.k1.tag ∨ a % 128 ≠ 0 then badHead c sup m 8 0 (matrixCycles c 1 s)
  else
    let t := accTable x m.x
    let s := popMatrix c sup (matrixCycles c 32 s)
    let id := s.nextId
    let s := (List.range 32).foldl (fun s i =>
      post { id := 0, core := c, sup := sup, eng := 2, dest := .bank c sup ((a + 128 * i) % 2 ^ 32) false, size := 128
             write := some (cellRow t i), born := m.seq, copy := id, part := i, need := permW } s) { s with nextId := id + 1 }
    let x := ctxOf s c sup
    .done (setCtxOf s c sup { x with mstores := x.mstores ++ [{ id := id, cmd := m, full := true }] })

/-- The lines of a spilled accumulator, or the first that fails. -/
def spillLines (s : State) (c : Nat) (sup : Bool) (a : Nat) : Nat → Nat → Except (MErr × Nat) (List Byte)
  | 0, _ => .ok []
  | n + 1, i =>
    match spanOf s c sup (ctxOf s c sup) permR true ((a + 128 * i) % 2 ^ 32) 128 with
    | .wait => .error (.held, i)
    | .bad cause _ => .error (.bad (localMatrix cause) none none, i)
    | .ok l =>
      match spillLines s c sup a n (i + 1) with
      | .error e => .error e
      | .ok r => .ok (runBytes s l ++ r)

/-- Whether an earlier fill reads one of the banks named and is still to read them (R288). A fill whose record waits for a page stalls no other
(R273): its banks are not known (DEDUCED, entry 120). -/
def fillsBefore (s : State) (c : Nat) (sup : Bool) (seq : Nat) (banks : List Nat) : Bool :=
  (ctxOf s c sup).fills.any fun f => decide (f.cmd.seq < seq) &&
    (match f.use with | some (b, r, cap) => (fillBanks s c sup ⟨b, r, cap⟩ f.cmd.k2.val.toNat).any fun i => banks.contains i | none => false)

/-- The banks that hold the 4 KiB of a spilled accumulator. -/
def spillBanks (s : State) (c : Nat) (sup : Bool) (a : Nat) : List Nat :=
  (List.range 32).flatMap fun i =>
    match spanOf s c sup (ctxOf s c sup) permR true ((a + 128 * i) % 2 ^ 32) 128 with
    | .ok l => l.filterMap fun p => match p.1 with | .bank i => some (i / 32768) | .sram _ => none
    | _ => []

/-- MRST at the head (R283, R288): every line is read before any cell is written. -/
def takeMrst (c : Nat) (sup : Bool) (m : MCmd) (o : Order) (s : State) : Took :=
  let x := ctxOf s c sup
  let a := bits m.k1.val.toNat 31 0
  let mine := (ctxAccesses s c sup).any fun q => q.eng == 2
  if accBusy x m.x then .wait 8 s
  else if !acquired s c sup o m.seq then .wait 22 s
  else if mine || fillsBefore s c sup m.seq (spillBanks s c sup a) then .wait 10 s
  else if m.k1.tag ∨ a % 128 ≠ 0 then badHead c sup m 8 0 (matrixCycles c 1 s)
  else
    match spillLines s c sup a 32 0 with
    | .error (.bad status _ _, i) => badHead c sup m status i (matrixCycles c 1 (stallMatrix c 10 none s))
    | .error _ => .wait 10 s
    | .ok b =>
      let v := ofBytes b
      let s := popMatrix c sup (matrixCycles c 32 (stallMatrix c 10 none s))
      .done (setCtxOf s c sup ((ctxOf s c sup).putCells m.x (cellTable fun k => v / 2 ^ (32 * k) % 2 ^ 32)))

/-- Whether a command may be sent by MSND (R284). -/
def sendable : Instr → Bool
  | .mld none _ _ _ _ _ _ => true
  | .mma none _ _ _ _ _ _ _ _ => true
  | .mdrn none _ _ _ _ _ _ _ _ _ t => !t
  | .mzacc none _ => true
  | .mmov none _ _ => true
  | .mmovG none _ _ => true
  | .mmovT none _ _ => true
  | _ => false

/-- The decoded command of an MSND, where it may be sent. -/
def msndCommand (w : Nat) : Option Instr :=
  match decode false true .none w with
  | .ok i => if sendable i then some i else none
  | _ => none

/-- MSND at the head (R284): the checks at the issuer, then the command is on its way. -/
def takeMsnd (c : Nat) (sup : Bool) (m : MCmd) (s : State) : Took :=
  let v := m.k1.val.toNat
  if (msndCommand (bits m.k2.val.toNat 31 0)).isNone then badHead c sup m 8 0 (matrixCycles c 1 s)
  else if !m.k1.tag || capSeal v != 0 || !capMC v || !inCoreSpace (capAddr v) then badHead c sup m 1 0 (matrixCycles c 1 s)
  else
    let s := popMatrix c sup (matrixCycles c 1 s)
    let x := ctxOf s c sup
    let r : MsndReq := { src := c, sup := sup, target := bits (capAddr v) 43 32, word := BitVec.ofNat 32 (bits m.k2.val.toNat 31 0)
                         k1 := m.k3.val, t1 := m.k3.tag, k2 := m.k4.val, t2 := m.k4.tag, tenant := tenantOf x, pc := m.pc, grd := m.grd
                         clock := (die s (dieOf c)).vc }
    .done (wakeCore r.target (send (.msndAccept r) (setCtxOf s c sup { x with msnds := x.msnds ++ [m.grd] })))

/-- The MMAs of an accumulator whose cells were still to be written complete: cells and flags (R275, R278). -/
def Ctx.writeback (x : Ctx) (ac : Nat) : Ctx :=
  match tfind x.fresh ac with
  | none => x
  | some t =>
    let flags := (x.mmas.filter fun a => a.acc == ac).foldl (fun f a => f ||| a.flags) 0
    ({ x with fresh := tdel x.fresh ac, mmas := x.mmas.filter fun a => a.acc != ac }.putCells ac t).raise flags

/-- MZACC at the head (R277). -/
def takeMzacc (c : Nat) (sup : Bool) (m : MCmd) (s : State) : Took :=
  let s := popMatrix c sup (matrixCycles c 1 s)
  .done (setCtxOf s c sup (((ctxOf s c sup).writeback m.x).putCells m.x []))

/-- MMOV at the head (R277). -/
def takeMmov (c : Nat) (sup : Bool) (m : MCmd) (k : Nat) (s : State) : Took :=
  let x := ctxOf s c sup
  if k = 1 then
    let s := popMatrix c sup (matrixCycles c 1 s)
    let x := ctxOf s c sup
    .done (setCtxOf s c sup { x with gamma := tset x.gamma m.x (BitVec.ofNat 32 (wbits m.k1.val 31 0)) })
  else if accBusy x m.y then .wait 8 s
  else
    let t := accTable x m.y
    let s := popMatrix c sup (matrixCycles c 32 s)
    let new := if k = 0 then t else cellTable fun i => (tget t (32 * (i % 32) + i / 32) 0#32).toNat
    .done (setCtxOf s c sup (((ctxOf s c sup).writeback m.x).putCells m.x new))

/-- The command at the head is taken where it may be. -/
def takeHead (c : Nat) (sup : Bool) (m : MCmd) (s : State) : Took :=
  match m.op with
  | .mclm span => takeMclm c sup m span s
  | .mrel => takeMrel c sup m s
  | .mld o => takeMld c sup m o s
  | .mma init d rm cm int => takeMma c sup m init d rm cm int s
  | .mdrn t int o fl tl => takeMdrn c sup m t int o fl tl s
  | .mspl o => takeMspl c sup m o s
  | .mrst o => takeMrst c sup m o s
  | .msnd => takeMsnd c sup m s
  | .mzacc => takeMzacc c sup m s
  | .mmov k => takeMmov c sup m k s

/-- Takes commands from a context's queue until one waits; one that the sequencer has issued in the cycle that has just passed is not taken
yet (R359). A supervisor's start only while the user's queue is empty (R335). -/
def advanceQueue (c : Nat) (sup : Bool) : Nat → State → State
  | 0, s => s
  | n + 1, s =>
    let x := ctxOf s c sup
    if x.dbg.halted || (core s c).enginesStop sup || sup != matrixSide (core s c) then s
    else
      match x.mq with
      | [] => s
      | m :: _ =>
        if m.bind ≠ .run || (!m.remote && decide (s.tick ≤ m.seq + 1)) then s
        else
          match takeHead c sup m s with
          | .wait cause s => stallMatrix c cause none s
          | .fill h s => stallFill c sup h s
          | .done s => advanceQueue c sup n s

/-- The matrix unit of core `c` takes what it may. -/
def advanceMatrix (c : Nat) (s : State) : State := advanceQueue c true 9 (advanceQueue c false 9 s)

/-! ## Events -/

/-- The bank that an access to a table reaches. -/
def accessBank (s : State) (a : Access) : Option Nat :=
  match a.dest with
  | .bank k sup la check => match portCheck s a k sup la check with | .ok (.bank i) => some (i / 32768) | _ => none
  | _ => none

/-- Whether an earlier access of the matrix unit to a bank that a fill reads, or to module memory that it may read, is still to be performed
(R288): a write, or an earlier fill that reads one of the banks. -/
def fillBehind (s : State) (c : Nat) (sup : Bool) (seq : Nat) (u : RecUse) (d : Nat) : Bool :=
  fillsBefore s c sup seq (fillBanks s c sup u d) || (ctxAccesses s c sup).any fun a => a.eng == 2 && decide (a.born < seq) &&
    (match a.dest with
      | .bank _ _ _ _ => (match accessBank s a with | some b => (fillBanks s c sup u d).contains b | none => false)
      | _ => !inCoreSpace (capAddr u.cap))

/-- Whether a matrix access to a bank waits for an earlier fill that reads the bank, or whose record is not known yet (R288). -/
def behindFill (s : State) (a : Access) : Bool :=
  a.eng == 2 && (match accessBank s a with
    | some b => (ctxOf s a.core a.sup).fills.any fun f => decide (f.cmd.seq < a.born) &&
        (match f.use with | some (base, r, cap) => (fillBanks s a.core a.sup ⟨base, r, cap⟩ f.cmd.k2.val.toNat).contains b | none => true)
    | none => false)

/-- BANK_PERFORM (R288, R293). -/
def execBankPerform (id : Nat) (s : State) : Out :=
  let s := taken (.bankPerform id) s
  match access s id with
  | some a => .next (if a.stage == .port && portTurn s a && !portWaits s a && !behindFill s a then performPort a s else s)
  | none => .next s

/-- The tile of a fill whose record is in use. -/
def fillTile (s : State) (c : Nat) (sup : Bool) (u : RecUse) (d : Nat) : Except (MErr × Nat) (List TileRow) :=
  loadRows s c sup u (mldRow0 d) (mldSeg d) (mldKv u.rec_ d) (mldPresent u.rec_ d) 0

/-- Takes a fill off the load path. -/
def dropFill (c : Nat) (sup : Bool) (slot : Nat) (s : State) : State :=
  let x := ctxOf s c sup
  setCtxOf s c sup { x with fills := x.fills.filter fun f => f.slot != slot }

/-- A fill ends with its tile (R272): a group released meanwhile becomes FREE. -/
def fillDone (c : Nat) (sup : Bool) (m : MCmd) (u : RecUse) (rows : List TileRow) (s : State) : State :=
  let x := ctxOf s c sup
  let g := mslot x m.x
  setCtxOf s c sup (if g.st = slotReleasing then x.endWork m.x
    else x.putGroup m.x { st := slotFull, head := m.x, span := g.span, kv := mldKv u.rec_ m.k2.val.toNat, rowsp := rows.length, rows := rows })

/-- The lines of global memory in a fill's extents. -/
def fillLines (u : RecUse) (d : Nat) : List Nat :=
  if inCoreSpace (capAddr u.cap) then [] else (mldExtents u d).flatMap fun e => extentLines e.2

/-- The lines that a fill has read are noted. -/
def fillReads (s : State) (c : Nat) (sup : Bool) (u : RecUse) (d : Nat) : State := (fillLines u d).foldl (noteRead c sup) s

/-- A fill of a context is completed where it may be (R272, R273, R227). -/
def completeFill (c : Nat) (sup : Bool) (f : MWork) (s : State) : State :=
  let m := f.cmd
  let x := ctxOf s c sup
  if f.failed.isSome then failMld c sup m 3 (f.failed.getD 0) (dropFill c sup f.slot s)
  else
    let use : Except (MErr × Nat) RecUse := match f.use with | some (b, r, cap) => .ok ⟨b, r, cap⟩ | none => useMld s c sup m
    let note (p : Bool) (u : Option (Int × Nat × Nat)) : State :=
      let datum := match f.use, u with | none, some (b, r, cap) => firstDatum s c sup ⟨b, r, cap⟩ m.k2.val.toNat | _, _ => f.datum
      setCtxOf s c sup { x with fills := x.fills.map fun g => if g.slot = f.slot then { g with paged := p, use := u, datum := datum } else g }
    let bad (e : MErr) (elem : Nat) (u : Option (Int × Nat × Nat)) : State :=
      match e with
      | .page st2 a v wr => matrixPage c x st2 a v wr (note true u)
      | .walk => note true u
      | .held => note false u
      | .bad status w cause =>
        failMld c sup m status elem (logErr c sup (bits m.k1.val.toNat 51 0) m.pc (.bad status w cause) (dropFill c sup f.slot s))
    match use with
    | .error (e, i) => bad e i none
    | .ok u =>
      let s := if f.use.isNone then noteRead c sup s (bits m.k1.val.toNat 51 0) else s
      if fillBehind s c sup m.seq u m.k2.val.toNat || !(fillLines u m.k2.val.toNat).all (lineReady s c sup) then note false (some (u.base, u.rec_, u.cap))
      else
      match fillTile s c sup u m.k2.val.toNat with
      | .error (e, i) => bad e i (some (u.base, u.rec_, u.cap))
      | .ok rows => fillDone c sup m u rows (dropFill c sup f.slot (fillReads s c sup u m.k2.val.toNat))

/-- MLD_FILL_COMPLETE (R273). -/
def execMldFillComplete (c slot : Nat) (s : State) : Out :=
  let s := taken (.mldFillComplete c slot) s
  if !isCore c then .next s else
  let sup := !((core s c).user.fills.any fun f => f.slot == slot)
  match (ctxOf s c sup).fills.find? fun f => f.slot == slot with
  | none => .next s
  | some f => .next (advanceMatrix c (completeFill c sup f s))

/-- ACCUMULATOR_WRITEBACK (R278). -/
def execAccumulatorWriteback (c ac : Nat) (s : State) : Out :=
  let s := taken (.accumulatorWriteback c ac) s
  if !isCore c then .next s else
  let sup := !accBusy (core s c).user ac
  let x := ctxOf s c sup
  if accBusy x ac then .next (advanceMatrix c (setCtxOf s c sup (x.writeback ac))) else .next s

/-- Whether a command on the store path has completed (R281, R283, R297). -/
def storeComplete (s : State) (c : Nat) (sup : Bool) (p : MStore) : Bool :=
  let o : Order := match p.cmd.op with | .mdrn _ _ o _ _ => o | .mspl o => o | _ => {}
  let scope := if p.full then 6 else if o.rel then o.scope else 0
  s.accesses.all fun a => !(a.core == c && a.sup == sup && a.eng == 2 && a.copy == p.id) || performedAt s scope a

/-- MATRIX_STORE_COMPLETE (R281). -/
def execMatrixStoreComplete (c : Nat) (s : State) : Out :=
  let s := taken (.matrixStoreComplete c) s
  if !isCore c then .next s else
  let sup := !((core s c).user.mstores.any (storeComplete s c false))
  let x := ctxOf s c sup
  match x.mstores.find? (storeComplete s c sup) with
  | none => .next s
  | some p =>
    let x := { x.raise p.flags with mstores := x.mstores.filter fun q => q.id != p.id }
    let s := setCtxOf s c sup (p.groups.foldl Ctx.endWork x)
    .next (advanceMatrix c (if p.status = 0 then s else matrixFault c sup p.cmd.pc p.status p.elem s))

/-- The answer of a remote command reaches its issuer (R284). -/
def msndAnswer (r : MsndReq) (ok : Bool) (s : State) : State :=
  if r.pc = 65536 then s
  else
    onHome r.src (fun s =>
      let x := ctxOf s r.src r.sup
      let s := setCtxOf s r.src r.sup { x with msnds := x.msnds.erase r.grd }
      if ok then s else matrixFault r.src r.sup r.pc 14 0 s) s

/-- The command of a decoded matrix instruction, with the registers that stand in for its operands. -/
def matrixCmd (i : Instr) (k1 k2 k3 k4 : Reg) (env : NumEnv) : Option MCmd :=
  match i with
  | .mclm _ x p => some { op := .mclm (2 ^ p.toNat), x := x.toNat, y := 0, z := 0 }
  | .mrel _ x => some { op := .mrel, x := x.toNat, y := 0, z := 0 }
  | .mld _ x y z p r q => some { op := .mld ⟨q, r, p.toNat⟩, x := x.toNat, y := y.toNat, z := z.toNat, k1 := k1, k2 := k2 }
  | .mma _ x y z i c r e n => some { op := .mma n.toNat e r c i, x := x.toNat, y := y.toNat, z := z.toNat }
  | .mdrn _ x y z l f p r q i t =>
    some { op := .mdrn t i ⟨q, r, p.toNat⟩ f l, x := x.toNat, y := y.toNat, z := z.toNat, k1 := k1, k2 := k2, k3 := k3, env := env }
  | .mspl _ x y p r q => some { op := .mspl ⟨q, r, p.toNat⟩, x := x.toNat, y := y.toNat, z := 0, k1 := k1 }
  | .mrst _ x y p r q => some { op := .mrst ⟨q, r, p.toNat⟩, x := x.toNat, y := y.toNat, z := 0, k1 := k1 }
  | .msnd _ x y z => some { op := .msnd, x := x.toNat, y := y.toNat, z := z.toNat, k1 := k1, k2 := k2, k3 := k3, k4 := k4 }
  | .mzacc _ x => some { op := .mzacc, x := x.toNat, y := 0, z := 0 }
  | .mmov _ x y => some { op := .mmov 0, x := x.toNat, y := y.toNat, z := 0 }
  | .mmovG _ x z => some { op := .mmov 1, x := x.toNat, y := 0, z := z.toNat, k1 := k1 }
  | .mmovT _ x y => some { op := .mmov 2, x := x.toNat, y := y.toNat, z := 0 }
  | _ => none

/-- The number handling that a context's defaults give a remote command (R284): no hint travels with it. -/
def defaultEnv (x : Ctx) : NumEnv := { mode := fmtRm x.fmt, sat := fmtSat x.fmt, tol := fmtTol x.fmt }

/-- A remote command as the target queues it: an MDRN's descriptor is its second register. -/
def remoteCmd (r : MsndReq) (x : Ctx) (seq : Nat) : Option MCmd :=
  let a : Reg := ⟨r.k1, r.t1⟩
  let b : Reg := ⟨r.k2, r.t2⟩
  (msndCommand r.word.toNat).bind fun i =>
    (matrixCmd i a (match i with | .mdrn .. => {} | _ => b) b {} (defaultEnv x)).map fun m => { m with remote := true, pc := 0xFFFF, seq := seq }

/-- The entries of a context's matrix queue in use (R151): of the commands that have not completed. -/
def matrixUsed (x : Ctx) : Nat := x.mq.length + x.fills.length + x.mstores.length + x.mmas.length + x.msnds.length

/-- MSND_ACCEPT (R284, R290): a target that is killed or pre-empted refuses; one issuer's commands enter in the order of their MSNDs; a full
queue holds the message; the clock of the sender's die comes with it (R295). -/
def execMsndAccept (r : MsndReq) (s : State) : Out :=
  if !isCore r.target then .next s else
  let e : Event := .msndAccept r
  let first := s.flight.find? fun f => match f with | .msndAccept q => q.src == r.src && q.sup == r.sup && q.target == r.target | _ => false
  if !(first == none || first == some e) then .next s
  else
    let k := core s r.target
    if !powered k then .next (wakeCore r.target s)
    else if !k.uload || k.killing || k.preempt || !tenantOk r.tenant k.user then .next (msndAnswer r false (taken e s))
    else if 8 ≤ matrixUsed k.user then .next s
    else
      let s := taken e s
      match remoteCmd r k.user s.tick with
      | none => .next (msndAnswer r false s)
      | some m =>
        let s := mergeClock (dieOf r.target) r.clock s
        let s := setCtxOf s r.target false { k.user with mq := k.user.mq ++ [m] }
        .next (advanceMatrix r.target (msndAnswer r true s))

/-- The MSNDs on their way to a target whose user context is killed or saved are refused (R290). -/
def refuseMsnds (c : Nat) (s : State) : State :=
  s.flight.foldl (fun t e => match e with
    | .msndAccept r => if r.target = c then msndAnswer r false (taken e t) else t
    | _ => t) s

/-- The matrix unit discards its head command (R151). -/
def discardMatrix (c : Nat) (s : State) : State :=
  let sup := matrixSide (core s c)
  match (ctxOf s c sup).mq with
  | m :: _ => if m.bind = .discard then advanceMatrix c (popMatrix c sup (spendFor c 1 none none (some 5) s)) else s
  | [] => s

/-- GUARD_FALSE_DISCARD (R151): by the vector engine, the matrix unit or the copy engine. -/
def execGuardFalseDiscard (c eng : Nat) (s : State) : Out :=
  let s := taken (.guardFalseDiscard c eng) s
  if !isCore c then .next s
  else .next (if eng = 1 then discardVector c s else if eng = 2 then discardMatrix c s else if eng = 3 then discardCopy c s else s)

/-- The waiting fills and the command at the head try again once a page is present (R227). -/
def retryMatrix (c : Nat) (s : State) : State := advanceMatrix c s

/-- A page that a fill waits for has failed (R227): the fills and the command at the head that need it for a read, or for a write, end with
XFAIL. -/
def failMatrix (c vpage : Nat) (wr : Bool) (s : State) : State :=
  let x := (core s c).user
  let needs (m : MCmd) : Option Nat :=
    match useMld s c false m with
    | .error (.page _ _ v w, i) => if v = vpage ∧ w = wr then some i else none
    | .error _ => none
    | .ok u => match fillTile s c false u m.k2.val.toNat with | .error (.page _ _ v w, i) => if v = vpage ∧ w = wr then some i else none | _ => none
  let s := setCtxOf s c false { x with fills := x.fills.map fun f => { f with failed := f.failed.or (needs f.cmd) } }
  match x.mq with
  | m :: _ =>
    match m.op with
    | .mdrn t int _ fl tl =>
      match useDrains s c false fl (drainOuts m t int tl (accTable x m.x)) with
      | .error (.page _ _ v w, i, _) => if v = vpage ∧ w = wr then (match badHead c false m 3 i s with | .done s => advanceMatrix c s | _ => s) else s
      | _ => s
    | _ => s
  | [] => s

/-! ## The instructions -/

/-- Whether a matrix command may reach a slot (R200, R288). -/
def matrixIn (slot : Nat) (m : MCmd) : Bool :=
  match m.op with
  | .mld _ => true
  | .mdrn .. => true
  | .mspl _ => inSlot slot (bits m.k1.val.toNat 31 0) 4096
  | .mrst _ => inSlot slot (bits m.k1.val.toNat 31 0) 4096
  | _ => false

/-- Whether a spill or a restore reaches a slot that the open group has staged (R350): it is misuse when it issues. What an MLD or an MDRN
reaches stands in its record, and is tested when it is taken (DEDUCED, entry 98). -/
def MCmd.staged (x : Ctx) (m : MCmd) : Bool :=
  match m.op with
  | .mspl _ => (List.range 64).any fun i => x.staged i && matrixIn i m
  | .mrst _ => (List.range 64).any fun i => x.staged i && matrixIn i m
  | _ => false

/-- Issues a matrix command (R151): the unit takes it no earlier than in the cycle after its issue (R359). -/
def issueMatrix (i : Instr) (g : Option (BitVec 3)) (k1 k2 k3 k4 : Reg) (s : State) : Out :=
  let x := cx s
  if 8 ≤ matrixUsed x then .next (wait 13 s)
  else
    match matrixCmd i k1 k2 k3 k4 (numEnv x false) with
    | none => .next s
    | some m =>
      let m := { m with bind := bindTo x g, grd := g.map (·.toNat), pc := x.pc, seq := s.tick }
      if x.tx.isSome && m.staged x then .next (trapWord 0x0A s)
      else
        let s := finish s
        .next (setCx s { cx s with mq := (cx s).mq ++ [m] })

/-- MCLM (R270). -/
def execMclm (g : Option (BitVec 3)) (x : BitVec 3) (p : BitVec 2) (s : State) : Out := issueMatrix (.mclm g x p) g {} {} {} {} s

/-- MREL (R270). -/
def execMrel (g : Option (BitVec 3)) (x : BitVec 3) (s : State) : Out := issueMatrix (.mrel g x) g {} {} {} {} s

/-- MLD (R271). -/
def execMld (g : Option (BitVec 3)) (x y z p : BitVec 3) (r q : Bool) (s : State) : Out :=
  issueMatrix (.mld g x y z p r q) g (k48 s y) (k48 s z) {} {} s

/-- MMA (R274). -/
def execMma (g : Option (BitVec 3)) (x y z : BitVec 3) (i c r e : Bool) (n : BitVec 2) (s : State) : Out :=
  issueMatrix (.mma g x y z i c r e n) g {} {} {} {} s

/-- MDRN (R279). -/
def execMdrn (g : Option (BitVec 3)) (x y z : BitVec 3) (l f : Bool) (p : BitVec 3) (r q i t : Bool) (s : State) : Out :=
  issueMatrix (.mdrn g x y z l f p r q i t) g (k48 s y) (reg (cx s) (49 + y.toNat)) (k48 s z) {} s

/-- MSPL (R283). -/
def execMspl (g : Option (BitVec 3)) (x y p : BitVec 3) (r q : Bool) (s : State) : Out := issueMatrix (.mspl g x y p r q) g (k48 s y) {} {} {} s

/-- MRST (R283). -/
def execMrst (g : Option (BitVec 3)) (x y p : BitVec 3) (r q : Bool) (s : State) : Out := issueMatrix (.mrst g x y p r q) g (k48 s y) {} {} {} s

/-- MSND (R284). -/
def execMsnd (g : Option (BitVec 3)) (x y z : BitVec 3) (s : State) : Out :=
  issueMatrix (.msnd g x y z) g (k48 s x) (k48 s y) (k48 s z) (reg (cx s) (49 + z.toNat)) s

/-- MZACC (R277). -/
def execMzacc (g : Option (BitVec 3)) (x : BitVec 3) (s : State) : Out := issueMatrix (.mzacc g x) g {} {} {} {} s

/-- MMOV (R277). -/
def execMmov (g : Option (BitVec 3)) (x y : BitVec 3) (s : State) : Out := issueMatrix (.mmov g x y) g {} {} {} {} s

/-- MMOV.G (R277). -/
def execMmovG (g : Option (BitVec 3)) (x z : BitVec 3) (s : State) : Out := issueMatrix (.mmovG g x z) g (k48 s z) {} {} {} s

/-- MMOV.T (R277). -/
def execMmovT (g : Option (BitVec 3)) (x y : BitVec 3) (s : State) : Out := issueMatrix (.mmovT g x y) g {} {} {} {} s

/-- GSET (R185, R186): at the end of its cycle the commands bound to the resolution take its value. -/
def execGset (d a : BitVec 6) (s : State) : Out :=
  let v := rv s a != 0
  let s := finish s
  let x := cx s
  .next (setCx s ({ x with guards := tset x.guards d.toNat (if v then .isTrue else .isFalse) }.resolve d.toNat v))

/-- The staged parts of a group as a mask. -/
def partMask (g : MSlot) : Nat := (g.parts.map fun p => 2 ^ p).sum

/-- MQRY (R286). -/
def execMqry (d a : BitVec 6) (s : State) : Out :=
  let x := cx s
  let v := rn s a
  match bits v 2 0 with
  | 0 => .next (finish (putNat d ((List.range 8).map fun i => fld ((mslot x i).st + (if isHead x i then 8 else 0)) (4 * i)).sum s))
  | 1 =>
    let g := mslot x (bits v 6 4)
    .next (finish (putNat d (g.rowsp + fld g.kv 8 + fld (Nat.log2 g.span) 17 + fld g.st 24 + fld (partMask g) 32) s))
  | 2 => .next (finish (putWord d x.mfault s))
  | 3 => .next (finish (putWord d x.mfault (setCx s { x with mfault := 0 })))
  | 4 => .next (finish (putNat d (gammaOf x (bits v 5 4)) s))
  | 5 => .next (finish (putNat d (matrixUsed x + fld x.fills.length 4) s))
  | _ => .next (finish (putNat d 8 s))

/-- Whether every matrix command that the context issued itself has completed (R287). -/
def matrixDone (x : Ctx) : Bool :=
  x.mq.all (·.remote) && x.fills.all (·.cmd.remote) && x.mstores.all (·.cmd.remote) && x.mmas.all (·.remote) && x.msnds.isEmpty

/-- MWAIT (R287): its later loads and stores come after every access of the commands, which have been performed everywhere. -/
def execMwait (d : BitVec 6) (s : State) : Out :=
  let x := cx s
  if !matrixDone x || (ctxAccesses s s.cur (onSup s)).any (fun a => a.eng == 2 && !performedAt s 6 a) then .next (wait 8 s)
  else .next (finish (putWord d x.mfault s))

end Sys2Proof.Machine
end

