-- ==== Sys2Proof/Machine/Bank.lean ====
section
/-! DEFINITION. Banks (R187 to R207, R357, R358): the pool, attaching and detaching, hand-over, notices, revocation, rings, and what an
open control transaction stages of them (R350, R351). -/

namespace Sys2Proof.Machine

/-! ## Holders (R193) -/

/-- The key of a context as a holder. -/
def holderKey (c : Nat) (sup : Bool) : Nat := 2 * c + b2n sup

/-- The key of a save area as a holder (R348). -/
def areaKey (a : Nat) : Nat := 8418 + a

/-- The region that an attached bank is charged to: that of its earliest attachment. -/
def recharge (b : Bank) : Bank := { b with charge := match b.holders with | h :: _ => h.2 | [] => b.charge }

/-- A context's region. -/
def rcbOf (x : Ctx) : Option Nat := x.region.map (·.rcb)

/-- An attachment is added to a bank. -/
def holdBy (gb key : Nat) (rcb : Option Nat) (s : State) : State :=
  let b := bankAt s gb
  setBank s gb (recharge { b with cond := .attached, holders := b.holders.filter (fun h => h.1 != key) ++ [(key, rcb)] })

/-- An attachment ends. -/
def dropHolder (gb key : Nat) (s : State) : State :=
  let b := bankAt s gb
  setBank s gb (recharge { b with holders := b.holders.filter fun h => h.1 != key })

/-- Writes an entry of a context's table. -/
def putEntry (c : Nat) (sup : Bool) (slot : Nat) (e : Entry) (s : State) : State :=
  let x := ctxOf s c sup
  setCtxOf s c sup { x with attach := if e = {} then tdel x.attach slot else tset x.attach slot e }

/-! ## Reservations of open groups (R351) -/

/-- The live groups: of each context of each core. -/
def liveTxs (s : State) : List (Nat × Tx) :=
  s.cores.flatMap fun p => [(p.1, p.2.user.tx), (p.1, p.2.sup.tx)].filterMap fun q =>
    q.2.bind fun t => if t.abort = 0 then some (q.1, t) else none

/-- The staged actions that stand. -/
def liveActs (s : State) : List (Nat × TxKind) :=
  (liveTxs s).flatMap fun p => (p.2.acts.filter fun a => a.status == 0).map fun a => (p.1, a.kind)

/-- Whether a bank of the pool is reserved by a staged ATT. -/
def bankReserved (s : State) (gb : Nat) : Bool :=
  (liveActs s).any fun p => match p.2 with | .att req b => bits req 7 6 == 0 && bankOf p.1 b == gb | _ => false

/-- Whether a slot of a core's user table is reserved by a staged hand-over. -/
def slotReserved (s : State) (c slot : Nat) : Bool :=
  (liveActs s).any fun p => match p.2 with | .hand r => r.target == c && r.tslot == slot | _ => false

/-- The inbox entries reserved at a core by staged messages. -/
def inboxReserved (s : State) (c : Nat) : Nat :=
  ((liveActs s).filter fun p => match p.2 with | .send m _ => m.target == c | _ => false).length

/-- A group aborts for a lost reservation where it holds one at a core (R353). -/
def Ctx.loseAt (c : Nat) (x : Ctx) : Ctx :=
  match x.tx with
  | some t =>
    if t.abort = 0 && t.acts.any (fun a => a.status == 0 && (match a.kind with | .hand r => r.target == c | .send m _ => m.target == c | _ => false))
    then { x with tx := some { t with abort := 2 } } else x
  | none => x

/-- The reservations at a core's user context are lost: it is saved or killed. -/
def loseReservations (c : Nat) (s : State) : State :=
  { s with cores := s.cores.map fun p => (p.1, { p.2 with user := p.2.user.loseAt c, sup := p.2.sup.loseAt c }) }

/-- Stages an action (R351): K[d] takes STAGED and the index; a ninth is misuse, and an aborted group stages nothing (R353). -/
def stageAct (d : BitVec 6) (kind : TxKind) (status bank : Nat) (s : State) : State :=
  let x := cx s
  match x.tx with
  | some t =>
    let a : TxAct := { kind := kind, reg := d.toNat, status := status, bank := bank, pc := x.pc }
    finish (putNat d (21 + fld t.acts.length 24) (setCx s { x with tx := some { t with acts := t.acts ++ [a] } }))
  | none => s

/-- An action inside a group before its own checks: none where it may go on to be staged. -/
def txBlocked (d : BitVec 6) (t : Tx) (s : State) : Option State :=
  if t.abort ≠ 0 then some (finish (putNat d 22 s))
  else if 8 ≤ t.acts.length then some (trapWord 0x0A s) else none

/-! ## The pool (R187, R196) -/

/-- Whether a bank identifier of a cluster is common. -/
def isCommon (s : State) (cl b : Nat) : Bool := (tget s.clusters cl {}).en && (commonBanks s cl).contains b

/-- Whether an identifier is attachable: in service and not common. -/
def attachable (s : State) (cl b : Nat) : Bool := (bankAt s (512 * cl + b)).cond != .out && !isCommon s cl b

/-- The free banks of a cluster's pool that may be placed: none that is marked for retirement (R355). -/
def freeBanks (s : State) (cl : Nat) : List Nat :=
  let common := if (tget s.clusters cl {}).en then commonBanks s cl else []
  (List.range 512).filter fun b => (bankAt s (512 * cl + b)).cond == .free && !(bankAt s (512 * cl + b)).marked && !common.contains b &&
    !bankReserved s (512 * cl + b)

/-- The distance of a bank from a core (R3, R187): in its quad, in its group, elsewhere. -/
def bankDistance (c b : Nat) : Nat := if b / 32 = c / 4 % 16 then 0 else if b / 128 = c / 16 % 4 then 1 else 2

/-- The bank that the pool gives to a core (R196): the nearest, the lowest at each distance. -/
def freshBank (s : State) (c cl : Nat) : Option Nat :=
  let l := freeBanks s cl
  (l.find? fun b => bankDistance c b == 0).orElse fun _ => (l.find? fun b => bankDistance c b == 1).orElse fun _ => l.head?

/-- The banks of a cluster charged to a region (R193). -/
def chargedBanks (s : State) (cl rcb : Nat) : Nat :=
  ((List.range 512).filter fun b =>
    let k := bankAt s (512 * cl + b)
    k.charge == some rcb && (match k.cond with | .attached => true | .parked _ _ => true | .frozen => true | _ => false)).length

/-- The effective BANKBUD of a region, read afresh (R66). -/
def bankBudget (s : State) (rcb : Nat) : Nat := effField (rcbChain s 4 rcb) 1 185 176

/-- Whether a region may be charged `n` more banks in a cluster: one with no region has no check. -/
def withinBudget (s : State) (cl n : Nat) (rcb : Option Nat) : Bool :=
  match rcb with
  | some r => chargedBanks s cl r + n ≤ bankBudget s r
  | none => true

/-- A bank of a cluster, or its striped window, has been in use until now (R119). -/
def touchCluster (cl : Nat) (s : State) : State :=
  let k := cluster s cl
  match k.power with
  | .on => setCluster s cl { k with idleSince := s.elapsed }
  | _ => s

/-- A bank returns to the pool (R196): it is scrubbed, its ring and its write trace ring are discarded. -/
def returnBank (gb : Nat) (s : State) : State :=
  let b := bankAt s gb
  send (.bankScrubDone gb) (setBank (touchCluster (gb / 512) s) gb { cond := .scrubbing, marked := b.marked })

/-! ## Notices (R202, R357) -/

/-- A notice is put behind a context's inbox items. -/
def notify (c : Nat) (sup : Bool) (n : InboxItem) (s : State) : State :=
  let x := ctxOf s c sup
  setCtxOf s c sup { x with inbox := x.inbox ++ [n] }

/-- The slots at which a context expects a bank. -/
def expects (x : Ctx) (bank : Nat) : List Nat :=
  (x.attach.filter fun p => !p.2.valid && p.2.st == 1 && p.2.bank == bank).map (·.1)

/-- A context that expects a bank gets a revoked notice for each such slot, and its expectation is cleared. -/
def Ctx.revoked (bank cause src srcSlot : Nat) (x : Ctx) : Ctx :=
  { x with attach := (expects x bank).foldl tdel x.attach
           inbox := x.inbox ++ (expects x bank).map fun slot => .notice 2 slot bank src srcSlot cause }

/-- The 32 bits of an entry (R192). -/
def entryWord (e : Entry) : Nat :=
  fld e.hslot 26 + fld e.hcore 20 + fld e.rpol 18 + fld e.st 16 + fld e.perm 12 + fld e.cls 10 + fld (b2n e.valid) 9 + e.bank

/-- A saved context that expects a bank gets its revoked notice, and its area holds the expectation no more (R191, R202, R347). -/
def revokeSaved (cl bank cause src srcSlot : Nat) (s : State) (p : Nat × Nat × Ctx) : State :=
  let (a, o, x) := p
  if clusterOf o ≠ some cl ∨ (expects x bank).isEmpty then s
  else
    let s := (expects x bank).foldl (fun s slot =>
      if homeRead s (a + 0xC80 + 4 * slot) 4 = entryWord (entry x slot) then homeWriteNat s (a + 0xC80 + 4 * slot) 4 0 else s) s
    { s with areas := tset s.areas a (o, x.revoked bank cause src srcSlot) }

/-- Every context of a cluster that expects a bank, but one that is named, gets a revoked notice: the saved contexts among them. -/
def revokeNotices (cl bank cause src srcSlot : Nat) (but : Option (Nat × Bool)) (s : State) : State :=
  let one (sup : Bool) (s : State) (c : Nat) : State :=
    if but = some (c, sup) then s else setCtxOf s c sup ((ctxOf s c sup).revoked bank cause src srcSlot)
  s.areas.foldl (revokeSaved cl bank cause src srcSlot) ((clusterCores cl).foldl (fun s c => one true (one false s c) c) s)

/-! ## Draining (R200, R206) -/

/-- Whether an element of a binding lies in a slot. -/
def streamIn (slot : Nat) (wide : Bool) (t : Stream) : Bool :=
  { t with pos := 0 }.touches wide t.count (32768 * slot) (32768 * slot + 32768)

/-- Whether a queued vector command has a stream or a mask stream bound in a slot. -/
def vectorIn (x : Ctx) (slot : Nat) (v : VCmd) : Bool :=
  let st (dst : Bool) (n : Nat) : Bool := match tfind x.streams n with | some t => streamIn slot (v.wide dst t.fmt) t | none => false
  v.uses.rd.any (st false) || v.uses.wr.any (st true) || (List.range 8).any fun n =>
    v.namesMask n &&
      (match tfind x.masks n with | some t => { t with pos := 0 }.touches t.count (32768 * slot) (32768 * slot + 32768) | none => false)

/-- Whether a copy that has not completed names the bank at a slot. -/
def copyBusy (c : Nat) (sup : Bool) (x : Ctx) (slot : Nat) : Bool :=
  x.cq.any (copyIn true c sup slot) || x.copies.any fun p => copyIn true c sup slot p.cmd

/-- Whether another context's copy that has not completed names the bank at a slot of core `c`'s user table (R233). -/
def copiedBy (c slot : Nat) (x : Ctx) : Bool := x.cq.any (copyIn false c false slot) || x.copies.any fun p => copyIn false c false slot p.cmd

/-- Whether a copy of any other context, a saved one among them, names the bank at a slot of a context's table. -/
def copiedElsewhere (s : State) (c : Nat) (sup : Bool) (slot : Nat) : Bool :=
  !sup && ((s.cores.any fun p => (p.1 != c && copiedBy c slot p.2.user) || copiedBy c slot p.2.sup) || s.areas.any fun p => copiedBy c slot p.2.2)

/-- Whether every earlier access and command of the context that might reach the bank at a slot is done (R200 step 2). -/
def drained (s : State) (c : Nat) (sup : Bool) (slot : Nat) : Bool :=
  let x := ctxOf s c sup
  !x.vq.any (vectorIn x slot) && !x.mq.any (matrixIn slot) && x.fills.isEmpty && !x.mstores.any (fun p => matrixIn slot p.cmd) &&
    !copyBusy c sup x slot &&
    (ctxAccesses s c sup).all fun a => match a.dest with | .bank k u la _ => !(k == c && u == sup && la / 32768 == slot) | _ => true

/-- Whether a stream binding or a copy uses a ring (R200, R206): a copy of any context, whatever way it names the bank. -/
def ringBusy (s : State) (c : Nat) (sup : Bool) (slot : Nat) : Bool :=
  let x := ctxOf s c sup
  x.streams.any (fun p => streamIn slot false p.2) || copyBusy c sup x slot || copiedElsewhere s c sup slot

/-! ## ATT (R197) -/

/-- What ATT's request comes to: the status, the bank concerned, and the entry to write. -/
structure AttRes where
  status : Nat
  bank : Nat
  entry : Entry
deriving DecidableEq, Repr

/-- Whether a context's table attaches a bank as shared, and its tag matches (R77, R197). -/
def sharesBank (p : Option (Nat × Nat)) (bank : Nat) (x : Ctx) : Bool :=
  (x.attach.any fun q => q.2.valid && q.2.bank == bank && q.2.cls == 1) && tenantOk p x

/-- Whether some context of a cluster holds a bank as shared with a matching tag: a saved one among them, whose banks stay attached to it
(R191). -/
def joinable (s : State) (cl bank : Nat) (p : Option (Nat × Nat)) : Bool :=
  ((clusterCores cl).any fun c => sharesBank p bank (core s c).user || sharesBank p bank (core s c).sup) ||
    s.areas.any fun q => clusterOf q.2.1 == some cl && sharesBank p bank q.2.2 &&
      (bankAt s (512 * cl + bank)).holders.any fun h => h.1 == areaKey q.1

/-- The checks of ATT (R197). A shared bank with 64 attachments is not in the state required (R193; DESIGN CHOICE, entry 102). -/
def attCheck (s : State) (c : Nat) (sup : Bool) (a kb : Nat) : AttRes :=
  let x := ctxOf s c sup
  let slot := bits a 5 0
  let mode := bits a 7 6
  let perm := bits a 11 8
  let cl := bits a 13 12
  let pol := bits a 15 14
  let e := entry x slot
  let attr : Entry := { hslot := bits a 27 22, hcore := bits a 21 16, rpol := pol, perm := perm, valid := true }
  let no (status bank : Nat) : AttRes := ⟨status, bank, {}⟩
  match clusterOf c with
  | none => no 3 0
  | some k =>
    if pol = 3 ∨ (mode ≠ 3 ∧ 2 ≤ cl) then no 8 0
    else if mode = 3 then
      if e.valid ∧ e.st = 0 then ⟨0, e.bank, { attr with perm := e.perm &&& perm, cls := e.cls, bank := e.bank }⟩ else no 10 0
    else if e.valid ∨ e.st ≠ 0 ∨ (!sup && slotReserved s c slot) then no 2 0
    else if mode = 0 then
      match freshBank s c k with
      | none => no 3 0
      | some b => if withinBudget s k 1 (rcbOf x) then ⟨0, b, { attr with cls := cl, bank := b }⟩ else no 4 0
    else if mode = 1 then
      if (bankAt s (512 * k + kb)).holders.any (fun h => h.1 == holderKey c sup) then no 2 kb
      else if !joinable s k kb (tenantOf x) then no 7 kb
      else if 64 ≤ (bankAt s (512 * k + kb)).holders.length then no 3 kb
      else ⟨0, kb, { attr with cls := 1, bank := kb }⟩
    else if attachable s k kb then ⟨0, kb, { st := 1, bank := kb }⟩ else no 3 kb

/-- The effect of an ATT whose checks passed. -/
def attApply (c : Nat) (sup : Bool) (a : Nat) (r : AttRes) (s : State) : State :=
  let s := putEntry c sup (bits a 5 0) r.entry s
  if bits a 7 6 < 2 then holdBy (bankOf c r.bank) (holderKey c sup) (rcbOf (ctxOf s c sup)) s else s

/-- ATT (R197, R351). -/
def execAtt (d a b : BitVec 6) (s : State) : Out :=
  let c := s.cur
  let sup := onSup s
  let v := rn s a
  let kb := bits (rn s b) 8 0
  match (cx s).tx with
  | some t =>
    match txBlocked d t s with
    | some t => .next t
    | none =>
      let r := attCheck s c sup v kb
      .next (stageAct d (.att v r.bank) r.status r.bank s)
  | none =>
    let r := attCheck s c sup v kb
    .next (doneStatus d r.status r.bank (if r.status = 0 then attApply c sup v r s else s))

/-! ## DET (R198) -/

/-- A context's attachment of a bank ends (R198): the bank returns to the pool with its last attachment, and those who expect it learn so. -/
def endAttachment (c : Nat) (sup : Bool) (slot cause : Nat) (s : State) : State :=
  let e := entry (ctxOf s c sup) slot
  let gb := bankOf c e.bank
  let s := dropHolder gb (holderKey c sup) (putEntry c sup slot {} s)
  if (bankAt s gb).holders.isEmpty then revokeNotices (c / 64) e.bank cause c slot (some (c, sup)) (returnBank gb s) else s

/-- DET (R198, R351): a slot that is being handed over, by a HAND or by a REVK, waits for the answer; an attached or arriving one is drained
first. -/
def execDet (d a : BitVec 6) (s : State) : Out :=
  let c := s.cur
  let sup := onSup s
  let slot := bits (rn s a) 5 0
  let e := entry (cx s) slot
  let open_ := (cx s).tx
  match open_.bind fun t => txBlocked d t s with
  | some t => .next t
  | none =>
    let bank := if e.valid ∨ e.st = 1 then e.bank else 0
    let status := if e.valid ∨ e.st = 1 then 0 else 10
    if e.valid && (e.st == 1 || e.st == 3) then .next (wait 8 s)
    else if (cx s).staged slot then .next (trapWord 0x0A s)
    else if e.valid && !drained s c sup slot then .next (wait 23 s)
    else if open_.isSome then .next (stageAct d (.det slot) status bank s)
    else if status ≠ 0 then .next (doneStatus d 10 0 s)
    else .next (doneStatus d 0 bank (if e.valid then endAttachment c sup slot 1 s else putEntry c sup slot {} s))

/-! ## HAND (R199 to R201) -/

/-- The request that a hand-over makes. -/
def handReq (origin c : Nat) (sup : Bool) (slot : Nat) (e : Entry) (target tslot reg : Nat) (x : Ctx) : HandReq :=
  { origin := origin, core := c, sup := sup, slot := slot, bank := e.bank, target := target, tslot := tslot, reg := reg, tenant := tenantOf x
    cls := e.cls, perm := e.perm, rpol := e.rpol, rcb := rcbOf x }

/-- The entry that a hand-over takes its bank from, where it has one: a REVK's stands in the user's table. -/
def sourceEntry (s : State) (r : HandReq) : Entry := entry (ctxOf s r.core (r.sup && r.origin != 2)) r.slot

/-- Whether a hand-over's bank still stands where it is taken from: an entry of a table, or the hold list; a saved context's is kept for it. -/
def sourceHolds (s : State) (r : HandReq) : Bool :=
  match r.origin with
  | 3 => match tfind (core s r.core).hold r.slot with | some h => h.1 == r.bank | none => false
  | 4 => true
  | _ => (sourceEntry s r).valid && (sourceEntry s r).bank == r.bank

/-- What the target's table answers (R200 step 3). `reserve`: at staging and at other requests, a reserved slot is busy (R351). -/
def handCheck (s : State) (r : HandReq) (reserved : Bool) : Nat :=
  let k := core s r.target
  if r.target / 64 ≠ r.core / 64 then 1
  else if !k.uload ∨ k.killing then 5
  else if !tenantOk r.tenant k.user then 6
  else
    let e := entry k.user r.tslot
    if e.valid ∨ (e.st = 1 ∧ e.bank ≠ r.bank) ∨ (reserved ∧ slotReserved s r.target r.tslot) then 2
    else if r.cls = 1 ∧ (bankAt s (bankOf r.core r.bank)).holders.any (fun h => h.1 == holderKey r.target false) then 2
    else 0

/-- The holder that a hand-over takes the bank from. -/
def handSource (r : HandReq) : Nat := if 3 ≤ r.origin then 0 else if r.origin = 2 then holderKey r.core false else holderKey r.core r.sup

/-- Acceptance (R200 step 4): the source entry becomes empty, the target's arriving, the charge moves, and a notice is sent, which names the
slot that the bank left: of a hold entry, the slot that it stood in (R204). -/
def handAccept (r : HandReq) (s : State) : State :=
  let gb := bankOf r.core r.bank
  let left := if r.origin = 3 then match tfind (core s r.core).hold r.slot with | some h => h.2.1 | none => 0 else r.slot
  let s := match r.origin with
    | 3 => setCore s r.core { core s r.core with hold := tdel (core s r.core).hold r.slot }
    | 4 => s
    | 2 => putEntry r.core false r.slot {} s
    | _ => putEntry r.core r.sup r.slot {} s
  let b := bankAt s gb
  let s := setBank s gb { b with holders := b.holders.filter fun h => decide (3 ≤ r.origin) || h.1 != handSource r }
  let s := holdBy gb (holderKey r.target false) (rcbOf (core s r.target).user) s
  let s := putEntry r.target false r.tslot { valid := true, st := 2, cls := r.cls, perm := r.perm, bank := r.bank } s
  notify r.target false (.notice (if r.origin = 0 then 1 else 3) r.tslot r.bank (coreName r.core) left 0) s

/-- Whether an event is a context's hand-over on its way, or its answer: a REVK hands over for the user context too (R203, R204). -/
def handAsked (c : Nat) (sup : Bool) : Event → Bool
  | .handoverRequest r => r.core == c && (r.sup == sup || (!sup && r.origin == 2))
  | .handoverAnswer a => a.req.core == c && (a.req.sup == sup || (!sup && a.req.origin == 2))
  | _ => false

/-- HAND (R199, R200, R351). -/
def execHand (d a b : BitVec 6) (s : State) : Out :=
  let c := s.cur
  let sup := onSup s
  let x := cx s
  let slot := bits (rn s a) 5 0
  let target := bits (rn s b) 11 0
  let e := entry x slot
  let bank := if e.valid then e.bank else 0
  match x.tx.bind fun t => txBlocked d t s with
  | some t => .next t
  | none =>
    let st := if (clusterOf c).isNone ∨ target / 64 ≠ c / 64 then 1 else if !e.valid ∨ e.st ≠ 0 then 10
      else if e.cls = 2 ∧ ringBusy s c sup slot then 11 else 0
    let r := handReq 0 c sup slot e target (bits (rn s b) 21 16) d.toNat x
    if st ≠ 0 then .next (if x.tx.isSome then stageAct d (.hand r) st bank s else doneStatus d st bank s)
    else if x.staged slot then .next (trapWord 0x0A s)
    else if !drained s c sup slot then .next (wait 23 s)
    else if x.tx.isSome then .next (stageAct d (.hand r) (handCheck s r true) bank s)
    else
      let s := putEntry c sup slot { e with st := 1 } s
      .next (send (.handoverRequest r) (finish (pendReg d 8 s)))

/-- HANDOVER_REQUEST (R200 steps 3 and 4): one table takes requests in order of arrival. -/
def execHandoverRequest (r : HandReq) (s : State) : Out :=
  if !isCore r.target ∨ !isCore r.core then .next s else
  let e : Event := .handoverRequest r
  let first := s.flight.find? fun f => match f with | .handoverRequest q => q.target == r.target && q.core == r.core | _ => false
  if !(first == none || first == some e) then .next s
  else
    let s := taken e s
    let st := if sourceHolds s r then handCheck s r true else 10
    .next (send (.handoverAnswer { req := r, status := st }) (if st = 0 then handAccept r s else s))

/-! ## Ends of attachments without a target (R203, R204) -/

/-- A free entry of a hold list (R204), from entry `n` on: which one is left open. -/
def freeHold (k : Core) (n : Nat) : Option Nat := ((List.range 64).map fun i => (n + i) % 64).find? fun i => (tfind k.hold i).isNone

/-- A bank is to be held (R204): frozen on the core's hold list, or returned where the list is full (`true`). -/
def holdBank (c gb slot : Nat) (cls perm : Nat) (rcb : Option Nat) (s : State) : State × Bool :=
  let k := core s c
  match freeHold k (Config.holdEntry s.tick) with
  | none => (returnBank gb s, true)
  | some i =>
    let b := bankAt s gb
    let s := setBank s gb { b with cond := .frozen, holders := [], charge := rcb, cls := cls, perm := perm }
    (touchCluster (gb / 512) (setCore s c { k with hold := tset k.hold i (gb % 512, slot, rcb) }), false)

/-- VAL of a bank-revocation record (R358). -/
def revokeVal (alt : Bool) (refusal policy slot bank : Nat) : Word :=
  BitVec.ofNat 128 (bank + fld slot 16 + fld policy 24 + fld refusal 32 + fld (b2n alt) 40)

/-- The record of a bank's revocation, in the fault log of the context it is taken from (R203). -/
def revokeRecord (c : Nat) (alt : Bool) (refusal policy slot bank : Nat) (s : State) : State :=
  logFor c (core s c).user 0x61 false 0xFFFF (revokeVal alt refusal policy slot bank) s

/-- A user's bank ends by return to the pool or by being held (R203 step 4). `refusal`: of an heir. -/
def settleBank (c slot : Nat) (hold : Bool) (refusal cause : Nat) (rec_ : Bool) (s : State) : State :=
  let e := entry (core s c).user slot
  let gb := bankOf c e.bank
  let rcb := rcbOf (core s c).user
  let s := dropHolder gb (holderKey c false) (putEntry c false slot {} s)
  let last := (bankAt s gb).holders.isEmpty
  let r : State × Bool := if !last then (s, false) else if hold then holdBank c gb slot e.cls e.perm rcb s else (returnBank gb s, false)
  let s := revokeNotices (c / 64) e.bank cause c slot none r.1
  if rec_ then revokeRecord c (r.2 || refusal != 0) refusal e.rpol slot e.bank s else s

/-- One entry of a killed context is dealt with by its policy (R203 step 4). Heirs are asked; until they answer the entry is frozen. -/
def dealEntry (c slot : Nat) (s : State) : State :=
  let x := (core s c).user
  let e := entry x slot
  if !e.valid then putEntry c false slot {} s
  else if e.rpol = 1 then
    let r := handReq 1 c false slot e (c / 64 * 64 + e.hcore) e.hslot 0 x
    send (.handoverRequest r) (putEntry c false slot { e with st := 3 } s)
  else settleBank c slot (e.rpol == 2) 0 0 true s

/-- The entries of a killed context's table from `slot` on, in increasing slot order (R203 step 4). -/
def dealFrom (c : Nat) : Nat → Nat → State → State
  | 0, _, s => s
  | n + 1, slot, s => dealFrom c n (slot + 1) (dealEntry c slot s)

/-- The table of a killed context is dealt with (R203): not before the hand-overs in progress have run to their answers (step 1). While its
heirs are asked it is left as it stands. -/
def dealTable (c : Nat) (s : State) : State :=
  if (core s c).user.attach.any fun p => p.2.valid && (p.2.st == 1 || p.2.st == 3) then s else dealFrom c 64 0 s

/-- Whether the notice of a bank's arrival in a slot is still waiting: the entry stands in state arriving (R201). -/
def Ctx.arriving (x : Ctx) (slot bank : Nat) : Bool :=
  x.inbox.any fun i => match i with | .notice kind n b _ _ _ => n == slot && b == bank && (kind == 1 || kind == 3) | _ => false

/-- HANDOVER_ANSWER (R200 step 5, R203, R204). -/
def execHandoverAnswer (a : HandAns) (s : State) : Out :=
  let r := a.req
  if !isCore r.core then .next s else
  let s := taken (.handoverAnswer a) s
  let e := entry (ctxOf s r.core r.sup) r.slot
  let word := BitVec.ofNat 128 (statusWord a.status r.bank)
  match r.origin with
  | 0 =>
    let back := a.status ≠ 0 ∧ e.valid ∧ e.bank = r.bank
    let s := if back then putEntry r.core r.sup r.slot { e with st := 0 } s else s
    if (core s r.core).killing && !r.sup then .next (dealTable r.core s)
    else .next (deliver r.core r.sup r.reg word s)
  | 1 =>
    if a.status = 0 then .next (revokeRecord r.core false 0 r.rpol r.slot r.bank (revokeNotices (r.core / 64) r.bank 0 r.core r.slot (some (r.target, false)) s))
    else .next (settleBank r.core r.slot true a.status 0 true s)
  | 2 =>
    let s := if a.status = 0 then revokeRecord r.core false 0 r.rpol r.slot r.bank (revokeNotices (r.core / 64) r.bank 2 r.core r.slot (some (r.target, false)) s)
      else if sourceHolds s r then
        let x := (core s r.core).user
        putEntry r.core false r.slot { entry x r.slot with st := if x.arriving r.slot r.bank then 2 else 0 } s
      else s
    .next (deliver r.core true r.reg word (if (core s r.core).killing then dealTable r.core s else s))
  | _ => .next (deliver r.core true r.reg word s)

/-! ## REVK (R204) -/

/-- REVK of a slot of the user table (R204). -/
def revkSlot (d : BitVec 6) (slot act tcore tslot : Nat) (s : State) : State :=
  let c := s.cur
  let x := (core s c).user
  let e := entry x slot
  if !e.valid then doneStatus d 10 0 s
  else if e.st = 1 ∨ e.st = 3 then wait 8 s
  else
    match act with
    | 0 => doneStatus d 0 e.bank (settleBank c slot false 0 2 true s)
    | 1 =>
      let r := { handReq 2 c true slot e tcore tslot d.toNat (cx s) with rcb := rcbOf x }
      send (.handoverRequest r) (finish (pendReg d 8 (putEntry c false slot { e with st := 3 } s)))
    | 2 =>
      let t := entry (core s c).sup tslot
      if t.valid ∨ t.st ≠ 0 ∨ (e.cls = 1 ∧ (bankAt s (bankOf c e.bank)).holders.any (fun h => h.1 == holderKey c true)) then doneStatus d 2 e.bank s
      else
        let s := dropHolder (bankOf c e.bank) (holderKey c false) (putEntry c false slot {} s)
        let s := holdBy (bankOf c e.bank) (holderKey c true) (rcbOf (core s c).sup) s
        let s := putEntry c true tslot { valid := true, perm := 15, cls := e.cls, bank := e.bank } s
        doneStatus d 0 e.bank (revokeRecord c false 0 e.rpol slot e.bank (revokeNotices (c / 64) e.bank 2 c slot none s))
    | _ => doneStatus d 8 0 s

/-- Whether a hold entry of a core is being handed over. -/
def holdAsked (c i : Nat) : Event → Bool
  | .handoverRequest r => r.origin == 3 && r.core == c && r.slot == i
  | _ => false

/-- REVK of a hold-list entry (R204): one that is being handed over waits for the target's table. -/
def revkHold (d : BitVec 6) (i act tcore tslot : Nat) (s : State) : State :=
  let c := s.cur
  let k := core s c
  match tfind k.hold i with
  | none => doneStatus d 12 0 s
  | some (bank, _, rcb) =>
    let gb := bankOf c bank
    let b := bankAt s gb
    let e : Entry := { valid := true, bank := bank, cls := b.cls, perm := b.perm }
    if s.flight.any (holdAsked c i) then wait 8 s else
    match act with
    | 0 => doneStatus d 0 bank (returnBank gb (setCore s c { k with hold := tdel k.hold i }))
    | 1 =>
      let r := { handReq 3 c true i e tcore tslot d.toNat (cx s) with rcb := rcb }
      send (.handoverRequest r) (finish (pendReg d 8 s))
    | 2 =>
      let t := entry k.sup tslot
      if t.valid ∨ t.st ≠ 0 then doneStatus d 2 bank s
      else
        let s := holdBy gb (holderKey c true) (rcbOf k.sup) (setCore s c { k with hold := tdel k.hold i })
        doneStatus d 0 bank (putEntry c true tslot { e with perm := 15 } s)
    | _ => doneStatus d 8 0 s

/-- REVK (R204): inside a group it is misuse (R350). -/
def execRevk (d a b : BitVec 6) (s : State) : Out :=
  if (cx s).tx.isSome then .next (trapWord 0x0A s)
  else
    let v := rn s a
    let w := rn s b
    let tcore := s.cur / 64 * 64 + bits w 13 8
    if bitAt v 6 then .next (revkHold d (bits v 5 0) (bits w 1 0) tcore (bits w 21 16) s)
    else .next (revkSlot d (bits v 5 0) (bits w 1 0) tcore (bits w 21 16) s)

/-! ## BQRY (R205) -/

/-- What BQRY reads. -/
def bqryWord (s : State) (a : Nat) : Nat :=
  let x := cx s
  let c := s.cur
  let i := bits a 5 0
  match bits a 7 6 with
  | 0 =>
    let e := entry x i
    entryWord e + (match slotRing s c x i with | some r => fld r.free 32 + fld r.filled 48 | none => 0) + fld (b2n (e.cls == 2)) 63
  | 1 =>
    match clusterOf c with
    | some cl =>
      let k := tget s.clusters cl {}
      (freeBanks s cl).length + fld (match rcbOf x with | some r => chargedBanks s cl r | none => 0) 16 + fld k.cbl 32 + fld (b2n k.en) 36
    | none => 0
  | 2 => match tfind (core s c).hold i with | some (bank, slot, _) => 1 + fld bank 8 + fld slot 24 | none => 0
  | _ => 8

/-- BQRY (R205): a hold entry is read by the supervisor only. -/
def execBqry (d a : BitVec 6) (s : State) : Out :=
  let v := rn s a
  if bits v 7 6 = 2 ∧ !onSup s then .next (trapWord 0x03 s) else .next (finish (putNat d (bqryWord s v) s))

/-! ## RING (R206) -/

/-- RING (R206): inside a group it is misuse (R350). With CNT = 0 it checks nothing, and dissolves what ring there is; at a slot that is being
handed over it waits for the answer, as a later access there does (R201; DEDUCED, entry 43). -/
def execRing (d a b : BitVec 6) (s : State) : Out :=
  let c := s.cur
  let sup := onSup s
  let x := cx s
  let slot := bits (rn s a) 5 0
  let sz := bits (rn s b) 3 0
  let cnt := bits (rn s b) 16 8
  let e := entry x slot
  let bank := if e.valid then e.bank else 0
  if x.tx.isSome then .next (trapWord 0x0A s)
  else if cnt ≠ 0 ∧ (!e.valid ∨ e.st ≠ 0) then .next (doneStatus d 10 bank s)
  else if cnt ≠ 0 ∧ e.cls ≠ 0 ∧ e.cls ≠ 2 then .next (doneStatus d 9 bank s)
  else if cnt ≠ 0 ∧ ringBusy s c sup slot then .next (doneStatus d 11 bank s)
  else if cnt ≠ 0 ∧ (sz < 7 ∨ 32768 < 2 ^ sz * cnt) then .next (doneStatus d 8 bank s)
  else if e.valid && (e.st == 1 || e.st == 3) then .next (wait 8 s)
  else if !drained s c sup slot then .next (wait 23 s)
  else if cnt ≠ 0 then
    let gb := bankOf c e.bank
    let s := setBank s gb { bankAt s gb with ring := some { sz := sz, cnt := cnt, free := cnt } }
    .next (doneStatus d 0 bank (putEntry c sup slot { e with cls := 2 } s))
  else if e.valid ∧ e.cls = 2 then
    let gb := bankOf c e.bank
    let s := setBank s gb { bankAt s gb with ring := none }
    .next (doneStatus d 0 bank (putEntry c sup slot { e with cls := 0 } s))
  else .next (doneStatus d 0 bank s)

/-! ## The pool's events (R188, R196) -/

/-- A bank's contents are zeroed. -/
def zeroBank (gb : Nat) (s : State) : State :=
  { s with bankMem := s.bankMem.filter fun p => p.1 / 32768 != gb || decide (bankCount ≤ gb) }

/-- BANK_SCRUB_DONE (R196, R355): a bank marked for retirement goes out of service. -/
def execBankScrubDone (bank : Nat) (s : State) : Out :=
  let s := taken (.bankScrubDone bank) s
  if bankCount ≤ bank then .next s else
  let b := bankAt s bank
  match b.cond with
  | .scrubbing => .next (zeroBank bank (setBank s bank { cond := if b.marked then .out else .free, marked := b.marked }))
  | _ => .next s

/-- Whether any bank of a cluster is attached, parked or frozen (R188). -/
def banksInUse (s : State) (cl : Nat) : Bool :=
  (List.range 512).any fun b =>
    match (bankAt s (512 * cl + b)).cond with
    | .attached => true
    | .parked _ _ => true
    | .frozen => true
    | _ => false

/-- A bank that is being scrubbed is done at once. -/
def scrubNow (s : State) (gb : Nat) : State :=
  let b := bankAt s gb
  match b.cond with
  | .scrubbing => zeroBank gb (setBank (taken (.bankScrubDone gb) s) gb { cond := if b.marked then .out else .free, marked := b.marked })
  | _ => s

/-- CPOOL_WRITE (R188): the banks that were or become common are zeroed, so that what returns to the pool reads as zero (R196). -/
def execCpoolWrite (cl : Nat) (v : BitVec 64) (s : State) : Out :=
  let s := taken (.cpoolWrite cl v) s
  if 64 ≤ cl then .next s else
  let k := cluster s cl
  let n := v.toNat
  let cbl := bits n 7 4
  let en := bitAt n 0
  let owner := fld (bits n 57 8) 8
  let moves := cbl != k.cbl || en != k.en
  if bits n 62 58 ≠ 0 ∨ bits n 3 1 ≠ 0 ∨ 8 < cbl ∨ (moves ∧ banksInUse s cl) then .next (setCluster s cl { k with werr := true })
  else
    let t := setCluster s cl { k with werr := false, owner := owner, cbl := cbl, en := en }
    if moves ∨ owner ≠ k.owner then
      let t := (List.range 512).foldl (fun t b => scrubNow t (512 * cl + b)) t
      let t := (commonBanks s cl ++ commonBanks t cl).foldl (fun t b => zeroBank (512 * cl + b) t) t
      .next (if k.en && !en then touchCluster cl t else t)
    else .next t

/-- The CPOOL word as it is read. -/
def cpoolWord (k : Cluster) : Nat := fld (b2n k.werr) 63 + k.owner + fld k.cbl 4 + b2n k.en

end Sys2Proof.Machine
end

