-- ==== Sys2Proof/Machine/Launch.lean ====
section
/-! DEFINITION. Regions (R64 to R68), graph templates (R69 to R72), demands (R79 to R87), images (R108), launches and their instances as the
counter slice keeps them (R103 to R105, R109 to R111), completion records (R104, R376). -/

namespace Sys2Proof.Machine

/-! ## Instances and launches -/

/-- An instance by its name. -/
def inst (s : State) (r : InstRef) : Option Inst := (die s r.die).insts.find? fun i => i.ref == r

/-- Changes an instance. -/
def onInst (r : InstRef) (f : Inst → Inst) (s : State) : State :=
  let d := die s r.die
  setDie s r.die { d with insts := d.insts.map fun i => if i.ref = r then f i else i }

/-- A live launch of a die. -/
def launch (s : State) (d id : Nat) : Option Launch := (die s d).launches.find? fun l => l.id == id

/-- Changes a launch. -/
def onLaunch (d id : Nat) (f : Launch → Launch) (s : State) : State :=
  let x := die s d
  setDie s d { x with launches := x.launches.map fun l => if l.id = id then f l else l }

/-- The node of an instance. -/
def nodeOf (l : Launch) (i : Nat) : Option Node := l.tpl.nodes[i]?

/-- The sensitivity entry of a node. -/
def sensOf (t : Template) (n : Node) : Sens := (t.sens[n.sens]?).getD ⟨false, 1, 0, []⟩

/-! ## Completion records (R104, R376) -/

/-- A completion record. -/
def completionRecord (kind status id tag retired faulted skipped discarded : Nat) : BitVec 256 :=
  BitVec.ofNat 256 (kind + fld status 8 + fld (id % 65536) 16 + fld (tag % 2 ^ 32) 32 + fld (retired % 2 ^ 32) 64 + fld (faulted % 2 ^ 32) 96 +
    fld (skipped % 2 ^ 32) 128 + fld (discarded % 2 ^ 32) 160)

/-- Whether a function's ring has space: one that is off has none. -/
def ringSpace (f : Func) : Bool := f.crsize != 0 && decide (f.crtail < f.crsize + f.crhead)

/-- Writes a record into a function's ring, and raises MSI-X vector 1. -/
def writeRing (r : BitVec 256) (f : Func) : Func :=
  { f with ringOut := f.ringOut ++ [(f.crbase + 32 * (f.crtail % f.crsize), r)], crtail := f.crtail + 1, msix1 := f.msix1 + 1 }

/-- A completion record is written, or held in order until space appears. -/
def complete (fn : Nat) (r : BitVec 256) (s : State) : State :=
  let f := func s fn
  setFunc s fn (if f.held.isEmpty && ringSpace f then writeRing r f else { f with held := f.held ++ [r] })

/-- COMPLETION_RECORD_WRITE (R376). -/
def execCompletionRecordWrite (fn : Nat) (s : State) : Out :=
  let s := taken (.completionRecordWrite fn) s
  let f := func s fn
  match f.held with
  | r :: t => .next (if ringSpace f then setFunc s fn (writeRing r { f with held := t }) else s)
  | [] => .next s

/-! ## Regions (R64 to R67, R377) -/

/-- Whether a VF is enabled on a physical function (R67, R377). -/
def vfEnabled (s : State) (vf pfn : Nat) : Bool :=
  let n0 := (func s 0).numVfs
  if vf = 0 then true
  else if pfn = 0 then (func s 0).vfEnable && decide (vf ≤ n0)
  else (func s 1).vfEnable && decide (n0 < vf) && decide (vf ≤ n0 + (func s 1).numVfs)

/-- The reserved bits of a block (R64). -/
def rcbReserved (v : Nat) : Bool :=
  bits v 2047 704 != 0 || bits v 639 624 != 0 || bits v 543 529 != 0 || bits v 511 500 != 0 || bits v 447 434 != 0 || bits v 383 368 != 0 ||
    bits v 351 338 != 0 || bits v 191 186 != 0 || bits v 117 114 != 0 || bits v 47 42 != 0 || bits v 39 34 != 0

/-- The parts of a block's own fields that R64 leaves no choice, where its OVR bit makes them count (R65): a launch into a block that breaks
them is refused with REGION (DESIGN CHOICE, entry 105). -/
def rcbFields (v : Nat) : Bool :=
  let ovr := bits v 63 48
  (!bitAt ovr 4 || (bits v 273 272 == 0 && bits v 299 288 == 0)) && (!bitAt ovr 5 || bits v 391 384 == 0) &&
    (!bitAt ovr 8 || (bits v 452 448 == 0 && decide (bits v 528 512 ≤ 65536))) && (!bitAt ovr 1 || decide (bits v 185 176 ≤ 512))

/-- The checks of R67 on each block of a chain from the region up: `true` where they pass. -/
def chainOk (s : State) : List (Nat × Nat) → Bool
  | [] => false
  | (pa, v) :: up =>
    pa % 256 == 0 && physExtent s pa 256 && bits v 31 0 == 0x52474342 && !rcbReserved v && bits v 63 57 == 0 && rcbFields v &&
      (match up with
        | [] => bits v 33 32 == 0 && bits v 113 64 == 0 && bits v 56 48 == 0x1FF
        | (_, p) :: _ => bits v 33 32 == bits p 33 32 + 1 && !bitAt v 55 && chainOk s up)

/-- What a region's chain comes to for function `fn`: a status of R105, and the snapshot. `fn`: none where the binding is not checked. -/
def regionStatus (s : State) (fn : Option Nat) (rcb : Nat) : Nat × Snapshot :=
  let l := rcbChain s 5 rcb
  let g := resolveSnap l
  let st :=
    if !physExtent s rcb 256 ∨ 4 < l.length ∨ !chainOk s l ∨ g.vf = 63 ∨ !vfEnabled s g.vf g.pfn ∨ g.flogn = 0 then 3
    else if l.any (fun p => bits p.2 41 40 != 0) then 4
    else match fn with | some f => if funcOf g.vf g.pfn = f then 0 else 5 | none => 0
  (st, g)

/-- Whether a chain breaks a memory quota (R66). -/
def overQuota (s : State) (rcb : Nat) : Bool :=
  (rcbChain s 4 rcb).any fun p => bitAt (bits p.2 63 48) 2 && bits p.2 223 192 != 2 ^ 32 - 1 && decide (bits p.2 223 192 < bits p.2 623 592)

/-- The dispatch checks of R66 and R67: open, and no budget reached. -/
def mayDispatch (s : State) (rcb : Nat) : Bool :=
  (rcbChain s 4 rcb).all fun p =>
    bits p.2 41 40 == 0 && (!bitAt (bits p.2 63 48) 0 || bits p.2 175 128 == 2 ^ 48 - 1 || decide (bits p.2 591 544 < bits p.2 175 128))

/-! ## Memory of a region, as Saffron reaches it (R71, R87) -/

/-- What Saffron's access comes to: a page to be requested, or a refusal. -/
inductive SErr where
  | page (st2 : Bool) (addr vpage : Nat)
  | bad

/-- The physical address of an access of a region by the Saffron of a die. -/
def regionXlate (s : State) (d : Nat) (g : Snapshot) (va : Nat) (rd wr : Bool) : Except SErr Nat :=
  let fn := funcOf g.vf g.pfn
  let f := func s fn
  if !f.s1en && !f.s2en then (if physOk s va then .ok va else .error .bad)
  else
    match walkAll s d fn va rd wr with
    | .ok w => if physOk s w.pa then .ok w.pa else .error .bad
    | .error (.absent st2 a _) => .error (.page st2 a (va / 4096))
    | .error _ => .error .bad

/-- Bytes of a region's memory. -/
def regionRead (s : State) (d : Nat) (g : Snapshot) : Nat → Nat → Nat → Except SErr (List Byte)
  | 0, _, _ => .ok []
  | fuel + 1, va, n =>
    if n = 0 then .ok []
    else
      let m := Nat.min n (4096 - va % 4096)
      match regionXlate s d g (va % 2 ^ 52) true false with
      | .error e => .error e
      | .ok pa =>
        match regionRead s d g fuel (va + m) (n - m) with
        | .error e => .error e
        | .ok l => .ok (homeBytes s pa m ++ l)

/-- Bytes of a region's memory, with fuel for its pages. -/
def regionBytes (s : State) (d : Nat) (g : Snapshot) (va n : Nat) : Except SErr (List Byte) := regionRead s d g (n / 4096 + 2) va n

/-- The losses that Saffron's reads of an extent find (R220), page by page. -/
def noteRegion (d : Nat) (g : Snapshot) : Nat → Nat → Nat → State → State
  | 0, _, _, s => s
  | fuel + 1, va, n, s =>
    let m := Nat.min n (4096 - va % 4096)
    if n = 0 then s
    else
      noteRegion d g fuel (va + m) (n - m)
        (match regionXlate s d g (va % 2 ^ 52) true false with
          | .ok pa => lostToRegion d g pa m s
          | .error _ => s)

/-- The losses that a read of `n` bytes of a region finds. -/
def noteExtent (d : Nat) (g : Snapshot) (va n : Nat) (s : State) : State := noteRegion d g (n / 4096 + 2) va n s

/-- Saffron asks for a page (R71): the events that need it stay under way. -/
def saffronPage (d : Nat) (g : Snapshot) (st2 : Bool) (addr vpage : Nat) (wr : Bool) (s : State) : State :=
  let w : Waiter := { core := d, vpage := vpage, eng := 4, wr := wr }
  if waitsOnPage s (funcOf g.vf g.pfn) w then s
  else
    let s := walkLost s d (funcOf g.vf g.pfn) (4096 * vpage) wr fun e => lostToRegion d g e 8
    (pageRequest (funcOf g.vf g.pfn) st2 addr wr [w] s).getD s

/-! ## Templates (R69 to R71, R82 to R84) -/

/-- The 16-bit values of an edge array. -/
def edges : Nat → List Byte → List Nat
  | 0, _ => []
  | n + 1, b => ofBytes (b.take 2) :: edges n (b.drop 2)

/-- Cuts bytes into values of `w` bytes. -/
def chunks (w : Nat) : Nat → List Byte → List Nat
  | 0, _ => []
  | n + 1, b => ofBytes (b.take w) :: chunks w n (b.drop w)

/-- The reserved bits of a header (R69). -/
def headerBad (h : Nat) : Bool :=
  bits h 31 0 != 0x4B524754 || bits h 511 304 != 0 || bits h 255 244 != 0 || bits h 191 180 != 0 || bits h 127 116 != 0 || bits h 47 45 != 0 ||
    bits h 44 32 == 0 || decide (4096 < bits h 44 32) || bits h 196 192 != 0 || bitAt h 128 || bits h 69 64 != 0

/-- A shape and a size of R70. -/
def shapeOk (shape size : Nat) : Bool :=
  match shape with
  | 0 => size == 1
  | 1 => decide (2 ≤ size && size ≤ 4)
  | 2 => decide (4 ≤ size && size ≤ 16)
  | _ => false

/-- A node entry, read against its edge array: none where it breaks R71. The ranges of R70 that R71 does not name, and an empty list that
begins beyond the array, are settled by the model (DESIGN CHOICE, entry 106). -/
def readNode (l : List Nat) (sensn nodes i e : Nat) : Option Node :=
  let nops := bits e 63 61
  let off := bits e 95 80
  let sn := bits e 108 96
  let succs := (l.drop off).take sn
  if bits e 511 320 ≠ 0 ∨ bits e 127 109 ≠ 0 ∨ bitAt e 47 ∨ !shapeOk (bits e 33 32) (bits e 38 34) ∨ 6 < nops ∨ 64 < bits e 45 39 ∨ bits e 17 16 ≠ 0 ∨
      sensn ≤ bits e 79 64 ∨ l.length < off + sn ∨ bits e 319 (128 + 32 * nops) ≠ 0 ∨ succs.any (fun j => j ≤ i || nodes ≤ j) then none
  else
    some { image := bits e 15 0, entry := bits e 31 16, shape := bits e 33 32, size := bits e 38 34, banks := bits e 45 39, retain := bitAt e 46
           deps := bits e 60 48
           ops := (List.range nops).map fun j => (bits e (128 + 32 * j + 15) (128 + 32 * j), signed 16 (bits e (128 + 32 * j + 31) (128 + 32 * j + 16)))
           succs := succs, sens := bits e 79 64 }

/-- The nodes of a template. -/
def readNodes (l : List Nat) (sensn nodes : Nat) : Nat → List Nat → Option (List Node)
  | _, [] => some []
  | i, e :: t =>
    match readNode l sensn nodes i e, readNodes l sensn nodes (i + 1) t with
    | some n, some r => some (n :: r)
    | _, _ => none

/-- A sensitivity entry (R82, R83), with the reserved fields that R84 checks. -/
def readSens (e : Nat) : Option Sens :=
  let nin := bits e 202 200
  if bits e 255 207 ≠ 0 ∨ bits e 205 203 = 0 ∨ 4 < bits e 205 203 ∨ 6 < nin ∨ bits e 191 (32 * nin) ≠ 0 then none
  else
    some { upol := bitAt e 206, nout := bits e 205 203, own := bits e 199 192
           ins := (List.range nin).map fun i =>
             let w := bits e (32 * i + 31) (32 * i)
             { sig := signed 8 (bits w 31 24), wgt := bits w 23 16, srcv := bitAt w 15, keep := bitAt w 14, srcout := bits w 13 12, srcnode := bits w 11 0 } }

/-- The table of R84. -/
def weightM (j : Nat) : Nat := [16777216, 15384775, 14107901, 12937003, 11863284, 10878679, 9975793, 9147842].getD j 0

/-- W(ω). -/
def weight (w : Nat) : Nat := if w = 255 then 0 else ceilDiv (weightM (w % 8)) (2 ^ (w / 8))

/-- The weight check of R84. -/
def weightsOk (e : Sens) : Bool := decide (weight e.own + (e.ins.map fun i => weight i.wgt).sum ≤ 2 ^ 24)

/-- Whether the producers of a node's inputs are its direct predecessors, with outputs that they have (R84). -/
def producersOk (t : Template) (i : Nat) (e : Sens) : Bool :=
  e.ins.all fun w => !w.srcv ||
    (match t.nodes[w.srcnode]? with
      | some p => p.succs.contains i && decide (w.srcout < (sensOf t p).nout)
      | none => false)

/-- What loading a template comes to: a status of R105, or a page to be requested. -/
inductive TplRes where
  | ok (t : Template)
  | refuse (status : Nat)
  | page (st2 : Bool) (addr vpage : Nat)

/-- A read of Saffron's that ends the loading. -/
def SErr.tpl : SErr → TplRes
  | .page st2 a v => .page st2 a v
  | .bad => .refuse 7

/-- The checks of R84 on the entries that nodes name: 8 where one fails. -/
def sensStatus (t : Template) (raw : List Nat) : Nat :=
  let bad := (List.range t.nodes.length).any fun i =>
    match t.nodes[i]? with
    | some n =>
      match readSens (raw.getD n.sens 0) with
      | some e => !weightsOk e || !producersOk t i e
      | none => true
    | none => false
  if bad then 8 else 0

/-- Checks a template read from memory. -/
def checkTemplate (rcb addr h : Nat) (nodes edgeBytes sens : List Byte) : TplRes :=
  let n := bits h 44 32
  let l := edges (bits h 287 272) edgeBytes
  let raw := chunks 32 (bits h 303 288) sens
  match readNodes l (bits h 303 288) n 0 (chunks 64 n nodes) with
  | none => .refuse 7
  | some ns =>
    let t : Template := { rcb := rcb, addr := addr, gen := bits h 63 48, recbase := bits h 115 64, recn := bits h 271 256, nodes := ns
                          sens := raw.map fun e => (readSens e).getD ⟨false, 1, 0, []⟩ }
    if (List.range n).any (fun i => l.count i != (ns[i]?.map (·.deps)).getD 0) then .refuse 7
    else if sensStatus t raw ≠ 0 then .refuse (sensStatus t raw)
    else .ok t

/-- Loads a template (R71): the die's stored copy where the header shows its key, whatever else the header has become; only a template that is
loaded afresh is checked. -/
def loadTemplate (s : State) (d : Nat) (g : Snapshot) (addr : Nat) : TplRes :=
  if addr % 64 ≠ 0 then .refuse 7
  else
    match regionBytes s d g addr 64 with
    | .error e => e.tpl
    | .ok hb =>
      let h := ofBytes hb
      match (die s d).templates.find? fun t => t.rcb == g.rcb && t.addr == addr && t.gen == bits h 63 48 with
      | some t => .ok t
      | none =>
        if headerBad h then .refuse 7
        else
          match regionBytes s d g (addr + 64) (64 * bits h 44 32), regionBytes s d g (bits h 179 128) (2 * bits h 287 272),
              regionBytes s d g (bits h 243 192) (32 * bits h 303 288) with
          | .ok a, .ok b, .ok c => checkTemplate g.rcb addr h a b c
          | .error e, _, _ => e.tpl
          | _, .error e, _ => e.tpl
          | _, _, .error e => e.tpl

/-- The losses that the loading of a template finds: at its header, and where it is not held already at the arrays that its header names. -/
def noteLoad (d : Nat) (g : Snapshot) (addr : Nat) (s : State) : State :=
  match regionBytes s d g addr 64 with
  | .error _ => s
  | .ok hb =>
    let h := ofBytes hb
    let t := noteExtent d g addr 64 s
    if headerBad h || (die s d).templates.any fun t => t.rcb == g.rcb && t.addr == addr && t.gen == bits h 63 48 then t
    else noteExtent d g (bits h 243 192) (32 * bits h 303 288) (noteExtent d g (bits h 179 128) (2 * bits h 287 272)
      (noteExtent d g (addr + 64) (64 * bits h 44 32) t))

/-- Keeps a checked template. -/
def storeTemplate (d : Nat) (t : Template) (s : State) : State :=
  let x := die s d
  if x.templates.contains t then s else setDie s d { x with templates := x.templates ++ [t] }

/-! ## Demands (R79, R80, R85 to R87) -/

/-- InputShare (R85). -/
def inputShare (t w : Nat) (sig : Int) : Nat := if t = 255 ∨ w = 255 then 255 else ((t : Int) + w + sig).toNat.min 254

/-- OwnShare (R85). -/
def ownShare (d w : Nat) : Nat := if d = 255 ∨ w = 255 then 255 else Nat.min 254 (d + w)

/-- The node demand T. -/
def nodeDemand (d : List Nat) : Nat := d.foldl Nat.max 0

/-- The codes that inputs of later nodes ask of output `o` of node `i` (R86), from the demands found so far. -/
def asked (t : Template) (found : AList (List Nat)) (i o : Nat) : List Nat :=
  found.flatMap fun p =>
    match t.nodes[p.1]? with
    | some n => ((sensOf t n).ins.filter fun w => w.srcv && w.srcnode == i && w.srcout == o).map fun w => inputShare (nodeDemand p.2) w.wgt w.sig
    | none => []

/-- The demands of the outputs of node `i`. -/
def outputDemands (t : Template) (named : List (Nat × Nat × Nat)) (defdem : Nat) (found : AList (List Nat)) (i : Nat) : List Nat :=
  (List.range ((t.nodes[i]?.map fun n => (sensOf t n).nout).getD 0)).map fun o =>
    match asked t found i o ++ (named.filter fun p => p.1 == i && p.2.1 == o).map (·.2.2) with
    | [] => defdem
    | l => l.foldl Nat.max 0

/-- The sweep over the nodes that exist, from the highest down. -/
def sweepNodes (t : Template) (named : List (Nat × Nat × Nat)) (defdem : Nat) (has : Nat → Bool) : Nat → AList (List Nat) → AList (List Nat)
  | 0, found => found
  | i + 1, found =>
    sweepNodes t named defdem has i (if has i then (i, outputDemands t named defdem found i) :: found else found)

/-- The demands of every node that exists. -/
def demands (t : Template) (named : List (Nat × Nat × Nat)) (defdem : Nat) (has : Nat → Bool) : AList (List Nat) :=
  sweepNodes t named defdem has t.nodes.length []

/-- A demand word (R87). -/
def demandWord (d : List Nat) : Nat :=
  d.getD 0 0 + fld (d.getD 1 0) 8 + fld (d.getD 2 0) 16 + fld (d.getD 3 0) 24

/-- Where the demand word of an instance lies (R87). -/
def demandAddr (l : Launch) (r : InstRef) : Nat := l.dstore + 4 * (r.node * l.count + (r.n - l.first))

/-- Writes the demand word of an instance: `false` where it cannot be written yet. An absent page is asked for, again where the
answer was a failure (DESIGN CHOICE, entry 58). -/
def writeDemand (l : Launch) (i : Inst) (s : State) : State × Bool :=
  match regionXlate s i.ref.die l.snap (demandAddr l i.ref % 2 ^ 52) false true with
  | .ok pa => (lostToRegion i.ref.die l.snap pa 4 (homeWriteNat s pa 4 (demandWord i.demand)), true)
  | .error (.page st2 a v) => (saffronPage i.ref.die l.snap st2 a v true s, false)
  | .error .bad => (s, false)

/-- Writes the words of instances, each of which is then marked. -/
def writeDemands (l : Launch) : List Inst → State → State
  | [], s => s
  | i :: t, s =>
    let q := writeDemand l i s
    writeDemands l t (if q.2 then onInst i.ref (fun i => { i with word := true }) q.1 else q.1)

/-- Puts an instance into the sweep's order (R87): by rising number, and of one number from the highest node down. -/
def insertSwept (x : Inst) : List Inst → List Inst
  | [] => [x]
  | y :: t => if x.ref.n < y.ref.n ∨ (x.ref.n = y.ref.n ∧ y.ref.node < x.ref.node) then x :: y :: t else y :: insertSwept x t

/-- The instances of a launch whose demand words are still to be written, in the sweep's order. -/
def unwritten (s : State) (d id : Nat) : List Inst :=
  ((die s d).insts.filter fun i => i.ref.launch == id && !i.word).foldr insertSwept []

/-- DEMAND_SWEEP (R87): the words of every instance of a launch are written; an absent page is asked for first. -/
def execDemandSweep (d id : Nat) (s : State) : Out :=
  let s := taken (.demandSweep d id) s
  match launch s d id with
  | none => .next s
  | some l =>
    let s := writeDemands l (unwritten s d id) s
    .next (if (unwritten s d id).isEmpty then s else send (.demandSweep d id) s)

/-- Whether every page of a demand store may be written: an absent one counts as one that may. -/
def storeWritable (s : State) (d : Nat) (g : Snapshot) (va n : Nat) : Bool :=
  (List.range ((va % 4096 + n + 4095) / 4096)).all fun i =>
    match regionXlate s d g ((va / 4096 + i) * 4096 % 2 ^ 52) false true with
    | .error .bad => false
    | _ => true

/-! ## The end of a launch (R104) -/

/-- Whether an instance has ended. -/
def Inst.ended (i : Inst) : Bool := match i.st with | .retired => true | .discarded => true | .faulted => true | _ => false

/-- The instances of a launch. -/
def instsOf (s : State) (d id : Nat) : List Inst := (die s d).insts.filter fun i => i.ref.launch == id

/-- A launch whose every instance has ended gets its KIND 2 record and is live no longer. -/
def endLaunch (d id : Nat) (s : State) : State :=
  match launch s d id with
  | none => s
  | some l =>
    if (instsOf s d id).all Inst.ended then
      let x := die s d
      let s := setDie s d { x with launches := x.launches.filter (fun q => q.id != id), insts := x.insts.filter fun i => i.ref.launch != id }
      complete l.fn (completionRecord 2 (if l.cancelled then 17 else 0) id l.tag l.retired l.faulted l.skipped l.discarded) s
    else s

/-! ## Readiness and decrements (R110) -/

/-- An instance becomes READY now. -/
def Inst.toReady (now : Nat) (i : Inst) : Inst := { i with st := .ready, ready := now, since := now }

/-- A decrement at the slice: whether it took the counter to 0. One that finds 0 leaves a record (R395). -/
def decrement (target : InstRef) (byNode : Nat) (early : Bool) (c pc : Nat) (s : State) : State × Bool :=
  match inst s target, launch s target.die target.launch with
  | some i, some l =>
    if i.counter = 0 then
      let val := BitVec.ofNat 128 (byNode % 4096 + fld (b2n early) 12)
      (domainLog target.die l.snap (record 0x63 false target.n target.node target.launch (coreName c) pc (elapsedOn s target.die) val) s, false)
    else
      let now := s.elapsed
      let zero := i.counter == 1
      (onInst target (fun i =>
        let i := { i with counter := i.counter - 1 }
        if zero && i.st == .waiting then i.toReady now else i) s, zero)
  | _, _ => (s, false)

/-! ## Creating a launch (R103, R109) -/

/-- The images of a function in a die's directory. -/
def image (s : State) (d fn id : Nat) : Option Image := (die s d).images.find? fun i => i.fn == fn && i.imgid == id

/-- Whether every node's image is registered and holds its entry (R108). -/
def imagesOk (s : State) (d fn : Nat) (t : Template) : Bool :=
  t.nodes.all fun n => match image s d fn n.image with | some i => decide (n.entry < i.textlen) | none => false

/-- A launch identifier that no live launch of the die has (R103): which one is left open. -/
def freshLaunch (s : State) (d : Nat) : Nat :=
  let x := die s d
  ((List.range 65535).map fun i => (Config.launchId x.nextLaunch + i) % 65535 + 1).find? (fun i => !x.launches.any (fun l => l.id == i)) |>.getD 0

/-- Whether the die has room for a launch of `n` instances: 256 launches, and a counter store of 2^24 instances (R105, R110). -/
def hasRoom (s : State) (d n : Nat) : Bool :=
  decide ((die s d).launches.length < 256) && decide ((die s d).insts.length + n ≤ 2 ^ 24)

/-- A new instance: READY where its counter is 0. -/
def newInst (now prio : Nat) (r : InstRef) (counter : Nat) (dem : List Nat) : Inst :=
  { ref := r, st := if counter = 0 then .ready else .waiting, counter := counter, prio := prio, ready := now, since := now, demand := dem }

/-- Puts a launch and its instances into the die, with its sweep to come. -/
def admitLaunch (d : Nat) (l : Launch) (is : List Inst) (s : State) : State :=
  let s := storeTemplate d l.tpl s
  let x := die s d
  send (.demandSweep d l.id) (setDie s d { x with launches := x.launches ++ [l], insts := x.insts ++ is, nextLaunch := x.nextLaunch + 1 })

/-- The instances of a host launch, by number and then by node (R72, R110). -/
def hostInsts (s : State) (d id : Nat) (l : Launch) : List Inst :=
  let dem := demands l.tpl l.dems l.defdem fun _ => true
  (List.range l.count).flatMap fun k => (List.range l.tpl.nodes.length).map fun i =>
    newInst s.elapsed l.snap.prio ⟨d, id, i, l.first + k⟩ ((l.tpl.nodes[i]?.map (·.deps)).getD 0) (tget dem i [])

/-! ## Device-built launches (R109, R319, R329) -/

/-- A tile record's tiles: number, first row, rows. -/
def tilesOf (r : Nat) : List (Nat × Nat × Nat) :=
  let n := bits r 63 32
  (List.range (ceilDiv n 32)).map fun t => (bits r 31 0 + t, bits r 95 64 + 32 * t, Nat.min 32 (n - 32 * t))

/-- The checks of tile records in array order, from the end of the earlier ones (R109): a status of R105 (DESIGN CHOICE, entry 112). -/
def tilesStatus : Nat → List Nat → Nat
  | _, [] => 0
  | lo, r :: t =>
    if bits r 127 96 ≠ 0 then 2
    else if bits r 63 32 = 0 then tilesStatus lo t
    else
      let n := ceilDiv (bits r 63 32) 32
      if 2 ^ 32 < bits r 31 0 + n ∨ bits r 31 0 < lo then 9 else tilesStatus (bits r 31 0 + n) t

/-- The nodes that can be reached from one, rising (R109): every edge runs to a higher index. -/
def reach (t : Template) (n : Nat) : List Nat :=
  let l := (List.range t.nodes.length).foldl (fun l i => if l.contains i then l ++ ((t.nodes[i]?).map (·.succs)).getD [] else l) [n]
  (List.range t.nodes.length).filter l.contains

/-- The predecessors of a node within a set. -/
def predCount (t : Template) (l : List Nat) (j : Nat) : Nat := (l.map fun i => (((t.nodes[i]?).map (·.succs)).getD []).count j).sum

/-- What the expansion of a TSPAWN comes to. -/
inductive SpawnRes where
  | ok (l : Launch) (is : List Inst)
  | refuse (status : Nat)
  | page (st2 : Bool) (addr vpage : Nat)

/-- The launch that a TSPAWN makes from its tile records and template. -/
def buildSpawn (s : State) (d : Nat) (r : SpawnReq) (g : Snapshot) (tag dem : Nat) (t : Template) (recs : List Nat) : SpawnRes :=
  let fn := funcOf g.vf g.pfn
  let tiles := recs.flatMap tilesOf
  let l := reach t r.node
  let ns := tiles.map (·.1)
  let first := ns.head?.getD 0
  let count := ns.getLast?.getD 0 + 1 - first
  if tilesStatus 0 recs ≠ 0 then .refuse (tilesStatus 0 recs)
  else if t.nodes.length ≤ r.node then .refuse 7
  else if tiles.isEmpty ∨ 2 ^ 24 < tiles.length * l.length ∨ 2 ^ 24 < t.nodes.length * count then .refuse 9
  else if !imagesOk s d fn t then .refuse 13
  else if r.dst % 4 ≠ 0 ∨ !storeWritable s d g r.dst (4 * t.nodes.length * count) then .refuse 10
  else if !hasRoom s d (tiles.length * l.length) then .refuse 11
  else
    let id := freshLaunch s d
    let dems := demands t [] dem l.contains
    let la : Launch := { id := id, fn := fn, tag := tag, snap := g, tpl := t, first := first, count := count, defdem := dem, dems := []
                         dstore := r.dst, tiles := tiles, skipped := (recs.filter fun v => bits v 63 32 == 0).length }
    .ok la (tiles.flatMap fun p => l.map fun i =>
      newInst s.elapsed g.prio ⟨d, id, i, p.1⟩ (predCount t l i) (tget dems i []))

/-- The checks of a TSPAWN before its template is loaded: a status of R105, or the spawner's snapshot. -/
def spawnRegion (s : State) (r : SpawnReq) (region : Option Snapshot) : Nat ⊕ Snapshot :=
  match region with
  | none => .inl 3
  | some g =>
    let st := (regionStatus s none g.rcb).1
    if st ≠ 0 then .inl st
    else if overQuota s g.rcb then .inl 6
    else if r.rcs % 16 ≠ 0 then .inl 2
    else if r.cnt = 0 ∨ 4096 < r.cnt then .inl 9
    else .inr g

/-- The checks and the expansion of a TSPAWN under its spawner's snapshot. -/
def spawnRes (s : State) (d : Nat) (r : SpawnReq) (region : Option Snapshot) (tag dem : Nat) : SpawnRes :=
  match spawnRegion s r region with
  | .inl st => .refuse st
  | .inr g =>
    match loadTemplate s d g r.tpl with
    | .refuse st => .refuse st
    | .page st2 a v => .page st2 a v
    | .ok t =>
      match regionBytes s d g r.rcs (16 * r.cnt) with
      | .error (.page st2 a v) => .page st2 a v
      | .error .bad => .refuse 7
      | .ok b => buildSpawn s d r g tag dem t (chunks 16 r.cnt b)

/-- The template that a TSPAWN loads is kept, whatever comes of the rest (R71). -/
def spawnLoads (d : Nat) (r : SpawnReq) (region : Option Snapshot) (s : State) : State :=
  match spawnRegion s r region with
  | .inl _ => s
  | .inr g =>
    let t := noteExtent d g r.rcs (16 * r.cnt) (noteLoad d g r.tpl s)
    match loadTemplate s d g r.tpl with | .ok k => storeTemplate d k t | _ => noteLoad d g r.tpl s

/-- Whether a page that Saffron asked for has failed (R71). -/
def pageFailed (s : State) (d : Nat) (g : Snapshot) (vpage : Nat) : Bool := (die s d).pageFail.contains (funcOf g.vf g.pfn, vpage)

/-- A failed page is told once. -/
def forgetPage (d : Nat) (g : Snapshot) (vpage : Nat) (s : State) : State :=
  let x := die s d
  setDie s d { x with pageFail := x.pageFail.filter (· != (funcOf g.vf g.pfn, vpage)) }

end Sys2Proof.Machine
end

