-- ==== Sys2Proof/Machine/Sequencer.lean ====
section
/-! DEFINITION. What surrounds the meaning of a word: who issues next, the checks at the boundary, fetching and decoding (R124, R141),
the waits of a chorus (R126 to R128), and what follows a word that has issued (R126, R127, R363, R370). -/

namespace Sys2Proof.Machine

/-- What a sequencer's turn comes to before a meaning runs: it is over, or a decoded instruction is to run. -/
inductive Prep where
  | done (t : State)
  | run (i : Instr) (t : State)

/-- The next core in turn. -/
def turn (s : State) : State := match s.order with | [] => s | c :: r => { s with cur := c, order := r }

/-- Whether a follower still has forwarded words to issue before it stops for a pre-emption (R129): a halted one is saved as it is, its words
in its queue (R362). -/
def drainsWords (k : Core) : Bool :=
  match k.user.role with | .attached _ => !k.user.dbg.halted && (k.fwd.isSome || !k.user.fwdq.isEmpty) | _ => false

/-- Whether the user context of a core may issue: it is loaded, not being killed, not held by a trap, not halted, not stopped for a
pre-emption (R333, R343, R356, R362). -/
def userIssues (k : Core) : Bool := k.uload && !k.killing && !k.pendT && !k.user.dbg.halted && (!k.preempt || drainsWords k)

/-- Whether the supervisor of a core may issue: it runs, and is not stopped with the user context that Saffron pre-empts (R343). -/
def supIssues (k : Core) : Bool := k.supOn && !(k.preempt && k.udisp)

/-- Whether the clock of a core stands or its die is held in reset (R378). -/
def coreStopped (s : State) : Bool := s.mgmt.clockStopped || (s.cur != nolornCore && (die s (dieOf s.cur)).reset)

/-- A cycle in which the core issues nothing. -/
def idleTurn (cause : Option Nat) (s : State) : State := spendOn s.cur cause none none s

/-- A group that has been open for 65,536 cycles of %ctime aborts (R353), unless the slice has it. -/
def expireTx (x : Ctx) : Ctx :=
  match x.tx, x.waiting with
  | _, some (.commit _) => x
  | some t, _ => if t.abort = 0 && 65536 ≤ x.ctime - t.since then { x with tx := some { t with abort := 5 } } else x
  | none, _ => x

/-- Whether a counter has reached 2^47 (R155). -/
def counterFull (x : Ctx) : Bool := x.acct.any fun p => 2 ^ 47 ≤ p.2

/-- Whether a counter of the context resident on the core in turn has reached 2^47, whichever context issues (R155). -/
def accountsFull (s : State) : Bool :=
  match residentOf (curCore s) with | some sup => counterFull (ctxOf s s.cur sup) | none => false

/-- The accounts of the resident context commit (R155). -/
def commitResident (s : State) : State :=
  match residentOf (curCore s) with | some sup => commitAccounts s.cur sup none s | none => s

/-- The first imprecise cause that waits is taken (R335). -/
def takeImprecise (s : State) : State :=
  let x := cx s
  match x.imprecise with
  | (cause, val) :: r => takeTrap s.cur cause true val (spend 8 (setCx s { x with imprecise := r }))
  | [] => s

/-- The cause that a word waits for when a register it names has an outstanding result. -/
def pendCause (x : Ctx) (w : Nat) : Option Nat := ((wordRegs w).filterMap fun n => tfind x.pend n).head?

/-- Instructions that act only on the leader (R322, R350). -/
def leaderOnly (o : Nat) : Bool :=
  o == 0x109 || o == 0x10B || o == 0xD9 || o == 0x100 || o == 0x104 || o == 0x106 || o == 0x107 || o == 0x102 || o == 0x103 ||
    o == 0x10D || o == 0x10E || o == 0x10F

/-- A forwarded word that acts only on the leader (R322): the follower writes kD with the leader's result, or waits for it. -/
def takeResult (f : FwdWord) (s : State) : State :=
  match f.needs with
  | some _ => wait 7 s
  | none =>
    match f.res with
    | some v => finish (putNat (BitVec.ofNat 6 (bits f.word.toNat 21 16)) v.toNat s)
    | none => finish s

/-- Fetches and decodes the next word of the context in issue, and finds what it comes to. -/
def fetchDecode (s : State) : Prep :=
  let k := curCore s
  let x := cx s
  let raw := nextWord s x
  let nolorn := s.cur == nolornCore
  let fwd := k.forwardedWord
  let x1 := if fwd.isSome then x else { x with reps := captureWord x.pc raw x.reps }
  let eff := mapped nolorn (decodeMap s k) raw.toNat
  let w := match eff with | some e => (if fwd.isSome then e else stagger x e) | none => raw.toNat
  let word := BitVec.ofNat 32 (raw.toNat / 2 ^ 22 * 2 ^ 22 + w % 2 ^ 22)
  let s := setCx (setCore s s.cur { k with issued := false }) { x1 with word := word, op := w / 2 ^ 22 }
  match eff with
  | none => .done (trapWord 0x00 s)
  | some _ =>
    match decode nolorn (!k.supOn) x.hint w with
    | .illegal => .done (trapWord 0x00 s)
    | .hintMisuse => .done (trapWord 0x02 s)
    | .reserved => .done (trapWord 0x01 s)
    | .privileged => .done (trapWord 0x03 s)
    | .ok i =>
      match pendCause x w with
      | some cause => .done (wait cause s)
      | none =>
        match fwd with
        | some f => if leaderOnly (w / 2 ^ 22) then .done (takeResult f s) else .run i s
        | none =>
          match x.role with
          | .detached _ => if leaderOnly (w / 2 ^ 22) && !k.supOn then .done (trapWord 0x09 s) else .run i s
          | _ => .run i s

/-- An instruction breakpoint: its halt, where the port is open, or its trap (R362, R364). -/
def takeBreakpoint (act idx addr : Nat) (s : State) : State :=
  if act = 2 && portOpen s && !(onSup s) then haltUser s.cur 4 idx (spend 8 s) else trapAt 0x51 addr s

/-- Whether the word in issue has had an effect already: it waits for a barrier or for the counter slice, and is at no boundary. -/
def Ctx.midway (x : Ctx) : Bool :=
  match x.waiting with
  | some (.bar _ _) => true
  | some (.commit _) => true
  | some (.tdone _) => true
  | _ => false

/-- A context at a boundary: imprecise causes first, then breakpoints, then the word (R335, R364). -/
def boundary (s : State) : Prep :=
  let x := cx s
  if x.midway then fetchDecode s
  else if x.hint == Hint.none && !x.imprecise.isEmpty then .done (takeImprecise s)
  else
    match (if x.hint == Hint.none && !x.dbg.grace && !x.dbg.ibp.isEmpty then ibpHere s x 3 x.pc else .clear) with
    | .hit act i a => .done (takeBreakpoint act i a s)
    | .later => .done (wait 7 s)
    | .clear => fetchDecode s

/-- Whether some attached follower's queue holds 16 words (R126): the word that it is about to issue among them, and those of the leader's
instruction that are still to be forwarded. -/
def followersFull (s : State) (n : Nat) (l : List Nat) : Bool :=
  l.any fun f =>
    let k := core s f
    match k.user.role with | .attached _ => 16 ≤ k.user.fwdq.length + b2n k.fwd.isSome + n | _ => false

/-- The user context's turn in a chorus, or alone (R126 to R128). -/
def userTurn (s : State) : Prep :=
  let k := curCore s
  match k.user.role with
  | .single => boundary s
  | .detached _ => boundary s
  | .joining _ _ => .done (if k.user.imprecise.isEmpty then wait 7 s else takeImprecise s)
  | .leader fs => if followersFull s k.fwdh.length fs then .done (wait 7 s) else boundary s
  | .attached _ =>
    match k.fwd with
    | some _ => boundary s
    | none =>
      match k.user.fwdq with
      | [] => .done (if k.user.hint == Hint.none && !k.user.imprecise.isEmpty then takeImprecise s else wait 7 s)
      | f :: r =>
        boundary (setCore s s.cur { k with fwd := some f, fwdh := if k.user.hint == Hint.none then [f] else k.fwdh ++ [f]
                                           user := { k.user with fwdq := r, pc := f.pc } })

/-- The turn of the current core's sequencer up to a decoded instruction. -/
def prepare (s : State) : Prep :=
  let s := turn s
  let k := curCore s
  if coreStopped s then .done s
  else
    match k.power with
    | .on =>
      if k.supOn then
        if !supIssues k then .done (idleTurn none s) else
        let x := expireTx k.sup
        if accountsFull s then .done (commitResident s) else boundary (setCore s s.cur { k with sup := x })
      else if userIssues k then
        let x := expireTx k.user
        if accountsFull s then .done (commitResident s) else userTurn (setCore s s.cur { k with user := x })
      else .done (if accountsFull s then commitResident s else idleTurn none s)
    | _ => .done (idleTurn none s)

/-- Control transfers whose outcome a follower evaluates (R127): compare branches, BC, BNC and JR. -/
def evaluated (o : Nat) : Bool := (0x50 ≤ o && o ≤ 0x57) || o == 0x5A

/-- The word forwarded by a leader: its address, where the leader went, and the register whose result a follower takes over where the word
acts only on the leader (R126, R322), by the follower's own table (R138). -/
def forwarded (s0 t : State) (c : Nat) : FwdWord :=
  let x0 := (core s0 c).user
  let x := (core t c).user
  let d := bits x0.word.toNat 21 16
  let late := (tfind x.pend d).isSome
  { word := x0.word, pc := x0.pc, next := x.pc, taken := (core t c).took, needs := if late then some d else none
    res := if late then none else some (reg x d).val }

/-- Puts the words of an instruction behind the queue of each follower that was attached when it issued (R128: those that a JOIN reattaches
do not receive it). -/
def forwardTo (s0 : State) (l : List FwdWord) : List Nat → State → State
  | [], s => s
  | c :: t, s =>
    let k := core s c
    match (core s0 c).user.role with
    | .attached _ => forwardTo s0 l t (setCore s c { k with user := { k.user with fwdq := k.user.fwdq ++ l } })
    | _ => forwardTo s0 l t s

/-- What a leader does with a word that has issued: hint words go to its followers with the word that completes their instruction
(R126, R137), which ends as a whole or not at all. -/
def forward (s0 t : State) (c : Nat) (fs : List Nat) : State :=
  let k := core t c
  let l := k.fwdh ++ [forwarded s0 t c]
  if k.user.hint == Hint.none then forwardTo s0 l fs (setCore t c { k with fwdh := [] }) else setCore t c { k with fwdh := l }

/-- Whether a follower's outcome for a forwarded transfer of control differs from the leader's: taken or not, and the target (R126, R127). -/
def diverges (x0 : Ctx) (k : Core) (f : FwdWord) : Bool := evaluated x0.op && (f.taken != k.took || f.next != k.user.pc)

/-- What follows a word of the user context of core `c`, at `s0`, that is complete at `t`: a leader forwards it, a follower whose outcome
differs detaches, and a step ends (R126, R127, R363). -/
def afterUser (s0 t : State) (c : Nat) : State :=
  let k0 := core s0 c
  let x := (core t c).user
  let t :=
    match k0.user.role with
    | .leader fs => forward s0 t c fs
    | .attached _ =>
      match k0.fwd with
      | some f => if diverges k0.user (core t c) f then setCtxOf t c false x.detach else t
      | none => t
    | _ => t
  if x.dbg.step && x.hint == Hint.none && !x.dbg.halted then haltUser c 2 0 t else t

/-- What follows a word of the context in issue at `s0` that has issued at `t`: a breakpoint may match again (R363), and what follows the
user context's word. -/
def afterIssue (s0 t : State) : State :=
  let c := s0.cur
  if !(core t c).issued then t
  else
    let sup := (core s0 c).supOn
    let x := ctxOf t c sup
    let t := setCtxOf t c sup { x with dbg := { x.dbg with grace := false } }
    if sup then t else afterUser s0 t c

end Sys2Proof.Machine
end

