-- ==== Sys2Proof/Machine/Sync.lean ====
section
/-! DEFINITION. Messages, neighbour ports, tag-matched receives, receive cycles, barriers, fences, forwarding chains and block notices
(R305 to R317, R326). -/

namespace Sys2Proof.Machine

/-! ## Releases (R297) -/

/-- Whether every access that the context in issue has issued has been performed at a scope, those of its engine commands among them. -/
def released (s : State) (scope : Nat) : Bool :=
  let x := cx s
  x.vq.isEmpty && x.mq.isEmpty && x.cq.isEmpty && x.copies.isEmpty && x.fills.isEmpty && x.mstores.isEmpty && quietAll s s.cur (onSup s) scope

/-- A word that releases at a scope (R297): it waits, charged to fence wait. -/
def releasing (scope : Nat) (f : State → Out) (s : State) : Out := if released s scope then f s else .next (wait 22 s)

/-- FENCE (R297, R315). -/
def execFence (n : BitVec 4) (s : State) : Out := releasing n.toNat (fun s => .next (finish s)) s

/-! ## Completing a word that waits -/

/-- A word that waits on core `c` completes with what `f` gives the context: with its cycle where that context is in issue, and with what
follows a word of the user context where the supervisor issues beside it. -/
def completeWord (c : Nat) (sup : Bool) (f : Ctx → Ctx) (s : State) : State :=
  let s1 := setCtxOf s c sup (f (ctxOf s c sup))
  if (core s c).supOn == sup then
    let s0 := { s1 with cur := c }
    let s0 := setCore s0 c { core s0 c with issued := false }
    { afterIssue s0 (finish s0) with cur := s.cur }
  else
    let t := setCtxOf s1 c sup (ctxOf s1 c sup).advance
    if sup then t else afterUser s1 t c

/-! ## Sending (R306, R307) -/

/-- The core that a target field names, in the CORE layout or the Clove form: none for a form that is not legal. -/
def namedCore (clove : Bool) (f : Nat) : Option Nat :=
  if !clove then some f else if bits f 9 5 ≠ 0 ∨ bits f 4 2 = 7 then none else some (cloveCore f)

/-- What the target answers a message before its inbox is looked at (R306): its resident context takes it, or refuses it. -/
def msgCheck (s : State) (m : Msg) : Nat :=
  let k := core s m.target
  match residentOf k with
  | none => 5
  | some sup => if !sup && (k.killing || k.preempt) then 5 else if !tenantOk m.tenant (ctxOf s m.target sup) then 6 else 0

/-- The context that messages to a core reach. -/
def residentSide (s : State) (c : Nat) : Bool := (residentOf (core s c)).getD false

/-- Whether an inbox item takes an entry. -/
def InboxItem.takesEntry : InboxItem → Bool
  | .notice .. => false
  | _ => true

/-- Whether an inbox of a core has room: 16 entries, less those that open groups have reserved (R306, R351). -/
def inboxRoom (s : State) (c : Nat) (sup : Bool) : Bool :=
  decide (((ctxOf s c sup).inbox.filter InboxItem.takesEntry).length + inboxReserved s c < 16)

/-- The user context that awaits a message's status, by its place, and its register: none where nobody does. -/
def Msg.awaits (m : Msg) : Option (Nat × Bool × Nat) :=
  if m.reg < 64 then some (m.src, m.sup, m.reg) else if m.reg = 64 then none else some ((m.reg - 65) / 64, false, (m.reg - 65) % 64)

/-- The status of a SEND reaches its sender (R307), or the area where it is saved. -/
def answerSend (m : Msg) (st : Nat) (s : State) : State :=
  match Msg.awaits m with
  | none => s
  | some (home, sup, n) =>
    onHome home (fun s =>
      let x := ctxOf s home sup
      deliver home sup n (BitVec.ofNat 128 st) (setCtxOf s home sup { x with sends := x.sends - 1 })) s

/-- A message enters an inbox. -/
def acceptMsg (m : Msg) (s : State) : State :=
  answerSend m 0 (notify m.target (residentSide s m.target) (.msg m.payload m.src) s)

/-- Messages that wait at a core's interface enter as room allows, in their order (R306). -/
def admitAll (c : Nat) : List Msg → State → State
  | [], s => setCore s c { core s c with niq := [] }
  | m :: t, s =>
    let st := msgCheck s m
    if st ≠ 0 then admitAll c t (answerSend m st s)
    else if inboxRoom s c (residentSide s c) then admitAll c t (acceptMsg m s)
    else setCore s c { core s c with niq := m :: t }

/-- The messages at a core's interface are looked at again. -/
def letIn (c : Nat) (s : State) : State := if (core s c).niq.isEmpty then s else admitAll c (core s c).niq s

/-- The messages at every interface are looked at again: reservations that ended have freed entries (R306, R353). -/
def letInAll (s : State) : State := (s.cores.filter fun p => !p.2.niq.isEmpty).foldl (fun s p => letIn p.1 s) s

/-- The message that a SEND makes: none where its operands are not legal. -/
def sendMsg (d : Nat) (a : Nat) (payload : Word) (s : State) : Option Msg :=
  match namedCore (bitAt a 15) (bits a 11 0) with
  | some t =>
    if bits a 14 13 ≠ 0 ∨ (!bitAt a 12 ∧ bits a 31 16 ≠ 0) then none
    else some { src := s.cur, sup := onSup s, target := t, payload := payload, tag := bits a 31 16, reg := d, tenant := tenantOf (cx s)
                clock := (die s (dieOf s.cur)).vc, sent := s.tick }
  | none => none

/-- The event that carries a message. -/
def msgEvent (tagged : Bool) (m : Msg) : Event := if tagged then .taggedMessageArrival m else .messageArrival m

/-- What the checks of a staged SEND come to (R351). -/
def stagedSend (s : State) (m : Msg) : Nat :=
  if (core s m.target).mappedOut then 5
  else if msgCheck s m ≠ 0 then msgCheck s m
  else if inboxRoom s m.target (residentSide s m.target) then 0 else 13

/-- SEND to an inbox or for tag matching (R307, R351). -/
def execSend (d a b : BitVec 6) (n : BitVec 4) (s : State) : Out :=
  let m := sendMsg d.toNat (rn s a) (rv s b) s
  let tagged := bitAt (rn s a) 12
  match (cx s).tx with
  | some t =>
    match txBlocked d t s with
    | some t => .next t
    | none =>
      match m with
      | none => .next (stageAct d (.send { src := s.cur, sup := onSup s, target := s.cur, payload := 0, tag := 0, reg := d.toNat,
                                           tenant := none, clock := [] } tagged) 8 0 s)
      | some m => .next (stageAct d (.send m tagged) (stagedSend s m) 0 s)
  | none =>
    releasing n.toNat (fun s =>
      if 8 ≤ (cx s).sends then .next (wait 8 s)
      else
        match m with
        | none => .next (finish (putNat d 8 s))
        | some m =>
          if (core s m.target).mappedOut then .next (finish (putNat d 5 s))
          else
            let s := wakeCore m.target (send (msgEvent tagged m) (pendReg d 8 s))
            .next (finish (setCx s { cx s with sends := (cx s).sends + 1 }))) s

/-- Whether a message under way stands behind an earlier one of its sender to its target (R306), or, between dies, behind an older entry of
its die link, be it a message or an access (R292). -/
def msgBehind (e : Event) (m : Msg) (s : State) : Bool :=
  let d := dieOf m.src
  let h := dieOf m.target
  let alike (q : Msg) : Bool := if d = h then q.src == m.src && q.sup == m.sup && q.target == m.target else onLink d h q
  let first := s.flight.find? fun f => match msgOf f with | some q => alike q | none => false
  !(first == none || first == some e) ||
    (d != h && s.accesses.any fun a => a.stage == .link && a.die == d && destDie s a.dest == h && decide (a.linked < m.sent))

/-- MESSAGE_ARRIVAL (R306): the clock of the sender's die comes with it (R295). -/
def execMessageArrival (m : Msg) (s : State) : Out :=
  if !isCore m.target ∨ !isCore m.src then .next s else
  let e : Event := .messageArrival m
  if msgBehind e m s then .next s
  else if !powered (core s m.target) then .next (wakeCore m.target s)
  else
    let s := mergeClock (dieOf m.target) m.clock (taken e s)
    let k := core s m.target
    .next (admitAll m.target (k.niq ++ [m]) s)

/-! ## Tag-matched messages (R311, R312) -/

/-- Whether a posted receive matches a source and a tag. -/
def Precv.accepts (p : Precv) (src tag : Nat) : Bool := (p.anys || p.src == src) && (p.anyt || p.tag == tag)

/-- A payload is performed at a receive's address, with the clock that its message carried (R295), and the receive completes. -/
def completeRecv (c : Nat) (sup : Bool) (p : Precv) (payload : Word) (src tag : Nat) (clk : List Nat) (s : State) : State :=
  let x := ctxOf s c sup
  let r : State × Nat := match localMap s c sup x p.addr permW false with
    | .ok pl => (setLocationClock pl.loc 16 clk (writePlace src 0 pl (toBytes 16 payload.toNat) s), 0)
    | _ => (s, 8)
  let x := ctxOf r.1 c sup
  setCtxOf r.1 c sup { x with precvs := x.precvs.map fun q => if q.handle = p.handle then { q with done := some (r.2, src, tag) } else q }

/-- A tagged message at its target (R311): matched, queued, or refused with OVERFLOW. -/
def takeTagged (m : Msg) (s : State) : State :=
  let st := msgCheck s m
  if st ≠ 0 then answerSend m st s
  else
    let c := m.target
    let sup := residentSide s c
    let x := ctxOf s c sup
    match x.precvs.find? (fun p => p.done.isNone && p.accepts m.src m.tag) with
    | some p => answerSend m 0 (completeRecv c sup p m.payload m.src m.tag m.clock s)
    | none =>
      if x.tagq.length < 64 then
        answerSend m 0 (setCtxOf s c sup { x with tagq := x.tagq ++ [{ payload := m.payload, src := m.src, tag := m.tag, clock := m.clock }] })
      else
        let v := BitVec.ofNat 128 (coreName m.src)
        answerSend m 17 (raiseImprecise c sup 0x45 v (logFor c x 0x45 true 0xFFFF v s))

/-- TAGGED_MESSAGE_ARRIVAL (R311). -/
def execTaggedMessageArrival (m : Msg) (s : State) : Out :=
  if !isCore m.target ∨ !isCore m.src then .next s else
  let e : Event := .taggedMessageArrival m
  if msgBehind e m s then .next s
  else if !powered (core s m.target) then .next (wakeCore m.target s)
  else .next (takeTagged m (mergeClock (dieOf m.target) m.clock (taken e s)))

/-- The lowest handle that is free. -/
def freeHandle (x : Ctx) : Nat := ((List.range 32).find? fun h => !x.precvs.any (fun p => p.handle == h)).getD 0

/-- Takes the first element that meets a test out of a list. -/
def takeFirst {α : Type} (f : α → Bool) : List α → Option (α × List α)
  | [] => none
  | a :: t => if f a then some (a, t) else (takeFirst f t).map fun r => (r.1, a :: r.2)

/-- PRECV (R311): the overflow queue is searched first. -/
def execPrecv (d a b : BitVec 6) (s : State) : Out :=
  let x := cx s
  let v := rn s a
  let addr := rn s b % 2 ^ 32
  match namedCore (bitAt v 15) (bits v 11 0) with
  | none => .next (finish (putNat d 8 s))
  | some src =>
    if addr % 16 ≠ 0 then .next (finish (putNat d 8 s))
    else if 32 ≤ x.precvs.length then .next (finish (putNat d 13 s))
    else
      let p : Precv := { handle := freeHandle x, src := src, anys := bitAt v 12, tag := bits v 31 16, anyt := bitAt v 32, addr := addr }
      let s := match takeFirst (fun m => p.accepts m.src m.tag) x.tagq with
        | some (m, rest) =>
          completeRecv s.cur (onSup s) p m.payload m.src m.tag m.clock (setCx s { x with precvs := x.precvs ++ [p], tagq := rest })
        | none => setCx s { x with precvs := x.precvs ++ [p] }
      .next (finish (putNat d (fld p.handle 8) s))

/-- The core's name with its Clove bit, as RECV and PROBE report a source (R308, R312). -/
def sourceName (c : Nat) : Nat := fld (coreName c) 8 + fld (b2n (decide (4096 ≤ c && c != nolornCore))) 20

/-- What PROBE reports of a completed receive (R312). -/
def probeWord (r : Nat × Nat × Nat) : Nat := r.1 + sourceName r.2.1 + fld r.2.2 32

/-- PROBE of a handle: reported, ARG, or what an incomplete receive comes to. -/
def probeOf (d a : BitVec 6) (incomplete : Nat → State → Out) (s : State) : Out :=
  let x := cx s
  let h := bits (rn s a) 12 8
  match x.precvs.find? (·.handle == h) with
  | none => .next (finish (putNat d 8 s))
  | some p =>
    match p.done with
    | some r => .next (finish (putNat d (probeWord r) (setCx s { x with precvs := x.precvs.filter fun q => q.handle != h })))
    | none => incomplete h s

/-- PROBE.T (R312). -/
def execProbeT (d a : BitVec 6) (s : State) : Out := probeOf d a (fun _ s => .next (finish (putNat d 16 s))) s

/-- PROBE (R312): its time-out counts %ctime from the first cycle of the wait. -/
def execProbe (d a b : BitVec 6) (s : State) : Out :=
  probeOf d a (fun h s =>
    match (cx s).waiting with
    | some (.probe _ _ _ _ _ _) => .next (wait 15 s)
    | _ => .next (waitIn 15 (.probe d.toNat h (rn s b % 2 ^ 32) (cx s).ctime s.elapsed false) s)) s

/-- A wait's time-out has expired. -/
def expired (x : Ctx) (timeout start : Nat) : Bool := timeout != 0 && decide (start + timeout ≤ x.ctime)

/-- PROBE_TIMEOUT (R312): TIMEOUT, and the handle stays posted. -/
def execProbeTimeout (c : Nat) (s : State) : Out :=
  let s := taken (.probeTimeout c) s
  if !isCore c then .next s else
  let one (sup : Bool) (s : State) : State :=
    let x := ctxOf s c sup
    match x.waiting with
    | some (.probe d h timeout start _ _) =>
      if expired x timeout start && x.precvs.any (fun p => p.handle == h && p.done.isNone) then
        completeWord c sup (fun x => setReg x d { val := 15 }) s
      else s
    | _ => s
  .next (one false (one true s))

/-! ## Inboxes (R308, R326, R339) -/

/-- The payload of an inbox item (R202, R306, R326). -/
def InboxItem.word : InboxItem → Word
  | .msg p _ => p
  | .block p => p
  | .notice kind slot bank src srcSlot cause =>
    BitVec.ofNat 128 (kind + fld (bank % 512) 8 + fld (slot % 64) 24 + fld (src % 4096) 32 + fld (srcSlot % 64) 44 + fld cause 56)

/-- The header of an inbox item (R308). -/
def InboxItem.header : InboxItem → Nat
  | .msg _ src => sourceName src
  | .block _ => 4
  | .notice kind _ _ _ _ _ => kind

/-- Taking a block notice lets the next rank of its block be delivered (R326). -/
def takeBlock (c : Nat) (payload : Word) (s : State) : State :=
  let i := (c - 4096) / 4
  let block := wbits payload 31 0
  let q : Bq := tget s.mgmt.bq i {}
  let v := tget q.open_ block 0 / 2 * 2
  let q := { q with open_ := if v / 2 = q.p then tdel q.open_ block else tset q.open_ block v }
  { s with mgmt := { s.mgmt with bq := tset s.mgmt.bq i q } }

/-- What taking an item does beside its payload: an arriving entry becomes attached (R202). -/
def takeItem (c : Nat) (sup : Bool) (i : InboxItem) (s : State) : State :=
  match i with
  | .msg _ _ => s
  | .block p => takeBlock c p s
  | .notice kind slot bank _ _ _ =>
    let e := entry (ctxOf s c sup) slot
    if kind ≠ 2 ∧ e.valid ∧ e.st = 2 ∧ e.bank = bank then putEntry c sup slot { e with st := 0 } s else s

/-- RECV of the oldest item, where there is one. -/
def recvItem (d h : BitVec 6) (empty : State → Out) (s : State) : Out :=
  let x := cx s
  match x.inbox with
  | [] => empty s
  | i :: r =>
    let s := takeItem s.cur (onSup s) i (setCx s { x with inbox := r })
    .next (finish (putNat h i.header (putWord d i.word (letIn s.cur s))))

/-- RECV (R308): its time-out counts %ctime from the first cycle of the wait. -/
def execRecv (d a b : BitVec 6) (s : State) : Out :=
  recvItem d a (fun s =>
    match (cx s).waiting with
    | some (.recv _ _ _ _) => .next (wait 15 s)
    | _ => .next (waitIn 15 (.recv d.toNat a.toNat (rn s b % 2 ^ 32) (cx s).ctime) s)) s

/-- RECV.T (R308). -/
def execRecvT (d a : BitVec 6) (s : State) : Out := recvItem d a (fun s => .next (finish (putNat a 0xFF (putWord d 0 s)))) s

/-- RECV_TIMEOUT (R308). -/
def execRecvTimeout (c : Nat) (s : State) : Out :=
  let s := taken (.recvTimeout c) s
  if !isCore c then .next s else
  let one (sup : Bool) (s : State) : State :=
    let x := ctxOf s c sup
    match x.waiting with
    | some (.recv d h timeout start) =>
      if expired x timeout start && x.inbox.isEmpty then
        completeWord c sup (fun x => setReg (setReg x d {}) h { val := 0xFE }) s
      else s
    | _ => s
  .next (one false (one true s))

/-- IDLE (R339): inside a group it is misuse (R350). -/
def execIdle (s : State) : Out :=
  if (cx s).tx.isSome then .next (trapWord 0x0A s)
  else if (cx s).inbox.isEmpty then .next (wait 15 s) else .next (finish s)

/-! ## Neighbour ports (R309, R310) -/

/-- A wait on a neighbour port: one toward another neighbour than before is a new wait. -/
def portWait (port : Nat) (s : State) : State :=
  match neighbour s.cur port with
  | none => wait 16 s
  | some t =>
    match (cx s).waiting with
    | some (.port u since told) => waitIn 16 (if u = t then .port u since told else .port t s.elapsed false) s
    | _ => waitIn 16 (.port t s.elapsed false) s

/-- A word goes out through a port of the core in issue. -/
def portSend (port : Nat) (w : Word) (s : State) : State :=
  match neighbour s.cur port with
  | some t => send (.portWordArrival t ((port + 2) % 4) w) s
  | none => s

/-- The port form of SEND (R310): inside a group it is misuse (R350). -/
def execSendPort (a b : BitVec 6) (s : State) : Out :=
  if (cx s).tx.isSome then .next (trapWord 0x0A s)
  else if portAccepts s s.cur a.toNat then .next (finish (portSend a.toNat (rv s b) s)) else .next (portWait a.toNat s)

/-- Pops the oldest word of a port queue. -/
def popPort (port : Nat) (f : Word → State → Out) (s : State) : Out :=
  let x := cx s
  match tget x.ports port [] with
  | [] => .next (portWait port s)
  | w :: r => f w (setCx s { x with ports := if r.isEmpty then tdel x.ports port else tset x.ports port r })

/-- RECV from a port (R310). -/
def execRecvPort (d b : BitVec 6) (s : State) : Out := popPort b.toNat (fun w s => .next (finish (putWord d w s))) s

/-- RECV.F (R310): it issues only when the other port accepts a word too. -/
def execRecvF (d a b : BitVec 6) (s : State) : Out :=
  if !(tget (cx s).ports b.toNat []).isEmpty && !portAccepts s s.cur a.toNat then .next (portWait a.toNat s)
  else popPort b.toNat (fun w s => .next (finish (putWord d w (portSend a.toNat w s)))) s

/-- PORT_WORD_ARRIVAL (R309): words on one port arrive in the order written. -/
def execPortWordArrival (c port : Nat) (w : Word) (s : State) : Out :=
  if 4096 ≤ c ∨ 4 ≤ port then .next s else
  let e : Event := .portWordArrival c port w
  let first := s.flight.find? fun f => match f with | .portWordArrival c' p' _ => c' == c && p' == port | _ => false
  if !(first == none || first == some e) then .next s
  else
    let s := taken e s
    match residentOf (core s c) with
    | none => .next s
    | some sup =>
      let x := ctxOf s c sup
      .next (setCtxOf s c sup { x with ports := tset x.ports port (tget x.ports port [] ++ [w]) })

/-! ## Receive cycles (R313) -/

/-- The edge of the context that issues on a core, with when its wait began and whether a cycle with it has been reported. -/
def waitEdge (s : State) (c : Nat) : Option (Nat × Nat × Bool) :=
  let x := ctxOf s c (core s c).supOn
  match x.waiting with
  | some (.port t since told) => some (t, since, told)
  | some (.probe _ h _ _ since told) =>
    match x.precvs.find? (·.handle == h) with
    | some p => if p.anys || p.done.isSome then none else some (p.src, since, told)
    | none => none
  | _ => none

/-- The cores on the way along the edges from `c` back to `origin`, within the die. -/
def edgePath (s : State) (origin : Nat) : Nat → Nat → Option (List Nat)
  | 0, _ => none
  | fuel + 1, c =>
    match waitEdge s c with
    | none => none
    | some (t, _, _) =>
      if dieOf t ≠ dieOf origin then none
      else if t = origin then some [c] else (edgePath s origin fuel t).map (c :: ·)

/-- Whether a core's wait has lasted 2^16 cycles on an edge. -/
def longWait (s : State) (c : Nat) : Bool :=
  match waitEdge s c with
  | some (_, since, told) => !told && decide (since + 65536 ≤ s.elapsed)
  | none => false

/-- The cycle that a probe from a core proves. -/
def cycleOf (s : State) (c : Nat) : Option (List Nat) := if longWait s c then edgePath s c 1100 c else none

/-- WAIT_FOR_PROBE (R313): a probe that returns proves a cycle. -/
def execWaitForProbe (c : Nat) (s : State) : Out :=
  let s := taken (.waitForProbe c) s
  if !isCore c then .next s else
  match cycleOf s c with
  | some l => .next (if s.flight.contains (.receiveCycle l) then s else send (.receiveCycle l) s)
  | none => .next s

/-- A wait whose cycle has been reported. -/
def Waiting.reported : Waiting → Waiting
  | .port t since _ => .port t since true
  | .probe d h timeout start since _ => .probe d h timeout start since true
  | w => w

/-- Marks the wait of a core as reported. -/
def markReported (s : State) (c : Nat) : State :=
  let sup := (core s c).supOn
  let x := ctxOf s c sup
  setCtxOf s c sup { x with waiting := x.waiting.map Waiting.reported }

/-- RECEIVE_CYCLE (R313): one record, in the domain of the participant on the lowest-numbered core. How the record lists the participants is
not laid down: its VAL is a free value of them. -/
def execReceiveCycle (cores : List Nat) (s : State) : Out :=
  let s := taken (.receiveCycle cores) s
  match cores with
  | [] => .next s
  | o :: _ =>
    if cores.any (fun c => !isCore c) then .next s
    else if cycleOf s o ≠ some cores then .next s
    else
      let low := cores.foldl Nat.min o
      let x := ctxOf s low (core s low).supOn
      let val := Config.cycleVal (cores.map fun c => (c, (ctxOf s c (core s c).supOn).pc))
      .next (logFor low x 0x64 false x.pc val (cores.foldl markReported s))

/-! ## Barriers (R314) -/

/-- The barriers of each scope. -/
def barrierCount (sc : Nat) : Nat := match sc with | 0 => 4 | 1 => 8 | _ => 16

/-- The name of a barrier: its scope, the issuer's quad, group or cluster, and its number. -/
def barrierKey (c sc id : Nat) : Nat := ((sc * 4096 + (if sc = 0 then c / 4 else if sc = 1 then c / 16 else c / 64)) * 16) + id

/-- The arrival of a BAR whose operands are legal and whose release is done. -/
def arriveAt (d : BitVec 6) (key n : Nat) (s : State) : State :=
  let me := (s.cur, onSup s)
  let region := rcbOf (cx s)
  match tfind s.barriers key with
  | none =>
    let s := { s with barriers := tset s.barriers key { n := n, region := region, arrived := [me], released := n == 1 } }
    waitIn 17 (.bar key d.toNat) (if n = 1 then send (.barrierLeave key) s else s)
  | some b =>
    if b.released then wait 17 s
    else if b.n ≠ n ∨ b.region ≠ region then finish (putNat d 14 s)
    else
      let full := b.arrived.length + 1 == n
      let s := { s with barriers := tset s.barriers key { b with arrived := b.arrived ++ [me], released := full } }
      waitIn 17 (.bar key d.toNat) (if full then send (.barrierLeave key) s else s)

/-- BAR (R314): inside a group it is misuse (R350). -/
def execBar (d a : BitVec 6) (s : State) : Out :=
  let v := rn s a
  let sc := bits v 1 0
  let id := bits v 5 2
  let n := bits v 14 8
  if (cx s).tx.isSome then .next (trapWord 0x0A s)
  else
    match (cx s).waiting with
    | some (.bar _ _) => .next (wait 17 s)
    | _ =>
      if sc = 3 ∨ barrierCount sc ≤ id ∨ n = 0 ∨ 64 < n ∨ (clusterOf s.cur).isNone then .next (finish (putNat d 8 s))
      else releasing (sc + 1) (fun s => .next (arriveAt d (barrierKey s.cur sc id) n s)) s

/-- The participants leave, each with its index. -/
def leaveAll (key : Nat) : Nat → List (Nat × Bool) → State → State
  | _, [], s => s
  | i, (c, sup) :: t, s =>
    let s := match (ctxOf s c sup).waiting with
      | some (.bar k d) => if k = key then completeWord c sup (fun x => setReg x d { val := BitVec.ofNat 128 (fld i 16) }) s else s
      | _ => s
    leaveAll key (i + 1) t s

/-- BARRIER_LEAVE (R314): the barrier is then free for a new episode. -/
def execBarrierLeave (key : Nat) (s : State) : Out :=
  let s := taken (.barrierLeave key) s
  match tfind s.barriers key with
  | some b => if b.released then .next (leaveAll key 0 b.arrived { s with barriers := tdel s.barriers key }) else .next s
  | none => .next s

/-- A context that is saved or killed withdraws its arrival. -/
def withdraw (c : Nat) (sup : Bool) (s : State) : State :=
  match (ctxOf s c sup).waiting with
  | some (.bar key _) =>
    match tfind s.barriers key with
    | some b =>
      if b.released then s
      else
        let l := b.arrived.filter (· != (c, sup))
        { s with barriers := if l.isEmpty then tdel s.barriers key else tset s.barriers key { b with arrived := l } }
    | none => s
  | _ => s

/-! ## Forwarding chains (R316, R317) -/

/-- Whether a length is a multiple of 128 from 128 to 2^21. -/
def chainLen (n : Nat) : Bool := n % 128 == 0 && decide (128 ≤ n) && decide (n ≤ 2 ^ 21)

/-- FOLLOW (R316): inside a group it is misuse (R350). -/
def execFollow (d a b : BitVec 6) (s : State) : Out :=
  let x := cx s
  let v := rn s a
  let addr := bits v 31 0
  let len := bits v 63 32
  let bar := bits (rn s b) 17 16
  if x.tx.isSome then .next (trapWord 0x0A s)
  else if addr % 128 ≠ 0 ∨ !chainLen len ∨ bar = 0 then .next (finish (putNat d 8 s))
  else if 4 ≤ x.resv.length then .next (finish (putNat d 13 s))
  else
    .next (finish (putNat d 0 (setCx s { x with resv := x.resv ++ [{ addr := addr, len := len, tag := bits (rn s b) 15 0, bar := bar }] })))

/-- The halfwords of a chain list. -/
def halfwords : Nat → List Byte → List Nat
  | 0, _ => []
  | n + 1, b => ofBytes (b.take 2) :: halfwords n (b.drop 2)

/-- The lines of a tile, as they go to the first member. -/
def chainLines (l : ChainLine) : Nat → Nat → List Byte → List ChainLine
  | 0, _, _ => []
  | n + 1, off, b => { l with off := off, bytes := b.take 128, last := n == 0 } :: chainLines l n (off + 128) (b.drop 128)

/-- LEAD (R317): inside a group it is misuse (R350). -/
def execLead (d a b : BitVec 6) (s : State) : Out :=
  let x := cx s
  let c := s.cur
  let sup := onSup s
  let v := rn s a
  let src := bits v 31 0
  let len := bits v 63 32
  let list := bits (rn s b) 31 0
  let m := bits (rn s b) 35 32
  if x.tx.isSome then .next (trapWord 0x0A s)
  else if src % 128 ≠ 0 ∨ !chainLen len ∨ m = 0 then .next (finish (putNat d 8 s))
  else if list % 2 ≠ 0 then .next (trapAt 0x10 list s)
  else
    match spanOf s c sup x permR true list (2 * m) with
    | .bad cause va => .next (trapLocal cause va s)
    | .wait => .next (wait 8 s)
    | .ok p =>
      let members := halfwords m (runBytes s p)
      if members.contains c || !members.Nodup then .next (finish (putNat d 8 s))
      else if members.any (fun k => clusterOf k != clusterOf c) then .next (finish (putNat d 1 s))
      else
        match spanOf s c sup x permR true src len with
        | .bad cause va => .next (trapLocal cause va s)
        | .wait => .next (wait 8 s)
        | .ok q =>
          releasing 3 (fun s =>
            let l : ChainLine := { lead := c, sup := sup, reg := d.toNat, tag := bits v 79 64, len := len, off := 0, bytes := [],
                                   members := members, index := 0, failed := none, last := false }
            let lines := chainLines l (len / 128) 0 (runBytes s q)
            let s := { s with flight := s.flight ++ lines.map Event.chainLineArrival }
            .next (finish (pendReg d 8 s))) s

/-- A line goes on to the next member, or the leader learns what became of the chain. -/
def passLine (l : ChainLine) (ok : Bool) (s : State) : State :=
  let failed := if ok then l.failed else if l.failed.isSome then l.failed else some l.index
  match l.members.tail with
  | [] =>
    if l.last ∧ l.reg ≠ 64 then
      deliver l.lead l.sup l.reg (BitVec.ofNat 128 (match failed with | some i => 20 + fld i 8 | none => 0)) s
    else s
  | t => send (.chainLineArrival { l with members := t, index := l.index + 1, failed := failed }) s

/-- The reservation that a line meets: the one its chain has taken, or on the first line one that has the tag. -/
def lineMeets (l : ChainLine) (r : Resv) : Bool :=
  if l.off = 0 then r.tag == l.tag && r.chain.isNone else r.chain == some (l.lead, l.sup) && r.tag == l.tag

/-- A line at a member that holds a reservation for it: performed through the member's table. A line that the table refuses ends the
reservation. -/
def performLine (l : ChainLine) (c : Nat) (sup : Bool) (r : Resv) (rest : List Resv) (s : State) : State :=
  let x := ctxOf s c sup
  let done (s : State) : State := let x := ctxOf s c sup; setCtxOf s c sup { x with resv := rest }
  if r.len < l.len then passLine l false (done s)
  else
    match spanOf s c sup x permW false (r.addr + l.off) 128 with
    | .ok p =>
      let s := addBarrier c sup r.bar 128 (writeRuns l.lead 0 p l.bytes s)
      let x := ctxOf s c sup
      passLine l true (if l.last then done s else setCtxOf s c sup { x with resv := { r with chain := some (l.lead, l.sup) } :: rest })
    | _ => passLine l false (done s)

/-- CHAIN_LINE_ARRIVAL (R317): the lines of a chain come to a member in order; the first waits for a reservation. A member that is being
saved is resident until it is (R152); one that is being killed takes no line (R356). -/
def execChainLineArrival (l : ChainLine) (s : State) : Out :=
  let e : Event := .chainLineArrival l
  let first := s.flight.find? fun f => match f with
    | .chainLineArrival q => q.lead == l.lead && q.sup == l.sup && q.members.head? == l.members.head?
    | _ => false
  if l.members.any (fun c => !isCore c) then .next s
  else if !(first == none || first == some e) then .next s
  else
    match l.members with
    | [] => .next (taken e s)
    | c :: _ =>
      let k := core s c
      match residentOf k with
      | none => .next (passLine l false (taken e s))
      | some sup =>
        if !sup && k.killing then .next (passLine l false (taken e s))
        else
          match takeFirst (lineMeets l) (ctxOf s c sup).resv with
          | some (r, rest) => .next (performLine l c sup r rest (taken e s))
          | none => .next (if l.off = 0 then s else passLine l false (taken e s))

/-! ## Chorus (R126) and block notices (R326) -/

/-- FORWARDED_WORD_ISSUE (R126): the follower takes the word, and its sequencer is the next to move. -/
def execForwardedWordIssue (c : Nat) (s : State) : Out :=
  let s := taken (.forwardedWordIssue c) s
  if !isCore c then .next s else
  let k := core s c
  match k.user.role, k.fwd, k.user.fwdq with
  | .attached _, none, f :: r =>
    if userIssues k && powered k && !k.supOn then
      .next { setCore s c { k with fwd := some f, user := { k.user with fwdq := r, pc := f.pc } } with cur := c, order := [] }
    else .next s
  | _, _, _ => .next s

/-- The payload of a block notice. -/
def blockWord (addr p rank block : Nat) : Word := BitVec.ofNat 128 (block % 2 ^ 32 + fld (rank % 65536) 32 + fld (p % 65536) 48 + fld (addr % 2 ^ 32) 64)

/-- BLOCK_NOTICE_ARRIVAL (R326, R378): the contribution is written to the core's memory, and its notice follows, in rank order; while the
link retrains, its flits wait (R382). -/
def execBlockNoticeArrival (b : BlockNotice) (s : State) : Out :=
  if 4 ≤ b.die ∨ 7 ≤ b.link then .next s else
  let e : Event := .blockNoticeArrival b
  let i := 7 * b.die + b.link
  let q : Bq := tget s.mgmt.bq i {}
  let c := 4096 + 28 * b.die + 4 * b.link + b.block % 4
  let sup := residentSide s c
  let v := tget q.open_ b.block 0
  let later := if s.flight.contains e then s else send e s
  if q.p ≤ b.rank then .next (taken e s)
  else if 3 ≤ b.link && (tget s.mgmt.links (4 * b.die + (b.link - 3)) {}).retraining then .next later
  else if v ≠ 2 * b.rank ∨ (residentOf (core s c)).isNone ∨ !inboxRoom s c sup then .next later
  else
    let size := 2 ^ (q.bs + 7)
    let addr := (q.base + b.rank % 4 * size) % 2 ^ 32
    let s := taken e s
    let s := match spanOf s c sup (ctxOf s c sup) permW false addr size with
      | .ok p => writeRuns c 3 p (b.bytes.take size) s
      | _ => s
    let s := { s with mgmt := { s.mgmt with bq := tset s.mgmt.bq i { q with open_ := tset q.open_ b.block (v + 3) } } }
    .next (notify c sup (.block (blockWord addr q.p b.rank b.block)) s)

end Sys2Proof.Machine
end

