-- ==== Sys2Proof/Machine/Task.lean ====
section
/-! DEFINITION. The task and tolerance instructions (R319 to R325), and what the counter slice does for them: decrements, retirement,
retention and re-demands, spawning, cancelling, and the actions of fault handlers (R95 to R99, R107, R109, R110, R321, R342). -/

namespace Sys2Proof.Machine

/-! ## TDEM, TERR, TQRY (R323, R324) -/

/-- TDEM (R323). -/
def execTdem (d a b : BitVec 6) (n : BitVec 4) (s : State) : Out :=
  let x := rn s a
  let y := rn s b
  .next (finish (putNat d (match n.toNat with
    | 0 => inputShare (x % 256) (bits y 15 8) (signed 8 (y % 256))
    | 1 => ownShare (x % 256) (bits y 15 8)
    | _ => Nat.max (x % 256) (y % 256)) s))

/-- The code of a measured error (R323). -/
def errCode (x q : FV) : Nat := if x.isNan || x.isInf || q.isNan || q.isInf then 0 else measureErr [x] [q]

/-- TERR (R323). -/
def execTerr (d a b : BitVec 6) (n : BitVec 4) (s : State) : Out :=
  .next (finish (putNat d (match n.toNat with
    | 0 => b2n (meets (rn s a % 256) (rn s b % 256))
    | _ => errCode (scalarVal 0 (rn s a)) (scalarVal 0 (rn s b))) s))

/-- What TQRY makes of a segment's header and tail (R324): the reserved bits of FLAGS are ignored (R42). -/
def tqryWord (h : SegHead) (head tail : List Byte) : Nat :=
  let scale := fld ((head.getD 1 0).toNat) 8
  match h with
  | .z => 31 + scale
  | _ => (head.getD 0 0).toNat + scale + fld ((tail.getD 0 0).toNat) 16 + fld ((tail.getD 1 0).toNat % 8) 24

/-- TQRY (R324). -/
def execTqry (d a : BitVec 6) (w : Bool) (s : State) : Out :=
  let va := rn s a % 2 ^ 32
  if va % (if w then 64 else 256) ≠ 0 then .next (trapAt 0x10 va s)
  else
    match localMap s s.cur (onSup s) (cx s) va permR true with
    | .bad cause => .next (trapLocal cause va s)
    | .wait => .next (wait 8 s)
    | .ok p =>
      watched 0 permR va 2 (watched 0 permR (va + 62) 2 fun s =>
        let l := placeBytes s p 64
        match segHead w ((l.getD 0 0).toNat) ((l.getD 1 0).toNat) with
        | .malformed => .next (trapCmd 0x41 s)
        | h => .next (finish (putNat d (tqryWord h (l.take 2) (l.drop 62)) s))) s

/-! ## Retention and re-demands (R95 to R99, R325) -/

/-- The entry of a node's input. -/
def inputOf (l : Launch) (node i : Nat) : Option SensIn := (nodeOf l node).bind fun n => (sensOf l.tpl n).ins[i]?

/-- The names of the successor instances of an instance. -/
def successors (l : Launch) (r : InstRef) : List InstRef := ((nodeOf l r.node).map (·.succs)).getD [] |>.map fun j => { r with node := j }

/-- Whether every successor instance of an instance has retired (R95): one that is to run again has. -/
def succsRetired (s : State) (l : Launch) (r : InstRef) : Bool :=
  (successors l r).all fun q => match inst s q with | some i => i.st == .retired || i.rearmed | none => true

/-- A retention entry is released once every successor instance has retired (R95). -/
def releaseEntry (l : Launch) (s : State) (r : InstRef) : State :=
  if succsRetired s l r then onInst r (fun i => if i.rearmed then i else { i with held := false }) s else s

/-- The entries of an instance's predecessors are looked at again. -/
def releasePreds (l : Launch) (r : InstRef) (s : State) : State :=
  let preds := (List.range l.tpl.nodes.length).filter fun i => (((nodeOf l i).map (·.succs)).getD []).contains r.node
  preds.foldl (fun s i => releaseEntry l s { r with node := i }) s

/-- A waiting TRED is answered: its instance and rank (R325). -/
def answerTred (r : InstRef) (rank st : Nat) (s : State) : State := onInst r (fun i => { i with tred := tset i.tred rank st }) s

/-- Waiting re-demands are answered. -/
def answerAll (r : InstRef) (st : Nat) : List (Nat × Nat × Bool) → State → State
  | [], s => s
  | (node, rank, _) :: t, s => answerAll r st t (answerTred { r with node := node } rank st s)

/-- Raises the demand of an output. -/
def Inst.raise (o c : Nat) (i : Inst) : Inst := { i with demand := i.demand.set o (Nat.max (i.demand.getD o 0) c) }

/-- An instance is armed to run again (R96). -/
def Inst.rearm (now : Nat) (i : Inst) : Inst := { i.toReady now with rearmed := true, reruns := i.reruns + 1, waited := 0, starved := false, disp := 0, resid := 0 }

/-- The producer's inputs count as still existing (R95). -/
def keeps (l : Launch) (p : Nat) : Bool := match nodeOf l p with | some n => (sensOf l.tpl n).ins.all (·.keep) | none => false

/-- What a re-demand comes to at the slice (R96): a status at once, or the producer's new state, with the consumer waiting. -/
def redemandOf (s : State) (r : RedemandReq) (l : Launch) (w : SensIn) : Nat × Option Inst :=
  match inst s { r.consumer with node := w.srcnode } with
  | none => (2, none)
  | some p =>
    let wait (later : Bool) (p : Inst) : Inst := { p with waiters := p.waiters ++ [(r.consumer.node, r.rank, later)] }
    if r.code ≤ p.demand.getD w.srcout 0 then (1, none)
    else if p.rearmed then
      if p.st == .ready then (255, some (wait false (p.raise w.srcout r.code)))
      else (255, some (wait true { p with requeue := p.requeue ++ [(w.srcout, r.code)] }))
    else if !p.held then (2, none)
    else if !keeps l w.srcnode then (3, none)
    else if 7 ≤ p.reruns then (4, none)
    else (255, some (wait false ((p.raise w.srcout r.code).rearm s.elapsed)))

/-- REDEMAND (R96). -/
def execRedemand (r : RedemandReq) (s : State) : Out :=
  let e : Event := .redemand r
  let t := taken e s
  match launch s r.consumer.die r.consumer.launch with
  | none => .next t
  | some l =>
    match inputOf l r.consumer.node r.input with
    | none => .next (answerTred r.consumer r.rank 5 t)
    | some w =>
      if !w.srcv then .next (answerTred r.consumer r.rank 5 t)
      else
        match redemandOf s r l w with
        | (_, some p) =>
          let q := writeDemand l p s
          if q.2 then .next (onInst p.ref (fun _ => p) (taken e q.1)) else .next (send e (taken e q.1))
        | (st, none) => .next (answerTred r.consumer r.rank st t)

/-- The share of input `i` in %share. -/
def shareField (x : Ctx) (i : Nat) : Nat := bits x.share (8 * i + 7) (8 * i)

/-- TRED has its status (R97, R325): an unmet one traps under UPOL, and one that is met raises the share. -/
def endTred (d : BitVec 6) (i c st : Nat) (upol : Bool) (s : State) : State :=
  if upol ∧ 2 ≤ st then trapAt 0x44 st s
  else
    let x := cx s
    let x := if st < 2 then { x with share := setBits x.share (8 * i + 7) (8 * i) (Nat.max (shareField x i) c) } else x
    finish (putNat d (st + fld (shareField x i) 8) (setCx s x))

/-- TRED (R325): inside a group it is misuse (R350). -/
def execTred (d a b : BitVec 6) (s : State) : Out :=
  let x := cx s
  let i := bits (rn s a) 2 0
  let c := bits (rn s b) 7 0
  if x.tx.isSome then .next (trapWord 0x0A s)
  else
    match x.inst.bind fun r => (inst s r).bind fun q => (launch s r.die r.launch).map fun l => (r, q, l) with
    | none => .next (endTred d i c 5 false s)
    | some (r, q, l) =>
      let e := (nodeOf l r.node).map (sensOf l.tpl)
      let upol := (e.map (·.upol)).getD false
      if ((e.map (·.ins.length)).getD 0) ≤ i then .next (endTred d i c 5 upol s)
      else
        match tfind q.tred x.rank with
        | none => .next (wait 19 (answerTred r x.rank 255 (send (.redemand ⟨r, x.rank, i, c⟩) s)))
        | some 255 => .next (wait 19 s)
        | some st => .next (endTred d i c st upol (onInst r (fun q => { q with tred := tdel q.tred x.rank }) s))

/-! ## TDEC (R320) -/

/-- The instance of the context in issue, with its launch and node, where Saffron dispatched it. -/
def ownInst (s : State) : Option (Inst × Launch × Node) :=
  (cx s).inst.bind fun r => (inst s r).bind fun i => (launch s r.die r.launch).bind fun l => (nodeOf l r.node).map fun n => (i, l, n)

/-- The statuses of TDEC before the slice decrements: 0 where it is to decrement. -/
def tdecStatus (o : Option (Inst × Launch × Node)) (j : Nat) : Nat :=
  match o with
  | none => 8
  | some (i, _, n) => if n.succs.length ≤ j then 8 else if i.decd.contains j || i.rearmed then 18 else 0

/-- TDEC (R320, R351): inside a group it is checked at the commit. -/
def execTdec (d a : BitVec 6) (s : State) : Out :=
  let j := bits (rn s a) 11 0
  match (cx s).tx with
  | some t =>
    match txBlocked d t s with
    | some t => .next t
    | none => .next (stageAct d (.tdec j) 0 0 s)
  | none =>
    releasing 5 (fun s =>
      match tdecStatus (ownInst s) j, ownInst s with
      | 0, some (i, _, n) =>
        let s := onInst i.ref (fun i => { i with decd := j :: i.decd }) s
        let r : DecReq := { target := { i.ref with node := n.succs.getD j 0 }, byNode := i.ref.node, core := s.cur, pc := (cx s).pc, reg := some d.toNat }
        .next (finish (pendReg d 19 (send (.dependenceDecrement r) s)))
      | st, _ => .next (finish (putNat d st s))) s

/-- DEPENDENCE_DECREMENT (R110, R320). -/
def execDependenceDecrement (r : DecReq) (s : State) : Out :=
  if !isCore r.core then .next s else
  let s := taken (.dependenceDecrement r) s
  let q := decrement r.target r.byNode true r.core r.pc s
  match r.reg with
  | some n => .next (deliver r.core false n (if q.2 then 19 else 0) q.1)
  | none => .next q.1

/-! ## TSPAWN (R109, R319) -/

/-- Whether the page that an expansion waits for has failed (R71). -/
def spawnFailed (s : State) (d : Nat) (r : SpawnReq) (region : Option Snapshot) : Option (Snapshot × Nat) :=
  match region, r.asked with
  | some g, some v => if pageFailed s d g v then some (g, v) else none
  | _, _ => none

/-- The expansion of a TSPAWN: its result word, or the request as it waits for a page; one whose page has failed is refused (R71). -/
def expandSpawn (r : SpawnReq) (s : State) : State × (Nat ⊕ SpawnReq) :=
  let x := ctxOf s r.core r.sup
  let d := dieOf r.core
  match spawnFailed s d r x.region with
  | some (g, v) => (forgetPage d g v s, .inl 7)
  | none =>
  let s := spawnLoads d r x.region s
  match spawnRes s d r x.region ((x.inst.map (·.launch)).getD 0) (bits x.demand 39 32) with
  | .refuse st => (s, .inl st)
  | .ok l is => (admitLaunch d l is s, .inl (fld l.id 16 + fld is.length 32))
  | .page st2 a v =>
    match x.region with
    | some g => (saffronPage d g st2 a v false (forgetPage d g v s), .inr { r with asked := some v })
    | none => (s, .inl 3)

/-- TSPAWN_EXPANSION (R109, R329, R330). -/
def execTspawnExpansion (r : SpawnReq) (s : State) : Out :=
  if !isCore r.core then .next s else
  let s := taken (.tspawnExpansion r) s
  match expandSpawn r s with
  | (s, .inl v) => .next (deliver r.core r.sup r.reg (BitVec.ofNat 128 v) s)
  | (s, .inr r) => .next (send (.tspawnExpansion r) s)

/-- The request that TSPAWN makes. -/
def spawnReq (d a b : BitVec 6) (s : State) : SpawnReq :=
  let v := rn s a
  let w := rn s b
  { core := s.cur, sup := onSup s, reg := d.toNat, tpl := bits v 51 0, dst := bits v 115 64, rcs := bits w 51 0, node := bits w 63 52, cnt := bits w 76 64 }

/-- TSPAWN (R319, R351). -/
def execTspawn (d a b : BitVec 6) (s : State) : Out :=
  match (cx s).tx with
  | some t =>
    match txBlocked d t s with
    | some t => .next t
    | none => .next (stageAct d (.tspawn (spawnReq d a b s)) 0 0 s)
  | none => releasing 5 (fun s => .next (finish (pendReg d 19 (send (.tspawnExpansion (spawnReq d a b s)) s)))) s

/-! ## The end of a user context -/

/-- A message's sender moves from one place to another, or ends. -/
def rehomeMsg (src : Nat) (dst : Option Nat) (m : Msg) : Msg :=
  match Msg.awaits m with
  | some (h, false, n) => if h = src then { m with reg := match dst with | some d => 65 + 64 * d + n | none => 64 } else m
  | _ => m

/-- A user context moves from one place to another (a core, or a save area), or ends: where the answers of its messages go. -/
def rehome (src : Nat) (dst : Option Nat) : Event → Event
  | .messageArrival m => .messageArrival (rehomeMsg src dst m)
  | .taggedMessageArrival m => .taggedMessageArrival (rehomeMsg src dst m)
  | .msndAccept r => .msndAccept (if r.src = src ∧ !r.sup then (match dst with | some d => { r with src := d } | none => { r with pc := 65536 }) else r)
  | e => e

/-- The answers to a user context go elsewhere, or nowhere. -/
def rehomeAll (src : Nat) (dst : Option Nat) (s : State) : State :=
  { s with flight := s.flight.map (rehome src dst)
           cores := s.cores.map fun p => (p.1, { p.2 with niq := p.2.niq.map (rehomeMsg src dst) }) }

/-- What an event still owes to a user context that ends: nothing awaits it any more. -/
def forgetEvent (c : Nat) : Event → Event
  | .dependenceDecrement r => .dependenceDecrement (if r.core = c then { r with reg := none } else r)
  | .chainLineArrival l => .chainLineArrival (if l.lead = c ∧ !l.sup then { l with reg := 64 } else l)
  | e => e

/-- Whether an event is a request of a user context that ends with it, or a port word on its way to it. -/
def endsWith (c : Nat) : Event → Bool
  | .tspawnExpansion r => r.core == c && !r.sup
  | .portWordArrival c' _ _ => c' == c
  | .txCommit c' => c' == c
  | .tdoneCommit c' => c' == c
  | _ => false

/-- Nothing under way belongs to the user context of a core any more: its accesses are dropped, its answers go nowhere. -/
def detachUser (c : Nat) (s : State) : State :=
  let s := rehomeAll c none s
  let s := { s with flight := (s.flight.filter fun e => !endsWith c e || (e == .txCommit c && (core s c).sup.midway)).map (forgetEvent c)
                    accesses := s.accesses.filter fun a => !(a.core == c && !a.sup) }
  loseReservations c (withdraw c false s)

/-- The walks and page requests that the user context of a core waits for: it will ask again where it still needs them. -/
def dropWaits (c : Nat) (s : State) : State :=
  { s with
    walks := s.walks.map fun w => { w with misses := w.misses.filter (·.core != c) }
    funcs := s.funcs.map fun p => (p.1, { p.2 with prq := p.2.prq.map fun q => { q with waits := q.waits.filter fun w => !(w.core == c && w.eng != 4) } }) }

/-- A record of the trace encoder reaches its buffer, or is dropped (R371): the header is that of R341. -/
def writeTrace (buf : Nat) (r : BitVec 64) (s : State) : State × Bool :=
  let base := bits buf 49 12 * 4096
  let cap := (2 ^ (bits buf 55 52 + 12) - 64) / 8
  let wr := homeRead s base 8
  if base = 0 then (s, false)
  else if (wr + 2 ^ 64 - homeRead s (base + 8) 8) % 2 ^ 64 < cap then
    (homeWriteNat (homeWriteNat s (base + 64 + 8 * (wr % cap)) 8 r.toNat) base 8 ((wr + 1) % 2 ^ 64), true)
  else (homeWriteNat s (base + 16) 4 (Nat.min (2 ^ 32 - 1) (homeRead s (base + 16) 4 + 1)), false)

/-- The encoder's records of a context are written, its runs among them: the context leaves its core. -/
def flushTrace (c : Nat) (sup : Bool) (s : State) : State :=
  let x := ctxOf s c sup
  let d := x.dbg.endRuns (ctxOf s c (!sup)).dbg.enc.length
  let s := lostToCtx c x (bits d.trbuf 49 12 * 4096) d.enc.length s
  let r := d.enc.foldl (fun (p : State × Nat) r => let q := writeTrace d.trbuf r p.1; (q.1, if q.2 then p.2 else p.2 + 1)) (s, d.trdrop)
  let x := ctxOf r.1 c sup
  setCtxOf r.1 c sup { x with dbg := { d with enc := [], trdrop := Nat.min (2 ^ 32 - 1) r.2 } }

/-- The place of the user context is free again: what MSND has sent to it is refused (R290), and a pre-emption was its own (R118). -/
def emptyUser (c : Nat) (s : State) : State :=
  let s := settle c (refuseMsnds c (dropWaits c s))
  let s := { s with flight := s.flight.filter (· != .preemption c) }
  let k := core s c
  let s := setCore s c { k with user := {}, uload := false, udisp := false, pendT := false, killing := false, killImp := false, preempt := false, fwd := none, fwdh := [],
                                umap := false, walkFail := none }
  markIdle c (letIn c s)

/-- The user context of a core is gone: the core is idle, or its supervisor runs on. -/
def clearUser (c : Nat) (s : State) : State := emptyUser c (detachUser c (flushTrace c false s))

/-- One VALID entry is disposed of by its RPOL in this step (R203 step 4, R321): an heir answers at once. -/
def disposeNow (c slot : Nat) (s : State) : State :=
  let x := (core s c).user
  let e := entry x slot
  if !e.valid then putEntry c false slot {} s
  else if e.rpol = 1 then
    let r := handReq 1 c false slot e (c / 64 * 64 + e.hcore) e.hslot 0 x
    let st := handCheck s r true
    if st = 0 then revokeNotices (c / 64) e.bank 1 c slot (some (r.target, false)) (handAccept r s) else settleBank c slot true st 1 false s
  else settleBank c slot (e.rpol == 2) 0 1 false s

/-- Every entry of a table is disposed of. -/
def disposeTable (c : Nat) : Nat → Nat → State → State
  | 0, _, s => s
  | n + 1, slot, s => disposeTable c n (slot + 1) (disposeNow c slot s)

/-! ## Parking (R321) -/

/-- Whether a slot is parked already for an instance. -/
def parkedAt (s : State) (i : InstRef) (slot : Nat) : Bool := s.banks.any fun p => p.2.cond == .parked i slot

/-- One entry of a retiring context: parked under the mask, or disposed of, with a record where parking is refused. -/
def parkEntry (c mask slot : Nat) (i : InstRef) (succs : List Nat) (s : State) : State :=
  let x := (core s c).user
  let e := entry x slot
  if !e.valid ∨ !bitAt mask slot then disposeNow c slot s
  else
    let target : InstRef := { i with node := succs.getD e.hcore 0 }
    let why := if e.cls = 1 then 1 else if succs.length ≤ e.hcore then 2 else if parkedAt s target e.hslot then 3 else 0
    if why ≠ 0 then
      let val := BitVec.ofNat 128 (e.bank + fld slot 16 + fld e.rpol 24 + fld why 32)
      disposeNow c slot (logFor c x 0x65 false x.pc val s)
    else
      let gb := bankOf c e.bank
      let b := bankAt s gb
      let s := setBank s gb { b with cond := .parked target e.hslot, holders := [], charge := b.charge, cls := e.cls, perm := e.perm }
      putEntry c false slot {} s

/-- Every entry of a retiring context. -/
def parkTable (c mask : Nat) (i : InstRef) (succs : List Nat) : Nat → Nat → State → State
  | 0, _, s => s
  | n + 1, slot, s => parkTable c mask i succs n (slot + 1) (parkEntry c mask slot i succs s)

/-- The banks parked for an instance return to the pool: it will not run. -/
def unpark (i : InstRef) (s : State) : State :=
  s.banks.foldl (fun s p => match p.2.cond with | .parked j _ => if j = i then returnBank p.1 s else s | _ => s) s

/-! ## Fairness (R113) -/

/-- DEFICIT of a region. -/
def deficit (s : State) (rcb : Nat) : Int := signed 40 (bits (homeRead s (rcb + 80) 8) 63 24)

/-- Writes DEFICIT of a region, held to its field. -/
def setDeficit (rcb : Nat) (v : Int) (s : State) : State :=
  let v := if v < -2 ^ 39 then -2 ^ 39 else if 2 ^ 39 ≤ v then 2 ^ 39 - 1 else v
  lostToMgmt rcb 256 (homeWriteNat s (rcb + 80) 8 (setBits (homeRead s (rcb + 80) 8) 63 24 (wrap 40 v)))

/-- An instance has ended on its cores: its region's DEFICIT settles. -/
def settleDeficit (rcb resid : Nat) (s : State) : State := setDeficit rcb (deficit s rcb + 1024 - resid) s

/-! ## Retirement (R321) -/

/-- Each successor edge that has not been decremented is decremented. -/
def decrementAll (i : Inst) (c : Nat) : Nat → List Nat → State → State
  | _, [], s => s
  | j, n :: t, s =>
    decrementAll i c (j + 1) t (if i.decd.contains j then s else (decrement { i.ref with node := n } i.ref.node false c 0xFFFF s).1)

/-- A retiring re-run (R96): its waiting re-demands are done, its entry is held again (R95), and a further re-arm that is queued takes
effect, in its demand word too: where that cannot be written yet, a sweep writes it before the instance is dispatched (R87). -/
def endRerun (i : Inst) (l : Launch) (s : State) : State :=
  let s := answerAll i.ref 0 (i.waiters.filter fun w => !w.2.2) s
  let later := (i.waiters.filter fun w => w.2.2).map fun w => (w.1, w.2.1, false)
  let base : Inst := { i with st := .retired, rearmed := false, waiters := later, requeue := [], cores := [] }
  if i.requeue.isEmpty then releaseEntry l (onInst i.ref (fun _ => base) s) i.ref
  else
    let j := (i.requeue.foldl (fun j p => j.raise p.1 p.2) base).rearm s.elapsed
    let q := writeDemand l j s
    let s := onInst i.ref (fun _ => { j with word := q.2 }) q.1
    if q.2 then s else send (.demandSweep i.ref.die l.id) s

/-- An instance retires, its last member having ended. -/
def retire (i : Inst) (l : Launch) (n : Node) (c : Nat) (s : State) : State :=
  let s := settleDeficit l.snap.rcb i.resid s
  if i.rearmed then endRerun i l s
  else
    let s := decrementAll i c 0 n.succs s
    let s := onInst i.ref (fun i => { i with st := .retired, held := n.retain, cores := [] }) s
    let s := onLaunch i.ref.die l.id (fun l => { l with retired := l.retired + 1 }) s
    releasePreds l i.ref (releaseEntry l s i.ref)

/-- An attached follower ends with its leader's TDONE (R128). -/
def endFollower (s : State) (f : Nat) : State :=
  clearUser f (commitAccounts f false none (disposeTable f 64 0 s))

/-- The followers of a context, attached or not. -/
def followersOf (x : Ctx) : List Nat := match x.role with | .leader fs => fs | _ => []

/-! ## Cancelling (R107) and the actions of handlers (R342) -/

/-- The banks of a saved context are dealt with by their policies (R203 step 4), in one step, for core `c` of their cluster. -/
def disposeSaved (c a : Nat) (x : Ctx) (s : State) (slot : Nat) : State :=
  let e := entry x slot
  if !e.valid then s
  else
    let gb := bankOf c e.bank
    let rcb := rcbOf x
    let s := dropHolder gb (areaKey a) s
    let last := (bankAt s gb).holders.isEmpty
    let r := { handReq 4 c false slot e (c / 64 * 64 + e.hcore) e.hslot 0 x with rcb := rcb }
    let st := if e.rpol = 1 then handCheck s r true else 1
    let heir := e.rpol = 1 ∧ st = 0
    let q : State × Bool :=
      if heir then (handAccept r s, false)
      else if !last then (s, false)
      else if e.rpol = 0 then (returnBank gb s, false)
      else holdBank c gb slot e.cls e.perm rcb s
    let s := revokeNotices (c / 64) e.bank 0 c slot (if heir then some (r.target, false) else none) q.1
    logFor c x 0x61 false 0xFFFF (revokeVal (q.2 || (e.rpol == 1 && st != 0)) (if e.rpol = 1 then st else 0) e.rpol slot e.bank) s

/-- A suspended context is killed (R340): its banks are dealt with, ACCT + 784 is raised by the member first killed, the record is written,
that of a re-run with it, and its area is free again. `val`: VAL of the record. -/
def killSaved (cause : Nat) (val : Word) (rerun : Bool) (d a : Nat) (s : State) : State :=
  let s := { s with flight := s.flight.filter fun e => match e with | .contextRestore _ b => b != a | _ => true }
  match tfind s.areas a with
  | none => s
  | some (c, x) =>
    let s := (List.range 64).foldl (disposeSaved c a x) s
    let s := match x.region with | some g => if cause = 0x6D ∨ g.acct = 0 then s else homeAdd64 s (g.acct + 784) 1 | none => s
    let s := logFor c x cause false x.pc val s
    let s := rehomeAll (savedCore a) none (if rerun && cause != 0x6D then logFor c x 0x6A false x.pc 0 s else s)
    let y := die s d
    setDie { s with areas := tdel s.areas a } d { y with areas := y.areas ++ [a] }

/-- An instance that is being placed is abandoned: what its cores were given returns to the pool, and no start message reaches them. -/
def abandonCore (s : State) (c : Nat) : State :=
  let k := core s c
  match k.start with
  | some t =>
    let s := setCore { s with flight := s.flight.filter (· != .startMessage c) } c { k with start := none }
    match t.ctx with
    | some x => x.attach.foldl (fun s p => if p.2.valid then returnBank (bankOf c p.2.bank) (dropHolder (bankOf c p.2.bank) (holderKey c false) s) else s) s
    | none => s
  | none => s

/-- An instance is counted as faulted, unless it was a re-run, which is counted only in the accounts (R104). -/
def countFault (i : Inst) (s : State) : State :=
  if i.rearmed then s else onLaunch i.ref.die i.ref.launch (fun l => { l with faulted := l.faulted + 1 }) s

/-- An instance becomes FAULTED (R340 step 6); a killed re-run completes its waiting re-demands with FAULTED (R96). -/
def faultInst (r : InstRef) (s : State) : State :=
  match inst s r with
  | none => s
  | some i =>
    let s := answerAll r 6 i.waiters (countFault i s)
    unpark r (onInst r (fun i => { i with st := if i.rearmed then .retired else .faulted, rearmed := false, held := false, waiters := [], requeue := []
                                          cores := [], areas := [] }) s)

/-- An instance that has not run is discarded. -/
def discardInst (r : InstRef) (s : State) : State :=
  match inst s r with
  | none => s
  | some i =>
    if i.rearmed then faultInst r s
    else
      unpark r (onLaunch r.die r.launch (fun l => { l with discarded := l.discarded + 1 })
        (onInst r (fun i => { i with st := .discarded, cores := [] }) s))

/-- Every member of a running instance is to be killed: the others take 0x6D when the first one's kill is done (R340). -/
def killInst (cause : Nat) (i : Inst) (s : State) : State :=
  match i.cores with
  | c :: _ => beginKill c cause false (core s c).user.pc 0 s
  | [] => s

/-- A suspended instance is killed: each member's area is dealt with; the records of the others name the core of the first (R340). -/
def killSuspended (cause : Nat) (i : Inst) (s : State) : State :=
  let s := match i.areas with
    | a :: t =>
      let first := match tfind s.areas a with | some p => BitVec.ofNat 128 (coreName p.1) | none => 0
      t.foldl (fun s b => killSaved 0x6D first false i.ref.die b s) (killSaved cause 0 i.rearmed i.ref.die a s)
    | [] => s
  let l := launch s i.ref.die i.ref.launch
  let s := match l with | some l => settleDeficit l.snap.rcb i.resid s | none => s
  faultInst i.ref s

/-- A suspended instance that is on its way back to cores is killed: the members still saved, and those that are loaded already. -/
def killResuming (i : Inst) (s : State) : State :=
  match i.cores.filter fun c => (core s c).uload with
  | [] => killSuspended 0x68 i s
  | l =>
    let s := i.areas.foldl (fun s a => killSaved 0x6D (BitVec.ofNat 128 (coreName (l.headD 0))) false i.ref.die a s) s
    killInst 0x68 { i with cores := l } (onInst i.ref (fun i => { i with cores := l, areas := [] }) s)

/-- What CANCEL does to an instance (R107). A suspended one that is being placed again is killed as a suspended one (DEDUCED, entry 110). -/
def cancelInst (s : State) (i : Inst) : State :=
  let s := onInst i.ref (fun i => { i with held := false }) s
  match i.st with
  | .waiting => discardInst i.ref s
  | .ready => discardInst i.ref s
  | .placing =>
    if i.areas.isEmpty then discardInst i.ref (i.cores.foldl abandonCore s) else killResuming i s
  | .blocked => faultInst i.ref s
  | .running => killInst 0x68 i s
  | .suspended => killSuspended 0x68 i s
  | _ => s

/-- A launch is cancelled at the slice. -/
def cancelLaunch (d id : Nat) (s : State) : State :=
  let s := onLaunch d id (fun l => { l with cancelled := true }) s
  endLaunch d id ((instsOf s d id).foldl cancelInst s)

/-- What a handler's ACTION does to the instance that its record names (R342). -/
def takeAction (rec_ : Nat) (s : State) : State :=
  let id := bits rec_ 143 128
  let r : InstRef := ⟨bits rec_ 167 166, id, bits rec_ 155 144, bits rec_ 127 96⟩
  match inst s r with
  | none => s
  | some i =>
    match bits rec_ 191 184, i.st with
    | 1, .blocked => endLaunch r.die id (faultInst r s)
    | 2, .blocked => onInst r (Inst.toReady s.elapsed) s
    | 3, .running => killInst 0x67 i s
    | 3, .suspended => endLaunch r.die id (killSuspended 0x67 i s)
    | 4, _ => cancelLaunch r.die id s
    | _, _ => s

/-- The ACTIONs of `n` records of a log from number `k` on. -/
def takeActions (base slots : Nat) : Nat → Nat → State → State
  | 0, _, s => s
  | n + 1, k, s => takeActions base slots n (k + 1) (takeAction (homeRead s (base + 64 * (1 + k % (slots - 1))) 64) s)

/-- A handler has ended (R342): at its TDONE the records below its WR are read; its domain starts another where WR has passed it. -/
def endHandler (d flog wr : Nat) (done : Bool) (s : State) : State :=
  let m : Option Domain := tfind (die s 0).domains flog
  match m with
  | none => s
  | some m =>
    let s := lostToMgmt flog 64 s
    let s := if done then takeActions flog (m.snap.flogn * 64) (wr - m.read) m.read s else s
    let x := die s 0
    let m := { m with running := false, read := if done then wr else m.read }
    let s := setDie s 0 { x with domains := tset x.domains flog m }
    if m.covered < homeRead s flog 8 then send (.faultHandlerStart d flog) s else s

/-! ## TDONE (R128, R321) -/

/-- Whether a context's commands and copies are complete, its accesses performed at package scope, and its hand-overs answered. -/
def taskQuiet (s : State) (c : Nat) (sup : Bool) : Bool :=
  let x := ctxOf s c sup
  !enginesBusy x && quietAll s c sup 5 && !(x.attach.any fun p => p.2.valid && p.2.st == 1) && !s.flight.any (handAsked c sup)

/-- Whether a follower that is attached, or that a JOIN at `y` reattaches, has no words or work left (R128). -/
def followerQuiet (s : State) (y f : Nat) : Bool :=
  let k := core s f
  match k.user.role with
  | .attached _ => k.fwd.isNone && k.user.fwdq.isEmpty && taskQuiet s f false
  | .joining _ a => a != y || taskQuiet s f false
  | _ => true

/-- TDONE (R321): the supervisor becomes idle; a user context waits for its work, and then for the slice. -/
def execTdone (a : BitVec 6) (s : State) : Out :=
  let x := cx s
  let c := s.cur
  if x.tx.isSome then .next (trapWord 0x0A s)
  else if onSup s then
    if !taskQuiet s c true then .next (wait 22 s)
    else
      let s := commitAccounts c true none (spend (issueCause x) s)
      let k := core s c
      .next (markIdle c (setCore s c { k with supOn := false, issued := true, sup := { k.sup with hint := .none, waiting := none } }))
  else
    match x.waiting with
    | some (.tdone _) => .next (wait 19 s)
    | _ =>
      let mask := rn s a % 2 ^ 64
      let go (s : State) : Out := .next (waitIn 19 (.tdone mask) (send (.tdoneCommit c) s))
      match x.role with
      | .detached _ => .next (trapWord 0x09 s)
      | .joining _ _ => .next (wait 7 s)
      | .attached _ => if taskQuiet s c false then .next (finish s) else .next (wait 22 s)
      | .leader fs =>
        if followersAway s fs then .next (wait 7 s)
        else if taskQuiet s c false && fs.all (followerQuiet s x.pc) then go (joinAll x.pc fs s) else .next (wait 22 s)
      | .single => if taskQuiet s c false then go s else .next (wait 22 s)

/-- The areas that were taken for an instance return to their die. -/
def dropAreas (r : InstRef) (s : State) : State :=
  match inst s r with
  | some i =>
    let x := die s r.die
    onInst r (fun i => { i with areas := [] }) (setDie s r.die { x with areas := x.areas ++ i.areas })
  | none => s

/-- The commit of a context that Saffron dispatched: its table, its accounts, and with its last member the instance (R321). Followers that a
trap holds when the leader's JOIN has issued end with it as the attached ones do: R128 says nothing of them (DESIGN CHOICE, entry 125). -/
def commitMember (c mask : Nat) (i : Inst) (l : Launch) (n : Node) (s : State) : State :=
  let fs := followersOf (core s c).user
  let s := if i.rearmed then disposeTable c 64 0 s else parkTable c mask i.ref n.succs 64 0 s
  let s := fs.foldl (fun s f => onInst i.ref (fun i => { i with resid := i.resid + (core s f).user.resident }) s) s
  let s := fs.foldl endFollower s
  let last := (i.cores.filter fun k => k != c && !fs.contains k).isEmpty
  let s := onInst i.ref (fun i => { i with cores := i.cores.filter fun k => k != c && !fs.contains k
                                           resid := i.resid + (core s c).user.resident }) s
  let s := commitAccounts c false (if last then some (if i.rearmed then 1 else 0) else none) s
  let stopping := (core s c).preempt || s.flight.contains (.preemption c)
  let s := clearUser c s
  match inst s i.ref with
  | some j =>
    if last then endLaunch i.ref.die l.id (retire j l n c (dropAreas i.ref s))
    else if stopping then send (.preemption (j.cores.headD c)) s
    else s
  | none => s

/-- TDONE_COMMIT (R321). -/
def execTdoneCommit (c : Nat) (s : State) : Out :=
  let s := taken (.tdoneCommit c) s
  if !isCore c then .next s else
  let k := core s c
  match k.user.waiting with
  | some (.tdone mask) =>
    if !k.uload ∨ k.killing then .next s
    else
      let s := spendOn c (some 2) none none s
      match k.user.handler with
      | some flog =>
        let wr := k.user.instN
        .next (endHandler (dieOf c) flog wr true (clearUser c (commitAccounts c false none (disposeTable c 64 0 s))))
      | none =>
        match k.user.inst.bind fun r => (inst s r).bind fun i => (launch s r.die r.launch).bind fun l => (nodeOf l r.node).map fun n => (i, l, n) with
        | some (i, l, n) => .next (commitMember c mask i l n s)
        | none => .next (clearUser c (commitAccounts c false none (disposeTable c 64 0 s)))
  | _ => .next s

end Sys2Proof.Machine
end

