-- ==== Sys2Proof/Machine/Tx.lean ====
section
/-! DEFINITION. Control transactions (R350 to R353): TXB, TXC, TXA, and the commit at the counter slice. -/

namespace Sys2Proof.Machine

/-- TXB (R350): a second one is misuse. -/
def execTxb (s : State) : Out :=
  let x := cx s
  if x.tx.isSome then .next (trapWord 0x0A s) else .next (finish (setCx s { x with tx := some { since := x.ctime } }))

/-- TXA (R353): the group is closed at once; with none open it is misuse. -/
def execTxa (s : State) : Out :=
  let x := cx s
  if x.tx.isNone then .next (trapWord 0x0A s) else .next (finish (setCx s { x with tx := none }))

/-- TXC (R352): waits for its release at package scope, and then for the slice. -/
def execTxc (d : BitVec 6) (n : Bool) (s : State) : Out :=
  let x := cx s
  match x.tx, x.waiting with
  | none, _ => .next (trapWord 0x0A s)
  | some _, some (.commit _) => .next (wait 19 s)
  | some t, _ =>
    releasing 5 (fun s =>
      .next (waitIn 19 (.commit d.toNat) (send (.txCommit s.cur) (setCx s { cx s with tx := some { t with accounts := n } })))) s

/-! ## Applying one action (R351, R352) -/

/-- What an action comes to at the commit: its result word and the state, or a wait for a page. -/
inductive ActRes where
  | done (word : Nat) (s : State)
  | wait (kind : TxKind) (s : State)

/-- An ATT at the commit: the bank is the one that was reserved. -/
def applyAtt (c : Nat) (sup : Bool) (req bank : Nat) (s : State) : ActRes :=
  let r := attCheck s c sup req bank
  let e := entry (ctxOf s c sup) (bits req 5 0)
  if bits req 7 6 = 0 then
    if e.valid ∨ e.st ≠ 0 then .done (statusWord 2 bank) s
    else .done (statusWord 0 bank) (attApply c sup req ⟨0, bank, { hslot := bits req 27 22, hcore := bits req 21 16, rpol := bits req 15 14, perm := bits req 11 8,
                                                                   valid := true, cls := bits req 13 12, bank := bank }⟩ s)
  else if r.status = 0 then .done (statusWord 0 r.bank) (attApply c sup req r s) else .done (statusWord r.status r.bank) s

/-- A DET at the commit. -/
def applyDet (c : Nat) (sup : Bool) (slot : Nat) (s : State) : ActRes :=
  let e := entry (ctxOf s c sup) slot
  if e.valid then .done (statusWord 0 e.bank) (endAttachment c sup slot 1 s)
  else if e.st = 1 then .done (statusWord 0 e.bank) (putEntry c sup slot {} s)
  else .done (statusWord 10 0) s

/-- A HAND at the commit: one whose bank the supervisor has revoked meanwhile finds its slot empty. -/
def applyHand (r : HandReq) (s : State) : ActRes :=
  let st := if sourceHolds s r && (sourceEntry s r).st == 0 then handCheck s r true else 10
  .done (statusWord st r.bank) (if st = 0 then handAccept r s else s)

/-- A SEND at the commit: the message is delivered in this step. -/
def applySend (m : Msg) (tagged : Bool) (s : State) : ActRes :=
  let m := { m with reg := 64, clock := (die s (dieOf m.src)).vc }
  let st := msgCheck s m
  let side := residentSide s m.target
  if st ≠ 0 then .done st s
  else if tagged then
    let x := ctxOf s m.target side
    if (x.precvs.any fun p => p.done.isNone && p.accepts m.src m.tag) || decide (x.tagq.length < 64) then
      .done 0 (takeTagged m (mergeClock (dieOf m.target) m.clock s))
    else .done 17 s
  else if inboxRoom s m.target side then .done 0 (acceptMsg m (mergeClock (dieOf m.target) m.clock s))
  else .done 13 s

/-- A TDEC at the commit: checked there. `pc`: the address of the word that staged it, for the record of what it starts (R395). -/
def applyTdec (c j pc : Nat) (s : State) : ActRes :=
  let o := (core s c).user.inst.bind fun r => (inst s r).bind fun i => (launch s r.die r.launch).bind fun l => (nodeOf l r.node).map fun n => (i, l, n)
  match tdecStatus o j, o with
  | 0, some (i, _, n) =>
    let s := onInst i.ref (fun i => { i with decd := j :: i.decd }) s
    let q := decrement { i.ref with node := n.succs.getD j 0 } i.ref.node true c pc s
    .done (if q.2 then 19 else 0) q.1
  | st, _ => .done st s

/-- A TSPAWN at the commit: checked there. -/
def applySpawn (r : SpawnReq) (s : State) : ActRes :=
  match expandSpawn r s with
  | (s, .inl v) => .done v s
  | (s, .inr r) => .wait (.tspawn r) s

/-- One action at the commit. -/
def applyAct (c : Nat) (sup : Bool) (a : TxAct) (s : State) : ActRes :=
  match a.kind with
  | .att req bank => applyAtt c sup req bank s
  | .det slot => applyDet c sup slot s
  | .hand r => applyHand r s
  | .send m tagged => applySend m tagged s
  | .tdec j => if sup then .done 8 s else applyTdec c j a.pc s
  | .tspawn r => applySpawn r s

/-- Whether a result word's status is one of an action that was done: OK, or ZERO. -/
def actDone (word : Nat) : Bool := word % 256 == 0 || word % 256 == 19

/-- What a group comes to: all its results, the first refusal (index and word), or a wait for a page, which action `ix` is to remember. The
last two hold the state that the actions came to, for what Saffron keeps of it (R71). -/
inductive TxRes where
  | commit (words : List Nat) (s : State)
  | refuse (ix word : Nat) (s : State)
  | wait (ix : Nat) (kind : TxKind) (s : State)

/-- The actions in staging order. -/
def applyAll (c : Nat) (sup : Bool) : Nat → List TxAct → List Nat → State → TxRes
  | _, [], ws, s => .commit ws s
  | i, a :: t, ws, s =>
    match applyAct c sup a s with
    | .wait k s => .wait i k s
    | .done w s => if actDone w then applyAll c sup (i + 1) t (ws ++ [w]) s else .refuse i w s

/-! ## Results (R352) -/

/-- TXC's own result. -/
def txcWord (status cause ix st n : Nat) : Nat := status + fld cause 8 + fld (ix % 8) 16 + fld (st % 256) 24 + fld n 32

/-- Writes the actions' registers. -/
def writeActs : List TxAct → List Nat → Ctx → Ctx
  | a :: t, w :: r, x => writeActs t r (setReg x a.reg { val := BitVec.ofNat 128 w })
  | _, _, x => x

/-- The words of an aborted group: each its refusal, or ABORTED. `late`: one that the slice refused. -/
def abortWords (late : Option (Nat × Nat)) : Nat → List TxAct → List Nat
  | _, [] => []
  | i, a :: t =>
    (match late with
      | some (j, w) => if i = j then w else statusWord 22 a.bank
      | none => statusWord (if a.status = 0 then 22 else a.status) a.bank) :: abortWords late (i + 1) t

/-- The group is closed with its results: TXC completes. -/
def closeTx (c : Nat) (sup : Bool) (d : Nat) (t : Tx) (words : List Nat) (own : Nat) (s : State) : State :=
  completeWord c sup (fun x => setReg (writeActs t.acts words { x with tx := none }) d { val := BitVec.ofNat 128 own }) s

/-- The index and the status of the first action that was refused at its staging. -/
def firstRefused : Nat → List TxAct → Option (Nat × Nat)
  | _, [] => none
  | i, a :: t => if a.status = 0 then firstRefused (i + 1) t else some (i, a.status)

/-- Whether a message of a context to a core is still on its way, or waits there: a staged one follows it (R306). -/
def sentBefore (s : State) (c : Nat) (sup : Bool) (target : Nat) : Bool :=
  let mine (m : Msg) : Bool := m.src == c && m.sup == sup && m.target == target
  ((core s target).niq.any mine) || s.flight.any fun e => match e with | .messageArrival m => mine m | .taggedMessageArrival m => mine m | _ => false

/-- Whether a group's messages have to wait for earlier ones of its context. -/
def sendsWait (s : State) (c : Nat) (sup : Bool) (t : Tx) : Bool :=
  t.acts.any fun a => a.status == 0 && (match a.kind with | .send m _ => sentBefore s c sup m.target | _ => false)

/-- What Saffron keeps of a group that has no effect yet, or none at all (R71): page requests and their answers, and loaded templates. `q`: the
state that its actions came to. -/
def saffronKept (c : Nat) (q s : State) : State :=
  let dn := dieOf c
  setDie { s with funcs := q.funcs } dn { die s dn with pageFail := (die q dn).pageFail, templates := (die q dn).templates }

/-- Whether the bank that a staged ATT has reserved can be attached no more: it has gone out of service, or become common, since (R187). -/
def attLost (s : State) (c : Nat) (a : TxAct) : Bool :=
  a.status == 0 && (match a.kind with
    | .att req b => bits req 7 6 == 0 && ((bankAt s (bankOf c b)).cond != .free || !attachable s (c / 64) b)
    | _ => false)

/-- Whether a staged DET's slot is being handed over by a REVK: it waits for the answer (R198). -/
def slotAsked (x : Ctx) (a : TxAct) : Bool :=
  a.status == 0 && (match a.kind with | .det slot => (entry x slot).valid && ((entry x slot).st == 1 || (entry x slot).st == 3) | _ => false)

/-- A group waits at the slice for a page that a TSPAWN needs. -/
def holdTx (c : Nat) (sup : Bool) (t : Tx) (ix : Nat) (kind : TxKind) (q s : State) : State :=
  let s := saffronKept c q s
  let acts := t.acts.mapIdx fun i a => if i = ix then { a with kind := kind } else a
  send (.txCommit c) (setCtxOf s c sup { ctxOf s c sup with tx := some { t with acts := acts } })

/-- The group of a context at the slice. -/
def commitTx (c : Nat) (sup : Bool) (d : Nat) (t : Tx) (s : State) : State :=
  let n := t.acts.length
  let first := firstRefused 0 t.acts
  let cause := if t.abort ≠ 0 then t.abort else if first.isSome then 1 else if t.acts.any (attLost s c) then 2 else 0
  let free := setCtxOf s c sup { ctxOf s c sup with tx := none }
  if cause ≠ 0 then
    closeTx c sup d t (abortWords none 0 t.acts) (txcWord 22 cause ((first.map (·.1)).getD 0) ((first.map (·.2)).getD 0) n) s
  else if sendsWait s c sup t || t.acts.any (slotAsked (ctxOf s c sup)) then send (.txCommit c) s
  else
    match applyAll c sup 0 t.acts [] free with
    | .wait ix k q => holdTx c sup t ix k q s
    | .refuse i w q => closeTx c sup d t (abortWords (some (i, w)) 0 t.acts) (txcWord 22 1 i w n) (saffronKept c q s)
    | .commit ws q => closeTx c sup d t ws (txcWord 0 0 0 0 n) (if t.accounts then commitAccounts c sup none q else q)

/-- TX_COMMIT (R352): the group commits or aborts in one step. -/
def execTxCommit (c : Nat) (s : State) : Out :=
  let s := taken (.txCommit c) s
  if !isCore c then .next s else
  let k := core s c
  match k.sup.waiting, k.sup.tx, k.user.waiting, k.user.tx with
  | some (.commit d), some t, _, _ => .next (commitTx c true d t s)
  | _, _, some (.commit d), some t => .next (commitTx c false d t s)
  | _, _, _, _ => .next s

/-- TX_TIMEOUT (R353). -/
def execTxTimeout (c : Nat) (s : State) : Out :=
  let s := taken (.txTimeout c) s
  if !isCore c then .next s else
  let k := core s c
  .next (setCore s c { k with user := expireTx k.user, sup := expireTx k.sup })

end Sys2Proof.Machine
end

