-- ==== Sys2Proof/Machine/System.lean ====
section
/-! DEFINITION. Special registers (R148 to R150, R156, R334, R361 to R372, R386, R387), TRAP and TRET (R337, R338). -/

namespace Sys2Proof.Machine

/-! ## Who may read and write (R148) -/

/-- Special numbers that only the supervisor reads. -/
def readsSup (h : Nat) : Bool :=
  (0x30 ≤ h && h ≤ 0x32) || (0x100 ≤ h && h ≤ 0x108) || (0x204 ≤ h && h ≤ 0x20F) || h == 0x214 || 0x300 ≤ h

/-- Special numbers that only the supervisor writes. -/
def writesSup (h : Nat) : Bool :=
  h == 0 || (0x30 ≤ h && h ≤ 0x32) || ((0x100 ≤ h && h ≤ 0x108) && h != 0x104) || h == 0x200 || h == 0x202 ||
    (0x204 ≤ h && h ≤ 0x214) || h == 0x300 || h == 0x310

/-- Special numbers that nothing writes. -/
def readOnly (h : Nat) : Bool :=
  (0x10 ≤ h && h ≤ 0x1A) || h == 0x20 || h == 0x21 || h == 0x23 || h == 0x28 || h == 0x104 || h == 0x201 || (0x220 ≤ h && h ≤ 0x22F) ||
    h == 0x231 || h == 0x301 || (0x304 ≤ h && h ≤ 0x30B) || h == 0x312 || h == 0x313

/-- Whether an access of a context to a special register is privileged (R148): a write where either column names the supervisor only. -/
def specialPrivileged (write : Bool) (h : Nat) : Bool := readsSup h || (write && writesSup h)

/-! ## Reading -/

/-- %coreid (R148). -/
def coreId (c : Nat) : Nat :=
  if c < 4096 then c else if c = nolornCore then 0x4000 else 0x8000 + fld ((c - 4096) / 28) 10 + fld ((c - 4096) / 4 % 7) 2 + c % 4

/-- A counter of a table. -/
def counter (t : AList Nat) (sel : Nat) : Nat := tget t (32 * bits sel 6 5 + bits sel 4 0) 0

/-- The counter that a value of %acsel selects on a core (R156). `own`: the counters of its resident context. -/
def selected (k : Core) (own : AList Nat) (sel : Nat) : Nat :=
  match bits sel 8 7 with
  | 0 => counter own sel % 2 ^ 48
  | 1 => counter k.idle sel % 2 ^ 64
  | _ => counter k.supAcct sel % 2 ^ 64

/-- %acval (R156): the counter that %acsel selects, as it stands now. -/
def acval (s : State) (sel : Nat) : Nat :=
  let k := core (settle s.cur s) s.cur
  selected k (match residentOf k with | some sup => (if sup then k.sup else k.user).acct | none => []) sel

/-- %tstat (R334). -/
def tstat (k : Core) : Nat :=
  b2n k.pendT + fld (b2n k.spend) 1 + fld (b2n k.uload) 2 + fld (b2n k.udisp) 3 + fld (b2n k.user.tx.isSome) 4 +
    fld (b2n (match k.user.tx with | some t => t.abort != 0 | none => false)) 5

/-- %dbgsts (R363). -/
def dbgsts (x : Ctx) : Nat :=
  x.dbg.reason + fld x.dbg.idx 4 + fld (b2n x.dbg.halted) 8 + fld (if x.hint == Hint.none then x.pc else x.hintPc) 16

/-- %lblst (R367). -/
def lblst (d : Debug) : Nat := d.depth + fld (b2n d.beyond) 8 + fld (b2n d.under) 9 + fld d.cur 16

/-- The write trace ring that %bwtc's slot names (R372): the bank, where the entry is VALID and attached. -/
def bwtBank (s : State) (x : Ctx) : Option Nat :=
  let e := entry x x.dbg.bwtSlot
  if e.valid && e.st == 0 then some (bankOf s.cur e.bank) else none

/-- %bwtc (R372). -/
def bwtc (s : State) (x : Ctx) : Nat :=
  x.dbg.bwtSlot +
    (match bwtBank s x with
      | some gb =>
        let b := bankAt s gb
        fld (b2n b.traceOn) 8 + fld 1 9 + fld b.trace.length 16 + fld b.drops 32
      | none => 0)

/-- %lcs (R386). -/
def lcs (n : Nolorn) : Nat :=
  n.fuse + fld (b2n n.unlk) 3 + fld (if n.unlk then 4 else n.fuse) 4 + fld (b2n n.wiped) 8 + fld (b2n n.ext) 9

/-- The entry of a decode table that %dtidx addresses (R139). -/
def dtentry (s : State) (k : Core) : Nat :=
  tableEntry (s.cur == nolornCore) (if bitAt k.dtidx 10 then k.sup.dtab else k.user.dtab) (k.dtidx % 1024)

/-- A special register of the context in issue as SRD reads it (R150). -/
def specialRead (h : Nat) (s : State) : Nat :=
  let k := curCore s
  let x := cx s
  let d := x.dbg
  let n := s.nolorn
  if h = 0 then b2n x.dzt
  else if h = 1 then x.fmt
  else if h = 2 then x.fexc
  else if h = 3 then k.rseed.toNat
  else if h = 0x10 then x.instN % 2 ^ 32
  else if h = 0x11 then x.node
  else if h = 0x12 then x.rank
  else if h = 0x13 then x.trow0 % 2 ^ 32
  else if h = 0x14 then x.trows
  else if h = 0x18 then x.demand
  else if h = 0x19 then x.share
  else if h = 0x1A then x.ownshr
  else if h = 0x20 then (ctxOf (settle s.cur s) s.cur (onSup s)).ctime % 2 ^ 128
  else if h = 0x21 then elapsedOn s (dieOf s.cur) % 2 ^ 64
  else if h = 0x22 then x.acsel
  else if h = 0x23 then acval s x.acsel
  else if h = 0x28 then coreId s.cur
  else if h = 0x30 then b2n k.umap + fld (b2n k.smap) 1
  else if h = 0x31 then k.dtidx
  else if h = 0x32 then dtentry s k
  else if h = 0x100 then k.tvec
  else if h = 0x101 then k.tcause
  else if h = 0x102 then k.tpc
  else if h = 0x103 then k.tval.toNat
  else if h = 0x104 then tstat k
  else if h = 0x105 then k.stcause
  else if h = 0x106 then k.stpc
  else if h = 0x107 then k.stval.toNat
  else if h = 0x108 then k.tlim
  else if h = 0x200 then b2n d.brkh
  else if h = 0x201 then dbgsts x
  else if h = 0x202 then lblst d
  else if h < 0x208 then tget d.ibp (h - 0x204) 0
  else if h < 0x20C then tget d.wpa (h - 0x208) 0
  else if h < 0x210 then tget d.wpm (h - 0x20C) 0
  else if h = 0x210 then d.trctl
  else if h = 0x211 then d.trstart
  else if h = 0x212 then d.trstop
  else if h = 0x213 then d.trdrop
  else if h = 0x214 then d.trbuf
  else if h < 0x230 then tget d.lbl (h - 0x220) 0
  else if h = 0x230 then bwtc s x
  else if h = 0x231 then
    match bwtBank s x with
    | some gb => match (bankAt s gb).trace with | r :: _ => r.toNat + fld 1 64 | [] => 0
    | none => 0
  else if h = 0x300 then lcs n
  else if h = 0x301 then Config.devid.toNat
  else if h < 0x30C then
    let v := (tget n.meas ((h - 0x304) / 2) 0).toNat
    if (h - 0x304) % 2 = 0 then bits v 127 0 else bits v 255 128
  else if h = 0x310 then (Config.dbgopen s.tick).toNat
  else if h = 0x312 then bits (Config.nonce n.draws).toNat 127 0
  else bits n.nonce.toNat 255 128

/-- What a read does beside its value: %bwtr takes a record, %nonce0 draws (R372, R387). -/
def specialTake (h : Nat) (s : State) : State :=
  if h = 0x231 then
    match bwtBank s (cx s) with
    | some gb => setBank s gb { bankAt s gb with trace := (bankAt s gb).trace.drop 1 }
    | none => s
  else if h = 0x312 then
    { s with nolorn := { s.nolorn with nonce := Config.nonce s.nolorn.draws, draws := s.nolorn.draws + 1 } }
  else s

/-! ## Writing: `none` is the special-register write cause, and changes nothing -/

/-- Writes a register whose bits under `mask` may be set. -/
def within (v mask : Nat) (r : State) : Option State := if v &&& mask = v then some r else none

/-- Changes the debug registers of the context in issue. -/
def onDebug (f : Debug → Debug) (s : State) : State := setCx s { cx s with dbg := f (cx s).dbg }

/-- %fmt (R57). -/
def writeFmt (v : Nat) (s : State) : Option State :=
  if 6 ≤ bits v 10 8 ∨ !packedFormat (v % 32) then none else within v 0x00FF1F1F (setCx s { cx s with fmt := v })

/-- %acsel (R156). -/
def writeAcsel (v : Nat) (s : State) : Option State :=
  if bits v 8 7 = 3 ∨ bits v 6 5 = 3 ∨ 27 < bits v 4 0 ∨ (bits v 8 7 ≠ 0 ∧ !onSup s) then none
  else within v 0x1FF (setCx s { cx s with acsel := v })

/-- The supervisor's table or SMAP is about to change: until its IFENCE the old ones may serve (R140). -/
def keepMap (k : Core) : Core := { k with smapOld := match k.smapOld with | some m => some m | none => some (k.smap, k.sup.dtab) }

/-- %dtctl (R139). -/
def writeDtctl (v : Nat) (s : State) : Option State :=
  let k := curCore s
  let k' := if bitAt v 1 = k.smap then k else { keepMap k with smap := bitAt v 1 }
  within v 3 (setCore s s.cur { k' with umap := bitAt v 0 })

/-- %dtent (R139): an entry that stays equal to map 0 may only be written with that value. -/
def writeDtent (v : Nat) (s : State) : Option State :=
  let k := curCore s
  let nol := s.cur == nolornCore
  let o := k.dtidx % 1024
  let sup := bitAt k.dtidx 10
  let fixed := o == 0 || o == 0x3FF || (sup && decide (o < 16))
  if bits v 14 10 ≠ 0 ∨ 2 ^ 16 ≤ v ∨ (fixed ∧ v ≠ map0Entry nol o) then none
  else
    let put (t : AList (BitVec 16)) : AList (BitVec 16) := if v = map0Entry nol o then tdel t o else tset t o (BitVec.ofNat 16 v)
    let k := if sup then { keepMap k with sup := { k.sup with dtab := put k.sup.dtab } } else { k with user := { k.user with dtab := put k.user.dtab } }
    some (setCore s s.cur { k with dtidx := k.dtidx / 1024 * 1024 + (o + 1) % 1024 })

/-- The trap registers (R334). -/
def writeTrap (h v : Nat) (s : State) : Option State :=
  let k := curCore s
  let c := s.cur
  match h with
  | 0x100 => within v 0xFE01 (setCore s c { k with tvec := v })
  | 0x101 => within v 0x1FF (setCore s c { k with tcause := v })
  | 0x102 => within v 0xFFFC (setCore s c { k with tpc := v })
  | 0x103 => some (setCore s c { k with tval := BitVec.ofNat 128 v })
  | 0x105 => within v 0x1FF (setCore s c { k with stcause := v })
  | 0x106 => within v 0xFFFC (setCore s c { k with stpc := v })
  | 0x107 => some (setCore s c { k with stval := BitVec.ofNat 128 v })
  | 0x108 => within v 0x1FFFF (setCore s c { k with tlim := v })
  | _ => none

/-- %trctl (R369): CAP is read-only, and a write that sets EN clears it. -/
def writeTrctl (v : Nat) (s : State) : Option State :=
  if bits v 6 5 = 3 then none
  else within v 0xFFFFFFFF007F (onDebug (fun d =>
    { d with trctl := setBits v 1 1 (if bitAt v 0 then 0 else bits d.trctl 1 1) }) s)

/-- %trstart and %trstop (R370). -/
def writeTrigger (stop : Bool) (v : Nat) (s : State) : Option State :=
  if 6 ≤ v % 8 then none
  else within v 0xFFFF0007 (onDebug (fun d => if stop then { d with trstop := v } else { d with trstart := v }) s)

/-- %trbuf (R371): the base is aligned to the buffer's size. -/
def writeTrbuf (v : Nat) (s : State) : Option State :=
  if (bits v 49 12 * 4096) % 2 ^ (bits v 55 52 + 12) ≠ 0 then none
  else within v 0xF3FFFFFFFFF000 (onDebug (fun d => { d with trbuf := v }) s)

/-- %bwtc (R372). -/
def writeBwtc (v : Nat) (s : State) : Option State :=
  let s' := onDebug (fun d => { d with bwtSlot := v % 64 }) s
  if bits v 127 64 ≠ 0 ∨ bits v 31 23 ≠ 0 ∨ bits v 15 10 ≠ 0 ∨ bits v 7 6 ≠ 0 then none
  else
    match bwtBank s' (cx s') with
    | some gb => some (setBank s' gb { bankAt s' gb with traceOn := bitAt v 8 })
    | none => if bitAt v 8 then none else some s'

/-- %lcs (R386): a higher FUSE begins to be blown, besides those under way. -/
def writeLcs (v : Nat) (s : State) : Option State :=
  let n := s.nolorn
  if v % 8 ≤ n.fuse ∨ (4 ≤ v % 8 ∧ v % 8 ≤ 6) then none
  else within v 0x37F (send .fuseBlowDone { s with nolorn := { n with blowing := n.blowing ++ [(v % 8, s.elapsed + 100000)] } })

/-- %dbgopen (R387). -/
def writeDbgopen (v : Nat) (s : State) : Option State :=
  let n := s.nolorn
  if v = 1 ∧ (n.fuse = 2 ∨ n.fuse = 3) ∧ n.wiped ∧ n.ext then some { s with nolorn := { n with unlk := true } } else none

/-- The debug registers (R361 to R372). -/
def writeDebug (h v : Nat) (s : State) : Option State :=
  if h = 0x200 then within v 1 (onDebug (fun d => { d with brkh := bitAt v 0 }) s)
  else if h = 0x202 then within v 0xFFFF03FF (onDebug (fun d => { d with beyond := bitAt v 8, under := bitAt v 9 }) s)
  else if h < 0x208 then
    if bits v 17 16 = 3 then none else within v 0x3FFFC (onDebug (fun d => { d with ibp := tset d.ibp (h - 0x204) v }) s)
  else if h < 0x20C then
    if bits v 56 55 = 3 then none else within v (2 ^ 57 - 1) (onDebug (fun d => { d with wpa := tset d.wpa (h - 0x208) v }) s)
  else if h < 0x210 then within v (2 ^ 52 - 1) (onDebug (fun d => { d with wpm := tset d.wpm (h - 0x20C) v }) s)
  else if h = 0x210 then writeTrctl v s
  else if h = 0x211 then writeTrigger false v s
  else if h = 0x212 then writeTrigger true v s
  else if h = 0x213 then some (onDebug (fun d => { d with trdrop := 0 }) s)
  else if h = 0x214 then writeTrbuf v s
  else if h = 0x230 then writeBwtc v s
  else none

/-- A special register of the context in issue takes a value (R150): `none` where the value or the register admits no write. -/
def specialWrite (h v : Nat) (s : State) : Option State :=
  if readOnly h then none
  else if h = 0 then within v 1 (setCx s { cx s with dzt := bitAt v 0 })
  else if h = 1 then writeFmt v s
  else if h = 2 then within v 0x1F (setCx s { cx s with fexc := v })
  else if h = 3 then within v 0xFFFFFFFF (setCore s s.cur { curCore s with rseed := if v = 0 then 1 else BitVec.ofNat 32 v })
  else if h = 0x22 then writeAcsel v s
  else if h = 0x30 then writeDtctl v s
  else if h = 0x31 then within v 0x7FF (setCore s s.cur { curCore s with dtidx := v })
  else if h = 0x32 then writeDtent v s
  else if h < 0x200 then writeTrap h v s
  else if h < 0x300 then writeDebug h v s
  else if h = 0x300 then writeLcs v s
  else if h = 0x310 then writeDbgopen v s
  else none

/-! ## SRD and SWR (R150) -/

/-- SRD (R150). -/
def execSrd (d : BitVec 6) (h : BitVec 16) (s : State) : Out :=
  let n := h.toNat
  if specialPrivileged false n && !onSup s then .next (trapWord 0x03 s)
  else if n = 3 ∧ rstoBusy (curCore s) then .next (wait 8 s)
  else .next (finish (putNat d (specialRead n s) (specialTake n s)))

/-- SWR (R150): the register has its new value after the cycle in which the word issues. -/
def execSwr (d : BitVec 6) (h : BitVec 16) (s : State) : Out :=
  let n := h.toNat
  if specialPrivileged true n && !onSup s then .next (trapWord 0x03 s)
  else if n = 3 ∧ rstoBusy (curCore s) then .next (wait 8 s)
  else
    match specialWrite n (rn s d) s with
    | some _ => .next (finishWith (fun t => (specialWrite n (rn s d) t).getD t) s)
    | none => .next (trapWord 0x04 s)

/-- A write of a special register by the context in issue, by itself: it traps as SWR does (R150). -/
def writeEvent (e : Event) (h : Nat) (v : Word) (s : State) : Out :=
  let s := taken e s
  if specialPrivileged true h && !onSup s then .next (trapWord 0x03 s)
  else
    match specialWrite h v.toNat s with
    | some t => .next t
    | none => .next (trapWord 0x04 s)

/-- DTENT_WRITE (R139). -/
def execDtentWrite (v : Word) (s : State) : Out := writeEvent (.dtentWrite v) 0x32 v s

/-- RSEED_WRITE (R150): it waits for the draws of earlier commands. -/
def execRseedWrite (v : Word) (s : State) : Out := if rstoBusy (curCore s) then .next s else writeEvent (.rseedWrite v) 3 v s

/-- TRCTL_WRITE (R369). -/
def execTrctlWrite (v : Word) (s : State) : Out := writeEvent (.trctlWrite v) 0x210 v s

/-- BWTC_WRITE (R372). -/
def execBwtcWrite (v : Word) (s : State) : Out := writeEvent (.bwtcWrite v) 0x230 v s

/-- BWTR_READ (R372): the oldest record goes to K[d] of the context in issue. -/
def execBwtrRead (d : BitVec 6) (s : State) : Out :=
  let s := taken (.bwtrRead d) s
  .next (putNat d (specialRead 0x231 s) (specialTake 0x231 s))

/-- Security registers belong to the Nolorn core's supervisor (R148, R386, R387). -/
def onNolorn (s : State) (f : State → Out) : Out :=
  if s.cur ≠ nolornCore then .next (trapWord 0x01 s) else if !onSup s then .next (trapWord 0x03 s) else f s

/-- NONCE_DRAW (R387). -/
def execNonceDraw (d : BitVec 6) (s : State) : Out :=
  onNolorn (taken (.nonceDraw d) s) fun s => .next (putNat d (specialRead 0x312 s) (specialTake 0x312 s))

/-- DBGOPEN_WRITE (R387). -/
def execDbgopenWrite (v : Word) (s : State) : Out :=
  onNolorn (taken (.dbgopenWrite v) s) fun s => writeEvent (.dbgopenWrite v) 0x310 v s

/-- FUSE_WRITE (R386). -/
def execFuseWrite (v : Word) (s : State) : Out := onNolorn (taken (.fuseWrite v) s) fun s => writeEvent (.fuseWrite v) 0x300 v s

/-- FUSE_BLOW_DONE (R386): after 100,000 cycles. What one blow has raised another does not lower. -/
def execFuseBlowDone (s : State) : Out :=
  match s.nolorn.blowing with
  | [] => .next (taken .fuseBlowDone s)
  | (f, t) :: r =>
    if s.elapsed < t then .next s
    else
      let s := taken .fuseBlowDone s
      .next { s with nolorn := { s.nolorn with fuse := Nat.max s.nolorn.fuse f, blowing := r } }

/-! ## TRAP and TRET (R337, R338) -/

/-- TRAP (R337). -/
def execTrap (a : BitVec 6) (i : BitVec 7) (s : State) : Out := .next (trapVal (0x80 + i.toNat) (rv s a) s)

/-- TRET (R338). -/
def execTret (s : State) : Out :=
  if !(curCore s).uload then .next (trapWord 0x0B s) else .next (returnUser s.cur (finish s))

/-- TRET.k (R338): the user context is killed, and the supervisor becomes idle. -/
def execTretK (s : State) : Out :=
  let k := curCore s
  if !k.uload then .next (trapWord 0x0B s)
  else
    let c := s.cur
    let s := beginKill c 0x67 false k.user.pc (BitVec.ofNat 128 k.tcause) (finish s)
    let s := settle c s
    .next (markIdle c (setCore s c { core s c with pendT := false, supOn := false }))

/-- TRET.s (R338). -/
def execTretS (s : State) : Out :=
  if !(curCore s).spend then .next (trapWord 0x0B s) else .next (returnSup s.cur (finish s))

end Sys2Proof.Machine
end

