-- ==== Sys2Proof/Machine/Context.lean ====
section
/-! DEFINITION. Contexts stopped, saved, loaded and killed (R340, R343 to R349, R129, R242, R290), and the traps and imprecise causes as
events (R333 to R336). -/

namespace Sys2Proof.Machine

/-! ## Stopping for a save (R343) -/

/-- Whether an access of an engine may be recorded with the save, to go on after the restore (R242): it cannot be performed now. -/
def recordable (s : State) (a : Access) : Bool :=
  (a.eng == 2 || a.eng == 3) &&
    ((a.stage == .port && (portWaits s a || (before a.id s.accesses).any fun b => b.stage == .port && b.sameSource a && sameLane s b a && portWaits s b)) ||
      (a.stage == .served && a.eng == 3 && (match copyOf s a.core a.sup a.copy with | some p => p.blocked a.part | none => false)))

/-- Whether an event under way still belongs to the user context of a core: its answer comes before the save. -/
def owedTo (c : Nat) : Event → Bool
  | .dependenceDecrement r => r.core == c && r.reg.isSome
  | .tspawnExpansion r => r.core == c && !r.sup
  | .chainLineArrival l => l.lead == c && !l.sup && l.reg != 64
  | .portWordArrival c' _ _ => c' == c
  | e => handAsked c false e

/-- Whether the word in issue of a context cannot be left unissued any more: the slice has it, or its barrier is released. -/
def taken_ (s : State) (x : Ctx) : Bool :=
  match x.waiting with
  | some (.commit _) => true
  | some (.tdone _) => true
  | some (.bar key _) => (match tfind s.barriers key with | some b => b.released | none => false)
  | _ => false

/-- Whether the user context of a core stands as a save needs it (R343 steps 1 to 5). -/
def stopped (s : State) (c : Nat) : Bool :=
  let k := core s c
  !taken_ s k.user && !drainsWords k && vectorStopped k.user && (ctxAccesses s c false).all (recordable s) && !s.flight.any (owedTo c) &&
    !(k.user.attach.any fun p => p.2.valid && (p.2.st == 1 || p.2.st == 3))

/-! ## The area as R347 lays it out -/

/-- A table of 16-byte values at consecutive places. -/
def values16 (l : List Nat) : List Byte := l.flatMap (toBytes 16)

/-- What a save area's special-register place holds: 0 where no register is saved under the number. -/
def savedSpecial (k : Core) (x : Ctx) (h : Nat) : Nat :=
  if h = 0 then b2n x.dzt
  else if h = 1 then x.fmt
  else if h = 2 then x.fexc
  else if h = 3 then x.rseed.toNat
  else if h = 0x10 then x.instN % 2 ^ 32
  else if h = 0x11 then x.node
  else if h = 0x12 then x.rank
  else if h = 0x13 then x.trow0 % 2 ^ 32
  else if h = 0x14 then x.trows
  else if h = 0x18 then x.demand
  else if h = 0x19 then x.share
  else if h = 0x1A then x.ownshr
  else if h = 0x20 then x.ctime
  else if h = 0x22 then x.acsel
  else if h = 0x23 then selected k x.acct x.acsel
  else if h = 0x30 then b2n k.umap + fld (b2n k.smap) 1
  else if h = 0x31 then k.dtidx
  else if h = 0x32 then tableEntry false (if bitAt k.dtidx 10 then k.sup.dtab else x.dtab) (k.dtidx % 1024)
  else 0

/-- What a save area's debug-register place holds (R361). -/
def savedDebug (x : Ctx) (h : Nat) : Nat :=
  let d := x.dbg
  if h = 0x200 then b2n d.brkh
  else if h = 0x201 then dbgsts x
  else if h = 0x202 then lblst d
  else if 0x204 ≤ h ∧ h < 0x208 then tget d.ibp (h - 0x204) 0
  else if 0x208 ≤ h ∧ h < 0x20C then tget d.wpa (h - 0x208) 0
  else if 0x20C ≤ h ∧ h < 0x210 then tget d.wpm (h - 0x20C) 0
  else if h = 0x210 then d.trctl
  else if h = 0x211 then d.trstart
  else if h = 0x212 then d.trstop
  else if h = 0x213 then d.trdrop
  else if h = 0x214 then d.trbuf
  else if 0x220 ≤ h ∧ h < 0x230 then tget d.lbl (h - 0x220) 0
  else 0

/-- A mask stream's words, in the arrangement of SQRY's. -/
def maskWord (o : Option MaskStream) (sel : Nat) : Nat :=
  match o with
  | none => 0
  | some t => if sel = 0 then (t.count - t.pos) + fld (t.pos % 2 ^ 32) 32 + fld t.dir 64 + fld 1 66 else t.base

/-- The slot that a ring stream holds, with the elements of it used. -/
def heldWord (o : Option Stream) : Nat :=
  match o.bind (·.held) with
  | some (slot, used) => fld 1 63 + slot % 2 ^ 16 + fld (used % 2 ^ 32) 16
  | none => 0

/-- A save area's header (R347). -/
def areaHeader (k : Core) (x : Ctx) (pc tpc : Nat) : Nat :=
  0x43545841 + fld 1 32 + fld (b2n k.udisp) 37 + fld (b2n k.pendT) 38 + fld (b2n x.tx.isSome) 39 +
    fld (b2n (match x.tx with | some t => t.abort != 0 | none => false)) 40 + fld (pc % 65536) 48 + fld ((rcbOf x).getD 0) 64 +
    fld (x.instN % 2 ^ 32) 128 + fld (((x.inst.map (·.launch)).getD 0) % 65536) 160 + fld (x.node % 4096) 176 + fld (k.tcause % 512) 192 +
    fld (tpc % 65536) 208 + fld k.tval.toNat 256

/-- The parts of an area that R347 lays out byte by byte are written, k1 to k63 as tagged units (R218). -/
def writeArea (a : Nat) (k : Core) (x : Ctx) (pc tpc : Nat) (s : State) : State :=
  let nol := false
  let s := homeWriteNat s a 64 (areaHeader k x pc tpc)
  let s := homeWriteNat s (a + 0x40) 16 0
  let s := (List.range 63).foldl (fun s n =>
    let r := reg x (n + 1)
    homeWriteTagged s (a + 0x40 + 16 * (n + 1)) r.val r.tag) s
  let s := homeWriteNat s (a + 0x440) 64 (((List.range 64).map fun n => fld (b2n (reg x n).tag) n).sum)
  let s := homeWrite s (a + 0x480) (values16 ((List.range 64).map (savedSpecial k x)))
  let s := homeWrite s (a + 0x880) (values16 ((List.range 64).map fun n => savedDebug x (0x200 + n)))
  let s := homeWrite s (a + 0xC80) ((List.range 64).flatMap fun n => toBytes 4 (entryWord (entry x n)))
  let s := homeWrite s (a + 0xD80) ((List.range 1024).flatMap fun o => toBytes 2 (tableEntry nol x.dtab o))
  let s := homeWrite s (a + 0x1580) ((List.range 8).flatMap fun n =>
    let t := tfind x.streams n
    values16 [sqryWord t 1, sqryWord t 0, heldWord t, 0])
  homeWrite s (a + 0x1780) ((List.range 8).flatMap fun n => values16 [maskWord (tfind x.masks n) 1, maskWord (tfind x.masks n) 0])

/-! ## Saving (R343 steps 3 to 7, R348) -/

/-- The commands of a context as they are recorded: MMAs that have begun complete, fills begin again (R290), the executing vector command
stands at what it has done (R252). -/
def Ctx.settleEngines (x : Ctx) : Ctx :=
  let x := (x.fresh.foldl (fun x p => x.writeback p.1) x).suspendVector
  { x with fills := x.fills.map fun f => { f with use := none, paged := false } }

/-- A context as it is saved: at its boundary, with nothing awaited, its group aborted (R353), and without %bwtc, which is not saved (R361). -/
def Ctx.toSave (x : Ctx) (pc : Nat) (l : List Access) : Ctx :=
  { x.settleEngines.abortTx 4 with pc := pc, hint := .none, waiting := none, parked := l, acct := [], resident := 0, stale := []
                                   dbg := { x.dbg with bwtSlot := 0 } }

/-- The banks of a table go from one holder to another (R348). -/
def moveBanks (c : Nat) (x : Ctx) (old new : Nat) (rcb : Option Nat) (s : State) : State :=
  x.attach.foldl (fun s p =>
    if !p.2.valid then s
    else
      let gb := bankOf c p.2.bank
      let b := bankAt s gb
      setBank s gb (recharge { b with holders := b.holders.map fun h => if h.1 = old then (new, rcb) else h })) s

/-- The supervisor stops as in a kill, with the user context that it handles a trap of (R343 step 1). -/
def stopSupervisor (c : Nat) (s : State) : State :=
  let k := core s c
  if !k.supOn then s
  else
    let s := { s with accesses := s.accesses.filter fun a => !(a.core == c && a.sup && a.eng != 0) }
    let s := settle c s
    let k := core s c
    setCore (withdraw c true s) c { k with supOn := false, repShadow := none, spend := false
                                           sup := { k.sup with vq := [], mq := [], cq := [], copies := [], fills := [], mstores := [], fresh := [], mmas := []
                                                               mslots := [], cells := [], reps := [], hint := .none, waiting := none } }

/-- The user context of a core is saved in an area, and its place is free. `tpc`: what the area holds as TPC. -/
def saveUser (c a : Nat) (s : State) : State :=
  let s := withdraw c false (commitAccounts c false none (flushTrace c false s))
  let k := core s c
  let x := k.user
  let pc := if k.supOn && !k.udisp then k.tpc else if x.hint == Hint.none then x.pc else x.hintPc
  let s := match x.inst with
    | some r => onInst r (fun i => { i with resid := i.resid + x.resident }) s
    | none => s
  let y := { x with rseed := k.rseed }.toSave pc (ctxAccesses s c false)
  let s := { s with accesses := s.accesses.filter fun a => !(a.core == c && !a.sup) }
  let s := lostToCtx c y a 0x100000 (writeArea a k y pc k.tpc s)
  let s := moveBanks c y (holderKey c false) (areaKey a) (rcbOf y) s
  let s := rehomeAll c (some (savedCore a)) { s with areas := tset s.areas a (c, y) }
  emptyUser c (loseReservations c s)

/-- A core is told to stop for a save, or to go on. -/
def setPreempt (v : Bool) (s : State) (c : Nat) : State :=
  let s := settle c s
  setCore s c { core s c with preempt := v }

/-- Whether a device-physical address is a save area (R347). -/
def areaOk (s : State) (a : Nat) : Bool := a % 2 ^ 20 == 0 && physExtent s a (2 ^ 20)

/-- CTXSV (R348): inside a group it is misuse (R350). -/
def execCtxsv (d a : BitVec 6) (s : State) : Out :=
  let c := s.cur
  let k := curCore s
  let area := bits (rn s a) 49 0
  if (cx s).tx.isSome then .next (trapWord 0x0A s)
  else if !areaOk s area then .next (doneStatus d 8 0 s)
  else if !k.uload then .next (doneStatus d 5 0 s)
  else if k.udisp then .next (doneStatus d 23 0 s)
  else
    let s := setPreempt true s c
    if k.killing || !stopped s c then .next (wait 1 s)
    else .next (doneStatus d 0 0 (saveUser c area s))

/-! ## Reading an area (R347, R349) -/

/-- The registers of an area: a tag needs both the tag bit and the memory tag. -/
def areaRegs (s : State) (a : Nat) : AList Reg :=
  let tagBits := homeRead s (a + 0x440) 8
  (List.range 63).foldl (fun l i =>
    let n := i + 1
    let u := a + 0x40 + 16 * n
    let r : Reg := ⟨BitVec.ofNat 128 (homeRead s u 16), bitAt tagBits n && homeTag s u⟩
    if r = {} then l else tset l n r) []

/-- An attach entry from its 32 bits (R192). -/
def entryOf (w : Nat) : Entry :=
  if w = 0 then {} else
  { hslot := bits w 31 26, hcore := bits w 25 20, rpol := bits w 19 18, st := bits w 17 16, perm := bits w 15 12, cls := bits w 11 10
    valid := bitAt w 9, bank := bits w 8 0 }

/-- The attach table of an area. -/
def areaAttach (s : State) (a : Nat) : AList Entry :=
  (List.range 64).foldl (fun l n =>
    let e := entryOf (homeRead s (a + 0xC80 + 4 * n) 4)
    if e = {} then l else tset l n e) []

/-- A special register's place in an area. -/
def areaSpecial (s : State) (a h : Nat) : Nat := homeRead s (a + 0x480 + 16 * h) 16

/-- The special registers of an area, each to the width of its fields; what a task was demanded is carried where it was dispatched (R88). A
%fmt or an %acsel that no write could leave is loaded as it stands (DESIGN CHOICE, entry 104). -/
def areaSpecials (s : State) (a : Nat) (disp : Bool) (x : Ctx) : Ctx :=
  let v (h : Nat) : Nat := areaSpecial s a h
  let x := { x with dzt := bitAt (v 0) 0, fmt := v 1 &&& 0x00FF1F1F, fexc := v 2 % 32
                    rseed := if v 3 % 2 ^ 32 = 0 then 1 else BitVec.ofNat 32 (v 3), instN := v 0x10 % 2 ^ 32, node := v 0x11 % 4096
                    rank := v 0x12 % 16, trow0 := v 0x13 % 2 ^ 32, trows := v 0x14 % 64, ctime := v 0x20, acsel := v 0x22 % 512 }
  if disp then { x with demand := v 0x18 % 2 ^ 40, share := v 0x19 % 2 ^ 48, ownshr := v 0x1A % 2 ^ 32 } else x

/-- A table of values at places that are not zero. -/
def nonzero (n : Nat) (f : Nat → Nat) : AList Nat :=
  (List.range n).foldl (fun l i => if f i = 0 then l else tset l i (f i)) []

/-- The debug registers of an area (R361). -/
def areaDebug (s : State) (a : Nat) (d : Debug) : Debug :=
  let v (h : Nat) : Nat := homeRead s (a + 0x880 + 16 * (h - 0x200)) 16
  { d with brkh := bitAt (v 0x200) 0, halted := bitAt (v 0x201) 8, reason := bits (v 0x201) 2 0
           idx := bits (v 0x201) 5 4, depth := bits (v 0x202) 7 0, beyond := bitAt (v 0x202) 8, under := bitAt (v 0x202) 9
           ibp := nonzero 4 fun i => v (0x204 + i) &&& 0x3FFFC, wpa := nonzero 4 fun i => v (0x208 + i) % 2 ^ 57
           wpm := nonzero 4 fun i => v (0x20C + i) % 2 ^ 52, lbl := nonzero 16 fun i => v (0x220 + i) % 2 ^ 16
           trctl := v 0x210 &&& 0xFFFFFFFF007F, trstart := v 0x211 &&& 0xFFFF0007, trstop := v 0x212 &&& 0xFFFF0007
           trdrop := v 0x213 % 2 ^ 32, trbuf := v 0x214 &&& 0xF3FFFFFFFFF000 }

/-- The user decode table of an area: what equals map 0 is not listed, and reserved bits read as zero (R138). -/
def areaTable (s : State) (a : Nat) : AList (BitVec 16) :=
  (List.range 1022).foldl (fun l i =>
    let o := i + 1
    let v := homeRead s (a + 0xD80 + 2 * o) 2 &&& 0x83FF
    if v = map0Entry false o then l else tset l o (BitVec.ofNat 16 v)) []

/-- The streams of an area. -/
def areaStreams (s : State) (a : Nat) : AList Stream :=
  (List.range 8).foldl (fun l n =>
    let w1 := homeRead s (a + 0x1580 + 64 * n) 16
    let w0 := homeRead s (a + 0x1590 + 64 * n) 16
    let h := homeRead s (a + 0x15A0 + 64 * n) 16
    if !bitAt w0 66 then l
    else
      tset l n { fmt := bits w1 68 64, base := bits w1 31 0, stride := signed 32 (bits w1 63 32), count := bits w0 31 0 + bits w0 63 32
                 pos := bits w0 63 32, dir := bits w0 65 64, ring := bitAt w0 67, held := if bitAt h 63 then some (bits h 15 0, bits h 47 16) else none }) []

/-- The mask streams of an area. -/
def areaMasks (s : State) (a : Nat) : AList MaskStream :=
  (List.range 8).foldl (fun l n =>
    let w1 := homeRead s (a + 0x1780 + 32 * n) 16
    let w0 := homeRead s (a + 0x1790 + 32 * n) 16
    if !bitAt w0 66 then l
    else tset l n { base := bits w1 31 0, count := bits w0 31 0 + bits w0 63 32, pos := bits w0 63 32, dir := bits w0 65 64 }) []

/-- The control transaction of an area: what TXO and TXAB say of the one that was saved (R347, R353). -/
def areaTx (h now : Nat) (t : Option Tx) : Option Tx :=
  if !bitAt h 39 then none
  else
    let t := t.getD { since := now }
    some { t with abort := if !bitAt h 40 then 0 else if t.abort = 0 then 4 else t.abort }

/-- The context that an area holds: what R347 lays out from memory, the rest as it was saved (entry 16). -/
def readArea (s : State) (a : Nat) : Ctx :=
  let h := homeRead s a 64
  let fresh := bitAt h 36
  let base : Ctx := if fresh then {} else match tfind s.areas a with | some p => p.2 | none => {}
  let x := areaSpecials s a (bitAt h 37) { base with regs := areaRegs s a, attach := areaAttach s a, pc := bits h 63 48 / 4 * 4 }
  if fresh then x
  else { x with tx := areaTx h x.ctime x.tx, dbg := areaDebug s a x.dbg, dtab := areaTable s a, streams := areaStreams s a, masks := areaMasks s a }

/-- The engines' accesses recorded with a context go on at its new core. -/
def unparkAccess (old c : Nat) (s : State) (a : Access) : State :=
  let d := match a.dest with | .bank k false la false => if k = old then Dest.bank c false la false else a.dest | d => d
  let b := { a with core := c, dest := d }
  if a.stage == .served then { s with nextId := s.nextId + 1, accesses := s.accesses ++ [{ b with id := s.nextId, die := dieOf c }] }
  else post b s

/-- The loaded user context takes its place on a core, with its pages asked for afresh and its recorded accesses under way again. -/
def placeUser (c a : Nat) (x : Ctx) (s : State) : State :=
  let old := match tfind s.areas a with | some p => p.1 | none => c
  let s := commitSup c s
  let k := core s c
  let s := setCore s c { k with user := { x.recapture with parked := [] }, uload := true, killing := false, preempt := false, fwd := none, fwdh := [], walkFail := none
                                umap := bitAt (areaSpecial s a 0x30) 0, dtidx := areaSpecial s a 0x31 % 2 ^ 11, rseed := x.rseed }
  let s := rehomeAll (savedCore a) (some c) s
  let s := x.parked.foldl (unparkAccess old c) s
  let s := (copyPages x).foldl (fun s v => retryCopies c false v.1 v.2 s) s
  advanceMatrix c s

/-! ## Loading (R349) -/

/-- The reserved bits of an area's header, and an entry that R192 reserves. -/
def areaBad (s : State) (a : Nat) : Bool :=
  let h := homeRead s a 64
  bits h 31 0 != 0x43545841 || bits h 35 32 != 1 || bitAt h 37 || bits h 47 41 != 0 || bits h 127 114 != 0 || bits h 191 188 != 0 ||
    bits h 207 201 != 0 || bits h 255 224 != 0 || bits h 511 384 != 0 ||
    (areaAttach s a).any fun p => p.2.valid && (p.2.cls == 3 || p.2.rpol == 3)

/-- Where the bank of a non-fresh area's entry comes from (R349): held by the area, or attached to the loading supervisor at a slot. -/
def bankSource (s : State) (c a : Nat) (e : Entry) : Option (Option Nat) :=
  let b := bankAt s (bankOf c e.bank)
  if c < 4096 ∧ b.cond = .attached ∧ b.holders.any (fun h => h.1 == areaKey a) then some none
  else ((core s c).sup.attach.find? fun p => p.2.valid && p.2.bank == e.bank && p.2.st == 0).map fun p => some p.1

/-- A bank takes its place in the loaded table, charged to the context's region. -/
def takeBank (c a : Nat) (rcb : Option Nat) (s : State) (p : Nat × Entry) : State :=
  if !p.2.valid then s
  else
    let gb := bankOf c p.2.bank
    match bankSource s c a p.2 with
    | some (some slot) => holdBy gb (holderKey c false) rcb (dropHolder gb (holderKey c true) (putEntry c true slot {} s))
    | _ => holdBy gb (holderKey c false) rcb (dropHolder gb (areaKey a) s)

/-- The request of ATT mode 0 that a fresh area's entry stands for. -/
def freshReq (slot : Nat) (e : Entry) : Nat :=
  slot + fld e.perm 8 + fld e.cls 12 + fld e.rpol 14 + fld e.hcore 16 + fld e.hslot 22

/-- The banks of a fresh area: the first status that is not OK, and the state. -/
def freshBanks (c : Nat) : List (Nat × Entry) → State → Nat × State
  | [], s => (0, s)
  | (slot, e) :: t, s =>
    if !e.valid then freshBanks c t s
    else
      let r := attCheck s c false (freshReq slot e) 0
      if r.status ≠ 0 then (r.status, s) else freshBanks c t (attApply c false (freshReq slot e) r s)

/-- A context that CTXLD has loaded: the trap registers, and what its area keeps (R349). -/
def loaded (c a h : Nat) (s : State) : State :=
  let k := core s c
  let s := setCore s c { k with tpc := bits h 63 48 / 4 * 4, pendT := bitAt h 38, tcause := bits h 200 192, tval := BitVec.ofNat 128 (bits h 383 256), udisp := false }
  match tfind s.areas a with
  | some (o, x) => { s with areas := tset s.areas a (o, { x with pend := [], sends := 0, msnds := [], parked := [] }) }
  | none => s

/-- CTXLD of an area whose header, load and region are in order. -/
def loadArea (c a h : Nat) (s : State) : Nat × State :=
  let x := readArea s a
  let rcb := bits h 113 64
  let region : Option Snapshot := if rcb = 0 then none else some (regionStatus s none rcb).2
  let x := { x with region := region, inst := none, handler := none, role := .single, demand := 0xFFFFFFFFFF, share := 0xFFFFFFFFFFFF, ownshr := 0xFFFFFFFF }
  if bitAt h 36 then
    let q := freshBanks c x.attach (placeUser c a { x with attach := [] } s)
    if q.1 ≠ 0 then (q.1, s) else (0, loaded c a h q.2)
  else if x.attach.any fun p => p.2.valid && (bankSource s c a p.2).isNone then (1, s)
  else
    let s := x.attach.foldl (takeBank c a (region.map (·.rcb))) s
    let x := { x with attach := x.attach.map fun p => (p.1, if p.2.valid then { p.2 with st := 0 } else p.2) }
    (0, loaded c a h (placeUser c a x s))

/-- CTXLD is done: the context that it has loaded is resident in the cycle of its restore, which is charged as one (R152, R153). -/
def finishLoad (c : Nat) (s : State) : State := setPreempt false (finish (setPreempt true s c)) c

/-- CTXLD (R349): inside a group it is misuse (R350). -/
def execCtxld (d a : BitVec 6) (s : State) : Out :=
  let c := s.cur
  let area := bits (rn s a) 49 0
  let h := homeRead s area 64
  let rcb := bits h 113 64
  if (cx s).tx.isSome then .next (trapWord 0x0A s)
  else
  let s := lostToCtx c (cx s) area (if areaOk s area then 64 else 0) s
  if !areaOk s area || areaBad s area then .next (doneStatus d 8 0 s)
  else if (curCore s).uload then .next (doneStatus d 11 0 s)
  else if rcb ≠ 0 ∧ (regionStatus s none rcb).1 ≠ 0 then .next (doneStatus d 24 0 s)
  else
    let q := loadArea c area h s
    .next (if q.1 = 0 then finishLoad c (putNat d (statusWord 0 0) q.2) else doneStatus d q.1 0 q.2)

/-! ## Pre-emption (R129, R343 to R346) -/

/-- Takes the areas for an instance's members, where there are enough (R346): which of the free ones is left open. -/
def takeAreas (i : Inst) (s : State) : Option State :=
  let x := die s i.ref.die
  let n := i.cores.length
  if n ≤ i.areas.length then
    some (onInst i.ref (fun j => { j with areas := i.areas.take n }) (setDie s i.ref.die { x with areas := x.areas ++ i.areas.drop n }))
  else if x.areas.length < n then none
  else
    let p := Config.areaPlace s.tick % (x.areas.length + 1)
    let l := x.areas.drop p ++ x.areas.take p
    some (onInst i.ref (fun j => { j with areas := l.take n }) (setDie s i.ref.die { x with areas := l.drop n }))

/-- The members of an instance are saved, each in its area, by rank. -/
def saveAll : List (Nat × Nat) → State → State
  | [], s => s
  | (c, a) :: t, s => saveAll t (saveUser c a (stopSupervisor c s))

/-- PREEMPTION (R343): a chorus or gang is saved as a whole; a request that meets a kill is dropped (R345). -/
def execPreemption (c : Nat) (s : State) : Out :=
  let e : Event := .preemption c
  let s := taken e s
  if !isCore c then .next s else
  let k := core s c
  match k.user.inst.bind (inst s) with
  | none => .next (setPreempt false s c)
  | some i =>
    if !k.uload || !k.udisp || i.st != .running then .next s
    else if i.cores.any fun m => (core s m).killing then .next (dropAreas i.ref (i.cores.foldl (setPreempt false) s))
    else
      match takeAreas i s with
      | none => .next (i.cores.foldl (setPreempt false) s)
      | some s =>
        let s := i.cores.foldl (setPreempt true) s
        if i.cores.all (stopped s) then
          match inst s i.ref with
          | some i =>
            let s := saveAll (i.cores.zip i.areas) s
            .next (onInst i.ref (fun i => { i with st := .suspended, since := s.elapsed, cores := [] }) s)
          | none => .next s
        else .next (send e s)

/-- A member's place in its chorus, at the cores where the instance now stands (R129). -/
def Role.moved (cores : List Nat) : Role → Role
  | .single => .single
  | .leader _ => .leader (cores.drop 1)
  | .attached _ => .attached (cores.headD 0)
  | .detached _ => .detached (cores.headD 0)
  | .joining _ y => .joining (cores.headD 0) y

/-- A restored context whose trap was being handled: its handler starts afresh from its vector (R343 step 1). -/
def resumeHandler (c : Nat) (s : State) : State :=
  let s := settle c s
  let k := core s c
  if !k.pendT then s
  else if k.tvec % 2 = 0 then beginKill c (k.tcause % 256) (bitAt k.tcause 8) k.tpc k.tval (setCore s c { k with pendT := false })
  else setCore s c { k with supOn := true, sup := { k.sup with pc := (k.tvec / 512 * 512 + 64 * causeClass (k.tcause % 256)) % 65536, hint := .none, waiting := none } }

/-- A member of a suspended instance stands on its core again. -/
def restoreMember (c a : Nat) (i : Inst) (s : State) : State :=
  let h := homeRead s a 64
  let x := readArea s a
  let old := match tfind s.areas a with | some p => p.1 | none => c
  let x := { x with role := x.role.moved i.cores, attach := x.attach }
  let s := moveBanks old x (areaKey a) (holderKey c false) (rcbOf x) s
  let s := placeUser c a x s
  let k := core s c
  let s := setCore { s with areas := tdel s.areas a } c
    { k with udisp := true, preempt := true, tpc := bits h 223 208, pendT := bitAt h 38, tcause := bits h 200 192, tval := BitVec.ofNat 128 (bits h 383 256) }
  let y := die s i.ref.die
  let s := setDie s i.ref.die { y with areas := y.areas ++ [a] }
  onInst i.ref (fun i => { i with areas := i.areas.filter (· != a) }) s

/-- CONTEXT_RESTORE (R343): the members go on together once the last of them is restored. -/
def execContextRestore (c area : Nat) (s : State) : Out :=
  let e : Event := .contextRestore c area
  let s := taken e s
  if !isCore c then .next s else
  match (tfind s.areas area).bind fun p => p.2.inst.bind (inst s) with
  | none => .next s
  | some i =>
    if (core s c).uload ∨ !i.cores.contains c ∨ !i.areas.contains area then .next s
    else if !powered (core s c) then .next (send e (wakeCore c s))
    else
      let s := restoreMember c area i s
      if i.areas.length ≤ 1 then
        let s := i.cores.foldl (setPreempt false) s
        let s := i.cores.foldl (fun s c => resumeHandler c s) s
        .next (onInst i.ref (fun i => { i with st := .running, disp := s.elapsed }) s)
      else .next s

/-! ## Killing (R340) -/

/-- What a kill discards of a context at once: the group, the engines' work, inbox, ports, receives, reservations, expectations. -/
def Ctx.stripped (x : Ctx) : Ctx :=
  { x with tx := none, waiting := none, vq := [], mq := [], cq := [], copies := [], fills := [], mstores := [], fresh := [], mmas := [], inbox := []
           precvs := [], tagq := [], resv := [], ports := [], mslots := [], cells := [], reps := [], hint := .none, fwdq := [] }

/-- The other members of the instance are to be killed with it. -/
def killPeers (c : Nat) (i : Inst) (s : State) : State :=
  (i.cores.filter (· != c)).foldl (fun s m =>
    if (core s m).killing then s
    else beginKill m 0x6D false (core s m).user.pc (BitVec.ofNat 128 (coreName c)) s) s

/-- The table of a core's user context is dealt with (R203): it holds no VALID entry, and every hand-over and heir has answered. -/
def tableDone (s : State) (c : Nat) : Bool :=
  !((core s c).user.attach.any fun p => p.2.valid) && !s.flight.any (handAsked c false)

/-- The instance of a context killed: with its last member it is FAULTED (R340 step 6, R96). -/
def leaveInst (c : Nat) (r : InstRef) (resid : Nat) (s : State) : State :=
  let s := onInst r (fun i => { i with cores := i.cores.filter (· != c), resid := i.resid + resid }) s
  match inst s r with
  | some i =>
    if i.cores.isEmpty ∧ !i.ended then
      let s := match launch s r.die r.launch with | some l => settleDeficit l.snap.rcb i.resid s | none => s
      faultInst r (dropAreas r s)
    else s
  | none => s

/-- The end of a kill: accounts, instance, record, and the place of the context is free (R340 steps 5 to 7). -/
def endKill (c cause pc : Nat) (val : Word) (s : State) : State :=
  let k := core s c
  let x := k.user
  let s := commitAccounts c false (if cause = 0x6D then none else some 2) s
  let s := logFor c x cause k.killImp pc val s
  let rerun := match x.inst.bind (inst s) with | some i => i.rearmed && cause != 0x6D | none => false
  let s := if rerun then logFor c x 0x6A false pc 0 s else s
  let s := match x.inst with | some r => leaveInst c r x.resident s | none => s
  let s := clearUser c s
  let s := match x.handler with | some flog => endHandler (dieOf c) flog 0 false s | none => s
  match x.inst with
  | some r => endLaunch r.die r.launch s
  | none => s

/-- CONTEXT_KILL (R340): a commit that the slice has taken completes first; the kill waits for its hand-overs' answers (R203). -/
def execContextKill (c : Nat) (cause : BitVec 8) (pc : BitVec 16) (val : Word) (s : State) : Out :=
  let e : Event := .contextKill c cause pc val
  let s := taken e s
  if !isCore c then .next s else
  if !(core s c).uload then .next s
  else
    let s := setCore s c { core s c with killing := true }
    let x := (core s c).user
    match x.waiting with
    | some (.commit _) => .next (send e s)
    | _ =>
      let s := match x.inst.bind (inst s) with | some i => killPeers c i s | none => s
      let s := withdraw c false s
      let s := { s with accesses := s.accesses.filter fun a => !(a.core == c && !a.sup) }
      let s := setCore s c { core s c with user := (core s c).user.stripped, fwd := none }
      let s := dealTable c s
      if tableDone s c then .next (endKill c cause.toNat pc.toNat val s) else .next (send e s)

/-! ## Traps as events (R333, R335, R336) -/

/-- Causes that a context may trap with (R331, R332). -/
def trapCause (c : Nat) : Bool :=
  c ≤ 0x0B || (0x10 ≤ c && c ≤ 0x16) || (0x20 ≤ c && c ≤ 0x2C) || (0x40 ≤ c && c ≤ 0x49) || (0x50 ≤ c && c ≤ 0x52) || 0x80 ≤ c

/-- Causes whose trap is imprecise where it does not come from a word of the sequencer (R332). -/
def impreciseCause (c : Nat) : Bool := (0x41 ≤ c && c ≤ 0x43) || (0x45 ≤ c && c ≤ 0x49)

/-- TRAP_ENTRY (R333): of a user context that issues. -/
def execTrapEntry (c : Nat) (cause : BitVec 8) (pc : BitVec 16) (val : Word) (s : State) : Out :=
  let s := taken (.trapEntry c cause pc val) s
  if !isCore c then .next s else
  let k := core s c
  if !userIssues k || k.supOn || !trapCause cause.toNat then .next s
  else
    let s := setCore s c { k with user := { k.user with pc := pc.toNat, hint := .none } }
    .next (userTrap c cause.toNat (impreciseCause cause.toNat) val s)

/-- IMPRECISE_TRAP_TAKE (R335): at the user context's boundary. -/
def execImpreciseTrapTake (c : Nat) (s : State) : Out :=
  let s := taken (.impreciseTrapTake c) s
  if !isCore c then .next s else
  let k := core s c
  if !userIssues k || k.supOn || k.user.imprecise.isEmpty || k.user.hint != Hint.none || k.user.midway then .next s
  else .next { takeImprecise { s with cur := c } with cur := s.cur }

/-- SUPERVISOR_TRAP (R336). -/
def execSupervisorTrap (c : Nat) (cause : BitVec 8) (pc : BitVec 16) (val : Word) (s : State) : Out :=
  let s := taken (.supervisorTrap c cause pc val) s
  if !isCore c then .next s else
  let k := core s c
  if !k.supOn || !trapCause cause.toNat then .next s
  else
    let s := setCore s c { k with sup := { k.sup with pc := pc.toNat, hint := .none } }
    .next (supTrap c cause.toNat (impreciseCause cause.toNat) val s)

/-- ACCOUNT_COUNTER_LIMIT (R155): of the resident context. -/
def execAccountCounterLimit (c : Nat) (s : State) : Out :=
  let s := taken (.accountCounterLimit c) s
  if !isCore c then .next s else
  match residentOf (core s c) with
  | some sup => .next (if counterFull (ctxOf s c sup) then commitAccounts c sup none s else s)
  | none => .next s

end Sys2Proof.Machine
end

