-- ==== Sys2Proof/Machine/Debugging.lean ====
section
/-! DEFINITION. What the debug port does (R362, R363, R366), the trace encoder's writes (R371) and the Dusk pulse (R373, R374). -/

namespace Sys2Proof.Machine

/-! ## The debug port -/

/-- An access of the debug port to a core: it wakes the core (R119). -/
def debugAccess (c : Nat) (s : State) : State := if portOpen s then wakeCore c s else s

/-- DEBUG_HALT_REQUEST (R362): at an instruction boundary. A word at the counter slice completes first; an arrival at a barrier that still
waits is withdrawn, as at a save. -/
def execDebugHaltRequest (c : Nat) (s : State) : Out :=
  let e : Event := .debugHaltRequest c
  let s := taken e s
  if !isCore c then .next s else
  let s := debugAccess c s
  let k := core s c
  if !portOpen s || !k.uload || k.killing || k.user.dbg.halted then .next s
  else if taken_ s k.user then .next (send e s)
  else .next (haltUser c 1 0 (withdraw c false s))

/-- A halted context goes on, as after an IFENCE, from bodies captured afresh (R183); its first word meets no instruction breakpoint
(R363). -/
def release (step : Bool) (x : Ctx) : Ctx := { x.recapture with stale := [], dbg := { x.dbg with halted := false, step := step, grace := true } }

/-- The debugger releases a halted context. -/
def releaseUser (c : Nat) (step : Bool) (s : State) : Out :=
  if !isCore c then .next s else
  let s := settle c (debugAccess c s)
  let k := core s c
  if portOpen s && k.uload && k.user.dbg.halted then .next (setCore s c { k with user := release step k.user }) else .next s

/-- DEBUG_RELEASE (R363). -/
def execDebugRelease (c : Nat) (s : State) : Out := releaseUser c false (taken (.debugRelease c) s)

/-- DEBUG_STEP (R363). -/
def execDebugStep (c : Nat) (s : State) : Out := releaseUser c true (taken (.debugStep c) s)

/-- DEBUG_PATCH_WRITE (R366): a write that names several stores is a separate store to each, in no promised order; a store takes the word once
its core has power, and LIM does not limit it. -/
def execDebugPatchWrite (cores : List Nat) (addr : Nat) (w : BitVec 32) (s : State) : Out :=
  let e : Event := .debugPatchWrite cores addr w
  let s := taken e s
  if !cores.all isCore then .next s
  else if !portOpen s then .next s
  else
    match cores with
    | [c] => .next (if powered (core s c) then writeStore c (addr / 4 * 4) w s else send e (wakeCore c s))
    | l => .next (l.foldl (fun s c => send (.debugPatchWrite [c] addr w) s) s)

/-! ## The trace encoder (R371) -/

/-- A record at the head of a context's encoder goes to the buffer, or is dropped. -/
def traceHead (c : Nat) (sup : Bool) (s : State) : State :=
  let x := ctxOf s c sup
  match x.dbg.enc with
  | [] => s
  | r :: t =>
    let q := writeTrace x.dbg.trbuf r (lostToCtx c x (bits x.dbg.trbuf 49 12 * 4096) 64 s)
    let x := ctxOf q.1 c sup
    setCtxOf q.1 c sup { x with dbg := { x.dbg with enc := t, trdrop := if q.2 then x.dbg.trdrop else Nat.min (2 ^ 32 - 1) (x.dbg.trdrop + 1) } }

/-- TRACE_RECORD_WRITE (R371). -/
def execTraceRecordWrite (c : Nat) (r : BitVec 64) (s : State) : Out :=
  let s := taken (.traceRecordWrite c r) s
  if !isCore c then .next s else
  let k := core s c
  if k.user.dbg.enc.head? = some r then .next (traceHead c false s)
  else if k.sup.dbg.enc.head? = some r then .next (traceHead c true s)
  else .next s

/-! ## The Dusk pulse (R373, R374) -/

/-- The state code of a cause of R153: issued, debug halt, trap handler, pre-emption drain, or waiting. -/
def duskCode (cause : Nat) : Nat :=
  if 2 ≤ cause && cause ≤ 4 then 0 else if cause = 0 then 2 else if cause = 6 then 3 else if cause = 1 then 4 else 1

/-- What a core latches at the start of T, of the cycle charged last (R158): CTX in bit 31, the state code in bits 30:28, the program counter
in bits 27:12 (DEDUCED, entry 17). -/
def duskLatch (k : Core) : Nat :=
  let none_ (code : Nat) : Nat := fld code 28 + fld 0xFFFF 12
  if k.mappedOut then none_ 7
  else
    match k.power, residentOf k with
    | .on, none => none_ 5
    | .on, some _ =>
      match k.charged with
      | some (pc, cause, sup) => fld (b2n sup) 31 + fld (duskCode cause) 28 + fld pc 12
      | none => fld (b2n k.supOn) 31 + fld 1 28 + fld (if k.supOn then k.sup.pc else k.user.pc) 12
    | _, _ => none_ 6

/-- The entries of a list of latched states: equal neighbours share one, at most 4,096 of them. -/
def duskEntries : List Nat → Option (Nat × Nat) → List Nat
  | [], none => []
  | [], some (v, n) => [v + n]
  | v :: t, none => duskEntries t (some (v, 0))
  | v :: t, some (w, n) => if v = w ∧ n < 4095 then duskEntries t (some (w, n + 1)) else (w + n) :: duskEntries t (some (v, 0))

/-- The snapshot record. -/
def duskRecord (s : State) : List Byte :=
  let l := duskEntries ((List.range 4208).map fun c => duskLatch (core s c)) none
  toBytes 8 (elapsedOn s 0 % 2 ^ 64) ++ toBytes 2 l.length ++ toBytes 2 4208 ++ toBytes 4 0 ++ l.flatMap (toBytes 4)

/-- Bytes written into a ring of `cap` bytes from an offset on. -/
def ringBytes (base cap : Nat) : Nat → List Byte → State → State
  | _, [], s => s
  | off, b :: t, s => ringBytes base cap (off + 1) t (homeWrite s (base + off % cap) [b])

/-- A record goes to the Dusk ring: the header counts bytes (entry 17). -/
def duskWrite (b : List Byte) (s : State) : State :=
  let base := s.mgmt.duskBase
  let cap := s.mgmt.duskPages * 4096 - 64
  if s.mgmt.duskPages = 0 then s
  else
    let s := lostToMgmt base 64 s
    let wr := homeRead s base 8
    if (wr + 2 ^ 64 - homeRead s (base + 8) 8) % 2 ^ 64 + b.length ≤ cap then
      homeWriteNat (ringBytes (base + 64) cap (wr % cap) b s) base 8 ((wr + b.length) % 2 ^ 64)
    else homeWriteNat s (base + 16) 4 (Nat.min (2 ^ 32 - 1) (homeRead s (base + 16) 4 + 1))

/-- The cycle T of a pulse passes at every core, in which KIND 5 holds (R370, R373). -/
def duskCycle (s : State) : State :=
  let s := s.cores.foldl (fun s p => settle p.1 s) s
  let now := s.elapsed + 1
  { s with elapsed := now, cores := s.cores.map fun p => (p.1, chargeCore p.2 0 1 none none none now true) }

/-- A pulse: every core latches at the start of one cycle; a pulse that meets a record still being written is dropped and counted. -/
def pulse (s : State) : State :=
  if s.mgmt.duskBusy && Config.duskBusy s.tick then
    duskCycle { s with mgmt := { s.mgmt with duskDropped := (s.mgmt.duskDropped + 1) % 2 ^ 32 } }
  else
    let s := duskWrite (duskRecord s) s
    duskCycle { s with mgmt := { s.mgmt with duskBusy := true } }

/-- DUSK_PULSE (R373). -/
def execDuskPulse (s : State) : Out := .next (pulse (taken .duskPulse s))

/-- DUSK_PERIOD_EXPIRY (R373): while a period is set, at the end of each. -/
def execDuskPeriodExpiry (s : State) : Out :=
  let t := taken .duskPeriodExpiry s
  .next (if s.mgmt.duskPeriod = 0 then t
    else if s.elapsed < s.mgmt.duskAt then s
    else send .duskPeriodExpiry (pulse { t with mgmt := { t.mgmt with duskAt := t.mgmt.duskAt + t.mgmt.duskPeriod } }))

end Sys2Proof.Machine
end

