-- ==== Sys2Proof/Machine/Saffron.lean ====
section
/-! DEFINITION. Saffron's messages (R102 to R108, R376), its choice of a task and of a place for it (R112 to R118), the start of an
instance (R117, R123) and of a fault handler (R342). -/

namespace Sys2Proof.Machine

/-! ## Messages (R102, R376) -/

/-- ACTIVE_MESSAGE_ENQUEUE (R376): a queue holds 256 messages. -/
def execActiveMessageEnqueue (d fn : Nat) (msg : BitVec 512) (s : State) : Out :=
  let s := taken (.activeMessageEnqueue d fn msg) s
  if 4 ≤ d ∨ 64 ≤ fn then .next s
  else
    let x := die s d
    let q := tget x.queues fn []
    .next (if q.length < 256 then setDie s d { x with queues := tset x.queues fn (q ++ [msg]) }
      else setFunc s fn { func s fn with drops := (func s fn).drops + 1 })

/-- Whether a message is the one that a queue's processing comes to next: not before its function is ready (R120), nor while a completion
record of the function is held (R376). -/
def headMsg (s : State) (d fn : Nat) (msg : BitVec 512) : Bool :=
  let f := func s fn
  f.ready && f.held.isEmpty && !(die s d).reset && (tget (die s d).queues fn []).head? == some msg

/-- The message at the head of a queue is done. -/
def popMsg (d fn : Nat) (s : State) : State :=
  let x := die s d
  setDie s d { x with queues := tset x.queues fn ((tget x.queues fn []).drop 1), asked := tdel x.asked fn }

/-- The message at the head of a queue waits for a page, which is asked for (R71). -/
def askPage (d fn : Nat) (g : Snapshot) (st2 : Bool) (addr vpage : Nat) (s : State) : State :=
  let s := saffronPage d g st2 addr vpage false (forgetPage d g vpage s)
  let x := die s d
  setDie s d { x with asked := tset x.asked fn vpage }

/-- The page that the message at the head of a queue waited for, where it has failed. -/
def askedFailed (s : State) (d fn : Nat) (g : Snapshot) : Option Nat := (tfind (die s d).asked fn).filter (pageFailed s d g)

/-- The message at the head of a queue is answered. -/
def answerMsg (d fn kind status id : Nat) (msg : BitVec 512) (s : State) : State :=
  complete fn (completionRecord kind status id (bits msg.toNat 63 32) 0 0 0 0) (popMsg d fn s)

/-- A message event: it acts where the message is next and its TYPE is the event's. -/
def onMessage (e : Event) (d fn : Nat) (msg : BitVec 512) (types : Nat → Bool) (f : State → State) (s : State) : Out :=
  let s := taken e s
  if 4 ≤ d ∨ 64 ≤ fn then .next s
  else .next (if headMsg s d fn msg && types (bits msg.toNat 7 0) then f s else s)

/-! ## LAUNCH (R103) -/

/-- The reserved bits of LAUNCH. -/
def launchReserved (v : Nat) : Bool :=
  bits v 383 308 != 0 || bits v 191 180 != 0 || bits v 127 114 != 0 || bits v 31 27 != 0 || bits v 15 8 != 0 ||
    (List.range 4).any fun j => bits v (384 + 32 * j + 31) (384 + 32 * j + 24) != 0 || bits v (384 + 32 * j + 15) (384 + 32 * j + 14) != 0

/-- The demands that a LAUNCH names: node, output and code. -/
def namedDemands (v : Nat) : List (Nat × Nat × Nat) :=
  (List.range (bits v 26 24)).map fun j =>
    let w := bits v (384 + 32 * j + 31) (384 + 32 * j)
    (bits w 11 0, bits w 13 12, bits w 23 16)

/-- Whether a named demand is of a sink node's output. -/
def namedOk (t : Template) (p : Nat × Nat × Nat) : Bool :=
  match t.nodes[p.1]? with
  | some n => n.succs.isEmpty && decide (p.2.1 < (sensOf t n).nout)
  | none => false

/-- The launch that a LAUNCH asks for, once its template is loaded. -/
def hostLaunch (s : State) (d fn v : Nat) (g : Snapshot) (t : Template) : Nat ⊕ Launch :=
  let c := bits v 255 224
  let f := bits v 223 192
  let dst := bits v 307 256
  let n := t.nodes.length * c
  if c = 0 ∨ 2 ^ 32 < f + c ∨ 2 ^ 24 < n then .inl 9
  else if !imagesOk s d fn t then .inl 13
  else if 4 < bits v 26 24 ∨ !(namedDemands v).all (namedOk t) ∨ dst % 4 ≠ 0 ∨ !storeWritable s d g dst (4 * n) then .inl 10
  else if !hasRoom s d n then .inl 11
  else .inr { id := freshLaunch s d, fn := fn, tag := bits v 63 32, snap := g, tpl := t, first := f, count := c, defdem := bits v 23 16
              dems := namedDemands v, dstore := dst }

/-- A LAUNCH is accepted: its record, its instances, its sweep. -/
def acceptLaunch (d fn : Nat) (msg : BitVec 512) (l : Launch) (s : State) : State :=
  admitLaunch d l (hostInsts s d l.id l) (answerMsg d fn 1 0 l.id msg s)

/-- A LAUNCH at the head of its queue: answered, or waiting there for a page; a page that has failed refuses it, and a template that it has
loaded is kept (R71). -/
def doLaunch (d fn : Nat) (msg : BitVec 512) (s : State) : State :=
  let v := msg.toNat
  let no (st : Nat) (s : State) : State := answerMsg d fn 1 st 0 msg s
  let s := if launchReserved v then s else lostToMgmt (bits v 113 64) 256 s
  let r := regionStatus s (some fn) (bits v 113 64)
  if launchReserved v then no 2 s
  else if r.1 ≠ 0 then no r.1 s
  else if overQuota s (bits v 113 64) then no 6 s
  else
    let s := noteLoad d r.2 (bits v 179 128) s
    match askedFailed s d fn r.2, loadTemplate s d r.2 (bits v 179 128) with
    | some p, _ => no 7 (forgetPage d r.2 p s)
    | none, .refuse st => no st s
    | none, .page st2 a p => askPage d fn r.2 st2 a p s
    | none, .ok t =>
      let s := storeTemplate d t s
      match hostLaunch s d fn v r.2 t with | .inl st => no st s | .inr l => acceptLaunch d fn msg l s

/-- LAUNCH (R103): an unknown TYPE is answered here as well (R102, R105). -/
def execLaunch (d fn : Nat) (msg : BitVec 512) (s : State) : Out :=
  onMessage (.launch d fn msg) d fn msg (fun t => !(2 ≤ t && t ≤ 5))
    (fun s => if bits msg.toNat 7 0 = 1 then doLaunch d fn msg s else answerMsg d fn 1 1 0 msg s) s

/-! ## CORESTART, CANCEL (R106, R107) -/

/-- A CORESTART at the head of its queue: a PC that is not a word's is answered RESERVED (DESIGN CHOICE, entry 109); it waits there while a
start of the core's user context is on its way. -/
def doCorestart (d fn : Nat) (msg : BitVec 512) (s : State) : State :=
  let v := msg.toNat
  let c := bits v 75 64
  let k := core s c
  if bits v 511 256 ≠ 0 ∨ bits v 127 96 ≠ 0 ∨ bits v 79 76 ≠ 0 ∨ bits v 31 8 ≠ 0 ∨ bits v 81 80 ≠ 0 then answerMsg d fn 3 2 0 msg s
  else if 2 ≤ fn then answerMsg d fn 3 15 0 msg s
  else
    match k.start with
    | some t => if t.sup then answerMsg d fn 3 12 0 msg s else s
    | none =>
      if k.supOn ∨ k.mappedOut then answerMsg d fn 3 12 0 msg s
      else
        let s := setCore s c { k with start := some { sup := true, pc := bits v 95 80, arg0 := bits v 191 128, arg1 := bits v 255 192,
                                                          clock := (die s d).vc } }
        answerMsg d fn 3 0 0 msg (send (.startMessage c) (wakeCore c s))

/-- CORESTART (R106). -/
def execCorestart (d fn : Nat) (msg : BitVec 512) (s : State) : Out :=
  onMessage (.corestart d fn msg) d fn msg (· == 2) (doCorestart d fn msg) s

/-- A CANCEL at the head of its queue, at the counter slice. -/
def doCancel (d fn : Nat) (msg : BitVec 512) (s : State) : State :=
  let v := msg.toNat
  let id := bits v 79 64
  if bits v 511 80 ≠ 0 ∨ bits v 31 8 ≠ 0 then answerMsg d fn 4 2 0 msg s
  else
    match launch s d id with
    | none => answerMsg d fn 4 14 0 msg s
    | some l => if l.fn ≠ fn then answerMsg d fn 4 15 0 msg s else cancelLaunch d id (answerMsg d fn 4 0 id msg s)

/-- CANCEL (R107). -/
def execCancel (d fn : Nat) (msg : BitVec 512) (s : State) : Out :=
  onMessage (.cancel d fn msg) d fn msg (· == 3) (doCancel d fn msg) s

/-! ## Images (R108) -/

/-- A bankdata run: slot, offset in the bank, bytes, offset from the object. -/
def runOf (r : Nat) : Nat × Nat × Nat × Nat := (bits r 5 0, bits r 31 16, bits r 47 32, bits r 127 64)

/-- Whether a run is well formed. -/
def runOk (r : Nat) : Bool :=
  bits r 63 48 == 0 && bits r 15 6 == 0 && decide (1 ≤ bits r 47 32 && bits r 47 32 ≤ 32768 && bits r 31 16 + bits r 47 32 ≤ 0x8000)

/-- The runs of an image object. -/
def runsOf (s : State) (a textlen bdn : Nat) : List Nat := (List.range bdn).map fun i => homeRead s (a + 64 + textlen + 16 * i) 16

/-- Whether an object's header fails a check. -/
def imageBad (s : State) (imgid a : Nat) : Bool :=
  let h := homeRead s a 64
  let tl := bits h 80 64
  let bdn := bits h 111 96
  decide (a % 64 ≠ 0 ∨ bits h 31 0 ≠ 0x4B494D47 ∨ bits h 47 32 ≠ imgid ∨ bits h 63 48 ≠ 0 ∨ bits h 95 81 ≠ 0 ∨ bits h 511 112 ≠ 0 ∨
      tl < 4 ∨ 65536 < tl ∨ tl % 4 ≠ 0 ∨ 4096 < bdn) || !physExtent s a 64 || !physExtent s a (64 + tl + 16 * bdn)

/-- The image that an object holds: none where its header or a run fails a check. -/
def readImage (s : State) (fn imgid a : Nat) : Option Image :=
  let h := homeRead s a 64
  let tl := bits h 80 64
  let bdn := bits h 111 96
  if imageBad s imgid a || !(runsOf s a tl bdn).all runOk then none
  else some { fn := fn, imgid := imgid, addr := a, textlen := tl, bdn := bdn, gen := s.nextId }

/-- What reading an object's header and runs finds lost (R220). -/
def noteImage (imgid a : Nat) (s : State) : State :=
  let h := homeRead s a 64
  let t := lostToMgmt a 64 s
  if imageBad s imgid a then t else lostToMgmt (a + 64 + bits h 80 64) (16 * bits h 111 96) t

/-- Whether a live launch of the die names an image. -/
def imageUsed (s : State) (d fn imgid : Nat) : Bool :=
  (die s d).launches.any fun l => l.fn == fn && l.tpl.nodes.any fun n => n.image == imgid

/-- The images of a die without one. -/
def dropImage (d fn imgid : Nat) (s : State) : State :=
  let x := die s d
  setDie s d { x with images := x.images.filter fun i => !(i.fn == fn && i.imgid == imgid) }

/-- An IMGREG at the head of its queue: a new generation is one that no core holds. -/
def doImgreg (d fn : Nat) (msg : BitVec 512) (s : State) : State :=
  let v := msg.toNat
  let id := bits v 79 64
  let old := (image s d fn id).isSome
  if bits v 511 178 ≠ 0 ∨ bits v 127 80 ≠ 0 ∨ bits v 31 8 ≠ 0 then answerMsg d fn 5 2 0 msg s
  else
    let s := noteImage id (bits v 177 128) s
    match readImage s fn id (bits v 177 128) with
    | none => answerMsg d fn 5 2 0 msg s
    | some i =>
      if old && imageUsed s d fn id then answerMsg d fn 5 16 0 msg s
      else if !old && decide (1024 ≤ (die s d).images.length) then answerMsg d fn 5 11 0 msg s
      else
        let s := dropImage d fn id s
        let x := die s d
        answerMsg d fn 5 0 0 msg { setDie s d { x with images := x.images ++ [i] } with nextId := s.nextId + 1 }

/-- IMGREG (R108). -/
def execImgreg (d fn : Nat) (msg : BitVec 512) (s : State) : Out :=
  onMessage (.imgreg d fn msg) d fn msg (· == 4) (doImgreg d fn msg) s

/-- An IMGDROP at the head of its queue (R102: the function that registered). -/
def doImgdrop (d fn : Nat) (msg : BitVec 512) (s : State) : State :=
  let v := msg.toNat
  let id := bits v 79 64
  if bits v 511 80 ≠ 0 ∨ bits v 31 8 ≠ 0 then answerMsg d fn 5 2 0 msg s
  else if (image s d fn id).isNone then
    answerMsg d fn 5 (if (die s d).images.any (fun i => i.imgid == id) then 15 else 14) 0 msg s
  else if imageUsed s d fn id then answerMsg d fn 5 16 0 msg s
  else answerMsg d fn 5 0 0 msg (dropImage d fn id s)

/-- IMGDROP (R108). -/
def execImgdrop (d fn : Nat) (msg : BitVec 512) (s : State) : Out :=
  onMessage (.imgdrop d fn msg) d fn msg (· == 5) (doImgdrop d fn msg) s

/-! ## Feasibility and cost (R115) -/

/-- What a placement needs: the die and region, the image, shape and size, fresh banks in all, the cluster that holds what is kept for it,
and the cores that count as idle although they are not (R118). -/
structure Need where
  die : Nat
  rcb : Nat
  img : Image
  shape : Nat
  size : Nat
  fresh : Nat
  only : List Nat := []
  extra : List Nat := []
deriving DecidableEq, Repr

/-- Whether a core is reserved for an instance that is being placed. -/
def reservedCore (s : State) (c : Nat) : Bool := (die s (dieOf c)).insts.any fun i => i.st == .placing && i.cores.contains c

/-- Whether a core is idle, as a placement needs it (R115, R334, R336, R355). -/
def idleCore (s : State) (c : Nat) : Bool :=
  let k := core s c
  !k.uload && !k.supOn && k.start.isNone && !k.mappedOut && !k.marked && !k.dead && !reservedCore s c

/-- Whether a core holds an image's current generation. -/
def holdsImage (s : State) (i : Image) (c : Nat) : Bool := (core s c).image == some (i.fn, i.imgid, i.gen)

/-- Whether a cluster has power. -/
def clusterOn (s : State) (cl : Nat) : Bool := match (cluster s cl).power with | .on => true | _ => false

/-- The order in which the cores of a cluster are preferred: those that hold the image, then those with power, then the lowest. -/
def corePref (s : State) (n : Need) (c : Nat) : Nat :=
  fld (b2n (!holdsImage s n.img c)) 14 + fld (b2n (!(powered (core s c) && clusterOn s (c / 64)))) 13 + c

/-- Puts a number into a rising list. -/
def insertNat (x : Nat) : List Nat → List Nat
  | [] => [x]
  | y :: t => if x ≤ y then x :: y :: t else y :: insertNat x t

/-- A list in rising order. -/
def sortNat (l : List Nat) : List Nat := l.foldr insertNat []

/-- The groups of cores of a cluster among which a shape stays: all, the quads, the groups. -/
def units (shape cl : Nat) : List (List Nat) :=
  let l := clusterCores cl
  match shape with
  | 0 => [l]
  | 1 => (List.range 16).map fun q => (l.drop (4 * q)).take 4
  | _ => (List.range 4).map fun g => (l.drop (16 * g)).take 16

/-- Whether a core that a pre-emption releases could take a placement then: in service, not to be retired (R118, R334, R355). -/
def releasable (k : Core) : Bool := !k.mappedOut && !k.marked && !k.dead

/-- The cores of a unit that a need may use (R115, R118), with LIM above the image (R334). -/
def unitIdle (s : State) (n : Need) (u : List Nat) : List Nat :=
  u.filter fun c => ((n.extra.contains c && releasable (core s c)) || idleCore s c) && decide (n.img.textlen ≤ (core s c).tlim)

/-- The cores that a unit gives, in rising order: none where it has too few. -/
def unitCores (s : State) (n : Need) (u : List Nat) : Option (List Nat) :=
  let l := unitIdle s n u
  if l.length < n.size then none else some (sortNat (((sortNat (l.map (corePref s n))).take n.size).map (· % 2 ^ 13)))

/-- The cost W + L of a choice of cores. -/
def placeCost (s : State) (n : Need) (cl : Nat) (l : List Nat) : Nat :=
  (if !clusterOn s cl then 2068 else if l.any (fun c => !powered (core s c)) then 188 else 0) +
    ceilDiv n.img.textlen 128 * (l.filter fun c => !holdsImage s n.img c).length

/-- The cores of a cluster that run. -/
def runningCores (s : State) (cl : Nat) : Nat := ((clusterCores cl).filter fun c => (residentOf (core s c)).isSome).length

/-- Whether a list comes before another. -/
def listLt : List Nat → List Nat → Bool
  | [], _ :: _ => true
  | x :: t, y :: u => decide (x < y) || (x == y && listLt t u)
  | _, [] => false

/-- The lesser of two keyed choices. -/
def lesser (a b : List Nat × List Nat) : List Nat × List Nat := if listLt b.1 a.1 then b else a

/-- Whether a cluster as a whole is feasible: the thermal limit (R385), what is kept for the instance, the region's budget, whatever the task
still needs (R66), and the fresh banks. -/
def clusterFits (s : State) (n : Need) (cl : Nat) : Bool :=
  n.only.all (· == cl) && !((die s n.die).thermal && (match (cluster s cl).power with | .off => true | _ => false)) &&
    withinBudget s cl n.fresh (some n.rcb) && (n.fresh == 0 || decide (n.fresh ≤ (freeBanks s cl).length))

/-- The choices of a cluster, keyed by cost, cores that run, cluster and cores. Among its quads or groups the least cost counts; the order
of R115 between cores that hold the image and cores that are powered holds within one of them (DESIGN CHOICE, entry 123). -/
def clusterChoices (s : State) (n : Need) (cl : Nat) : List (List Nat × List Nat) :=
  if clusterFits s n cl then
    (units n.shape cl).filterMap fun u => (unitCores s n u).map fun l => ([placeCost s n cl l, 64 - runningCores s cl, cl] ++ l, l)
  else []

/-- The placement of a need, where it has one (R115); nothing goes into the cluster held for a starved task (R112). -/
def placement (s : State) (n : Need) (hold : Option Nat) : Option (List Nat) :=
  match (List.range 16).flatMap (fun j => if hold = some (16 * n.die + j) then [] else clusterChoices s n (16 * n.die + j)) with
  | [] => none
  | p :: t => some (t.foldl lesser p).2

/-! ## What an instance needs -/

/-- The banks parked for an instance, with their slots. -/
def parkedBanks (s : State) (r : InstRef) : List (Nat × Nat) :=
  s.banks.filterMap fun p => match p.2.cond with | .parked j slot => if j = r then some (p.1, slot) else none | _ => none

/-- The clusters that hold the banks of a suspended instance. -/
def savedClusters (s : State) (l : List Nat) : List Nat :=
  l.filterMap fun a => (tfind s.areas a).bind fun p => if p.2.attach.any (fun q => q.2.valid) then clusterOf p.1 else none

/-- The need of an instance: none where its node or image is not to be found. -/
def needOf (s : State) (l : Launch) (i : Inst) : Option Need :=
  (nodeOf l i.ref.node).bind fun n => (image s i.ref.die l.fn n.image).map fun g =>
    let parked := parkedBanks s i.ref
    let base : Need := { die := i.ref.die, rcb := l.snap.rcb, img := g, shape := n.shape, size := n.size, fresh := 0 }
    if i.st = .suspended then { base with size := i.areas.length, only := savedClusters s i.areas }
    else { base with fresh := n.size * n.banks - (parked.filter fun p => p.2 < n.banks).length, only := parked.map (·.1 / 512) }

/-! ## Waiting (R112, R114) -/

/-- Whether an instance waits in a pool. -/
def Inst.pooled (i : Inst) : Bool := i.st == .ready || i.st == .suspended

/-- The cycles an instance has waited in all. -/
def Inst.waitedNow (now : Nat) (i : Inst) : Nat := if i.pooled then i.waited + (now - i.since) else i.waited

/-- STARVATION (R112). -/
def execStarvation (r : InstRef) (s : State) : Out :=
  let s := taken (.starvation r) s
  .next (onInst r (fun i => if i.pooled && decide (524288 ≤ i.waitedNow s.elapsed) then { i with starved := true } else i) s)

/-- The level that an instance has reached (R114). -/
def agedLevel (s : State) (i : Inst) : Nat :=
  match launch s i.ref.die i.ref.launch with
  | some l => Nat.min 7 (l.snap.prio + i.waitedNow s.elapsed / 65536)
  | none => i.prio

/-- PRIORITY_AGING (R114). -/
def execPriorityAging (r : InstRef) (s : State) : Out :=
  let s := taken (.priorityAging r) s
  .next (onInst r (fun i => if i.pooled then { i with prio := Nat.max i.prio (agedLevel s i) } else i) s)

/-! ## Whether an instance may be dispatched (R66, R67, R87, R98) -/

/-- Whether an instance is on its cores, or saved from them. -/
def Inst.dispatched (i : Inst) : Bool := i.st == .placing || i.st == .running || i.st == .suspended

/-- Whether a re-armed instance may run: every other successor on the cores waits in a re-demand on it (R98). A successor on several cores waits
as soon as one of its members does (DESIGN CHOICE, entry 122). -/
def rerunFree (s : State) (l : Launch) (i : Inst) : Bool :=
  (successors l i.ref).all fun q =>
    match inst s q with
    | some j => !j.dispatched || i.waiters.any fun w => w.1 == q.node
    | none => true

/-- Whether some producer of an instance is armed to run again: the instance is held back (R98). -/
def heldBack (s : State) (l : Launch) (i : Inst) : Bool :=
  (List.range l.tpl.nodes.length).any fun p =>
    (((nodeOf l p).map (·.succs)).getD []).contains i.ref.node && (match inst s { i.ref with node := p } with | some j => j.rearmed | none => false)

/-- The dispatch checks. -/
def dispatchable (s : State) (l : Launch) (i : Inst) : Bool :=
  i.word && mayDispatch s l.snap.rcb && (i.st == .suspended || ((!i.rearmed || rerunFree s l i) && !heldBack s l i))

/-- Where an instance could go now: none where it fails a check or fits nowhere. -/
def placeInst (s : State) (hold : Option Nat) (i : Inst) : Option (List Nat) :=
  (launch s i.ref.die i.ref.launch).bind fun l =>
    if dispatchable s l i then (needOf s l i).bind fun n => placement s n hold else none

/-! ## Choosing (R112, R113) -/

/-- Whether an instance comes before another in a pool: by ready time, number, node. -/
def earlier (a b : Inst) : Bool := listLt [a.ready, a.ref.n, a.ref.node] [b.ready, b.ref.n, b.ref.node]

/-- Puts an instance into its place. -/
def insertInst (x : Inst) : List Inst → List Inst
  | [] => [x]
  | y :: t => if earlier y x then y :: insertInst x t else x :: y :: t

/-- Instances in the order in which they are taken. -/
def sortInsts (l : List Inst) : List Inst := l.foldr insertInst []

/-- The first instance of a list that has a place. -/
def firstFit (s : State) (hold : Option Nat) : List Inst → Option (Inst × List Nat)
  | [] => none
  | i :: t => match placeInst s hold i with | some l => some (i, l) | none => firstFit s hold t

/-- The region of an instance. -/
def regionOf (s : State) (i : Inst) : Nat := ((launch s i.ref.die i.ref.launch).map (·.snap.rcb)).getD 0

/-- The weight of a region (R113). -/
def fairWeight (s : State) (rcb : Nat) : Nat :=
  let l := rcbChain s 4 rcb
  let bud := effField l 0 175 128
  if bud = 2 ^ 48 - 1 then 65535 else Nat.min 65535 (Nat.max 1 ((bud - homeRead s (rcb + 68) 6) / 2 ^ 24))

/-- A region's refill (R113). -/
def refill (s : State) (rcb : Nat) : State :=
  let w := fairWeight s rcb
  let s := setDeficit rcb (min (deficit s rcb + w * 1024) (w * 4096)) s
  homeWriteNat s (rcb + 80) 8 (setBits (homeRead s (rcb + 80) 8) 23 8 w)

/-- The regions of a pool's tasks, from the one after the last served. -/
def regionOrder (s : State) (d p : Nat) (l : List Inst) : List Nat :=
  let rs := sortNat ((l.map (regionOf s)).eraseDups)
  match tfind (die s d).served p with
  | some last => rs.filter (last < ·) ++ rs.filter (· ≤ last)
  | none => rs

/-- The first region with credit that has a task with a place. -/
def firstRegion (s : State) (hold : Option Nat) (l : List Inst) : List Nat → Option (Nat × Inst × List Nat)
  | [] => none
  | r :: t =>
    match (if 0 < deficit s r then firstFit s hold (l.filter fun i => regionOf s i == r) else none) with
    | some p => some (r, p)
    | none => firstRegion s hold l t

/-- The pools from priority `p` - 1 down: the choice, and the state with its refills (R113). -/
def choosePools (d : Nat) (hold : Option Nat) (all : List Inst) : Nat → State → State × Option (Inst × List Nat)
  | 0, s => (s, none)
  | p + 1, s =>
    let l := all.filter fun i => i.prio == p
    let rs := regionOrder s d p l
    let s := if rs.any (fun r => 0 < deficit s r) then s else rs.foldl refill s
    match firstRegion s hold l rs with
    | some (r, c) =>
      let x := die s d
      (setDie s d { x with served := tset x.served p r }, some c)
    | none => choosePools d hold all p s

/-- The further idle cores that a cluster would need for a task. -/
def lacking (s : State) (n : Need) (cl : Nat) : Nat := n.size - ((units n.shape cl).map fun u => (unitIdle s n u).length).foldl Nat.max 0

/-- The cluster of a die that lacks the fewest, the lowest of them; where a task's saved areas or parked banks bind it is not looked at (DESIGN
CHOICE, entry 126). -/
def holdFor (s : State) (n : Need) : Nat :=
  (List.range 16).foldl (fun b j => if lacking s n (16 * n.die + j) < lacking s n b then 16 * n.die + j else b) (16 * n.die)

/-- The cluster held for the oldest starved task, while it has no place, and that task (R112): the hold lasts for as long as the task is
the oldest one. -/
def starvedHold (s : State) (d : Nat) : List Inst → Option (Nat × InstRef)
  | [] => none
  | i :: _ =>
    match launch s i.ref.die i.ref.launch with
    | none => none
    | some l =>
      match needOf s l i with
      | none => none
      | some n =>
        if (placement s n none).isSome then none
        else
          match (die s d).holdCluster with
          | some cl => if (die s d).holdTask = some i.ref then some (cl, i.ref) else some (holdFor s n, i.ref)
          | none => some (holdFor s n, i.ref)

/-- A READY task that passes the dispatch checks remembers since when it has found no place (R118). -/
def markFit (s : State) (i : Inst) : Inst :=
  match i.st, launch s i.ref.die i.ref.launch with
  | .ready, some l =>
    if !dispatchable s l i then i
    else if ((needOf s l i).bind fun n => placement s n none).isSome then { i with failedPlace := none }
    else { i with failedPlace := i.failedPlace.orElse fun _ => some s.elapsed }
  | _, _ => i

/-- READY tasks remember since when they have found no place. -/
def markFits (d : Nat) (s : State) : State :=
  let x := die s d
  setDie s d { x with insts := x.insts.map (markFit s) }

/-! ## Dispatch (R73, R88 to R90, R113, R116, R117) -/

/-- The record numbers of an instance's operands. -/
def recordNumbers (n : Node) (num : Nat) : List Int := n.ops.map fun p => (p.1 : Int) + (num : Int) * p.2

/-- The lowest operand whose record number is outside the array. -/
def badRecord (recn : Nat) : Nat → List Int → Option (Nat × Int)
  | _, [] => none
  | j, p :: t => if p < 0 ∨ (recn : Int) ≤ p then some (j, p) else badRecord recn (j + 1) t

/-- The demand word of an instance in the demand store; Saffron's own where the store does not translate (DESIGN CHOICE, entry 108). -/
def storedDemand (s : State) (l : Launch) (i : Inst) : Nat :=
  match regionXlate s i.ref.die l.snap (demandAddr l i.ref % 2 ^ 52) true false with
  | .ok pa => homeRead s pa 4
  | .error _ => demandWord i.demand

/-- %demand from a word (R88). -/
def demandReg (w : Nat) : Nat := w % 2 ^ 32 + fld (nodeDemand [bits w 7 0, bits w 15 8, bits w 23 16, bits w 31 24]) 32

/-- %share (R89). -/
def shareReg (e : Sens) (t : Nat) : Nat :=
  ((List.range 6).map fun j => match e.ins[j]? with | some w => fld (inputShare t w.wgt w.sig) (8 * j) | none => 0).sum

/-- %ownshr (R90). -/
def ownReg (e : Sens) (d : List Nat) : Nat :=
  ((List.range 4).map fun o => if o < e.nout then fld (ownShare (d.getD o 0) e.own) (8 * o) else 0).sum

/-- The rows of an instance: those of its tile, or all 32 (R109). -/
def rowsOf (l : Launch) (num : Nat) : Nat × Nat :=
  match l.tiles.find? fun t => t.1 == num with
  | some t => (t.2.1, t.2.2)
  | none => (0, 32)

/-- A member's place in its instance (R116). -/
def roleOf (shape rank : Nat) (cores : List Nat) : Role :=
  if shape = 2 then (if rank = 0 then .leader (cores.drop 1) else .attached (cores.headD 0)) else .single

/-- k1 to k6 of an instance (R73). -/
def recordRegs (recbase : Nat) (ps : List Int) : AList Reg :=
  (List.range ps.length).foldl (fun l j => tset l (j + 1) { val := toWord (recbase + 64 * ps.getD j 0) }) []

/-- The context of a member as it starts. -/
def newMember (s : State) (l : Launch) (n : Node) (i : Inst) (rank : Nat) (cores : List Nat) : Ctx :=
  let e := sensOf l.tpl n
  let rows := rowsOf l i.ref.n
  { pc := n.entry % 65536, regs := recordRegs l.tpl.recbase (recordNumbers n i.ref.n), instN := i.ref.n, node := i.ref.node, rank := rank
    trow0 := rows.1 % 2 ^ 32, trows := rows.2, demand := demandReg (storedDemand s l i), share := shareReg e (nodeDemand i.demand)
    ownshr := ownReg e i.demand, region := some l.snap, inst := some i.ref, role := roleOf n.shape rank cores }

/-- The user context that is on its way to a core. -/
def startCtx (s : State) (c : Nat) : Ctx := ((core s c).start.bind (·.ctx)).getD {}

/-- Writes an entry of the context on its way to a core, and its bank's attachment. -/
def startEntry (c slot gb : Nat) (rcb : Nat) (e : Entry) (s : State) : State :=
  let k := core s c
  let x := startCtx s c
  let s := setCore s c { k with start := k.start.map fun t => { t with ctx := some { x with attach := tset x.attach slot e } } }
  holdBy gb (holderKey c false) (some rcb) s

/-- The banks parked for an instance go to its first member (R117 step 3). -/
def takeParked (c rcb : Nat) : List (Nat × Nat) → State → State
  | [], s => s
  | (gb, slot) :: t, s =>
    let b := bankAt s gb
    takeParked c rcb t (startEntry c slot gb rcb { perm := b.perm, cls := b.cls, valid := true, bank := gb % 512 } s)

/-- Fresh banks at every slot below `n` that no parked bank occupies (R117 step 4). -/
def takeFresh (c rcb : Nat) : List Nat → State → State
  | [], s => s
  | slot :: t, s =>
    if (entry (startCtx s c) slot).valid then takeFresh c rcb t s
    else
      match freshBank s c (c / 64) with
      | some b => takeFresh c rcb t (startEntry c slot (512 * (c / 64) + b) rcb { perm := 15, valid := true, bank := b } s)
      | none => takeFresh c rcb t s

/-- The members of an instance are reserved, each with its context and its banks. -/
def reserve (l : Launch) (n : Node) (i : Inst) (cores : List Nat) (s : State) : State :=
  let s := noteExtent i.ref.die l.snap (demandAddr l i.ref) 4 s
  let s := (cores.zip (List.range cores.length)).foldl (fun s p =>
    setCore s p.1 { core s p.1 with start := some { sup := false, pc := n.entry, ctx := some (newMember s l n i p.2 cores) } }) s
  let s := takeParked (cores.headD 0) l.snap.rcb (parkedBanks s i.ref) s
  cores.foldl (fun s c => takeFresh c l.snap.rcb (List.range n.banks) s) s

/-- An instance is blocked: its record check failed (R73). -/
def blockInst (l : Launch) (i : Inst) (j : Nat) (p : Int) (s : State) : State :=
  let now := s.elapsed
  let val := BitVec.ofNat 128 (j + fld (wrap 64 p) 64)
  let s := onInst i.ref (fun i => { i with waited := i.waitedNow now, st := .blocked }) s
  domainLog i.ref.die l.snap (record 0x62 false i.ref.n i.ref.node l.id 0 0xFFFF (elapsedOn s i.ref.die) val) s

/-- An instance is placed on cores. -/
def toPlacing (l : Launch) (i : Inst) (cores : List Nat) (s : State) : State :=
  let now := s.elapsed
  send (.instanceStart i.ref) (onInst i.ref (fun i =>
    { i with waited := i.waitedNow now, starved := false, failedPlace := none, prio := l.snap.prio, st := .placing, cores := cores, disp := now }) s)

/-- A chosen task is dispatched. -/
def dispatch (i : Inst) (cores : List Nat) (s : State) : State :=
  match (launch s i.ref.die i.ref.launch).bind (fun l => (nodeOf l i.ref.node).map fun n => (l, n)) with
  | none => s
  | some (l, n) =>
    if i.st = .suspended then toPlacing l i cores s
    else
      match badRecord l.tpl.recn 0 (recordNumbers n i.ref.n) with
      | some (j, p) => blockInst l i j p (setDeficit l.snap.rcb (deficit s l.snap.rcb - 1024) s)
      | none => toPlacing l i cores (reserve l n i cores (setDeficit l.snap.rcb (deficit s l.snap.rcb - 1024) s))

/-- TASK_SELECT (R112): the starved queue first, then the pools. -/
def execTaskSelect (d : Nat) (s : State) : Out :=
  let s := taken (.taskSelect d) s
  if 4 ≤ d then .next s else
  if (die s d).reset then .next s else
  let s := markFits d s
  let all := sortInsts ((die s d).insts.filter Inst.pooled)
  let starved := all.filter (·.starved)
  let held := starvedHold s d starved
  let hold := held.map (·.1)
  let s := setDie s d { die s d with holdCluster := hold, holdTask := held.map (·.2) }
  let oldest := (starved.head?).bind fun i => (placeInst s none i).map fun l => (i, l)
  match oldest.orElse (fun _ => firstFit s hold (starved.drop 1)) with
  | some (i, l) => .next (dispatch i l s)
  | none =>
    match choosePools d hold (all.filter fun i => !i.starved) 8 s with
    | (s, some (i, l)) => .next (dispatch i l s)
    | (s, none) => .next s

/-! ## Starting (R117, R123) -/

/-- Words of a store from bytes. -/
def loadWords (c : Nat) : Nat → List Byte → State → State
  | a, b0 :: b1 :: b2 :: b3 :: t, s => loadWords c (a + 4) t (writeStore c a (BitVec.ofNat 32 (ofBytes [b0, b1, b2, b3])) s)
  | _, _, s => s

/-- An image reaches a core's store, unless the core holds it (R117 step 2); the object is read as it stands now (R108),
at the length registered (DEDUCED, entry 111). `g`: the region that it is loaded for. -/
def loadImage (g : Snapshot) (i : Image) (s : State) (c : Nat) : State :=
  if holdsImage s i c then s
  else
    let s := loadWords c 0 (homeBytes s (i.addr + 64) i.textlen) (lostToRegion (dieOf c) g (i.addr + 64) i.textlen s)
    setCore s c { core s c with image := some (i.fn, i.imgid, i.gen) }

/-- A bankdata run is written for the members: the cores left are those still to be served; none where a slot holds no bank. -/
def bankdataRun (addr : Nat) (r : Nat × Nat × Nat × Nat) : List Nat → State → Option State
  | [], s => some s
  | c :: t, s =>
    let e := entry (startCtx s c) r.1
    if !e.valid then none
    else
      let b := homeBytes s (addr + r.2.2.2) r.2.2.1
      let p : Place := .bank (bankPlace (bankOf c e.bank) r.2.1)
      bankdataRun addr r t (noteWriteBy (dieOf c) (Config.saffronSource.1 % 4096) (Config.saffronSource.2 % 4) p b.length (putPlace p b s))

/-- The bankdata runs of an image: the index of the run that failed and its slot (R117 step 5). -/
def bankdataRuns (addr : Nat) (cores : List Nat) : Nat → List Nat → State → State × Option (Nat × Nat)
  | _, [], s => (s, none)
  | k, r :: t, s =>
    match bankdataRun addr (runOf r) cores s with
    | some s => bankdataRuns addr cores (k + 1) t s
    | none => (s, some (k, (runOf r).1))

/-- What reading an image's runs and their data finds lost (R220). -/
def noteBankdata (p : Snapshot) (g : Image) (i : Inst) (s : State) : State :=
  (runsOf s g.addr g.textlen g.bdn).foldl (fun s r => lostToRegion i.ref.die p (g.addr + (runOf r).2.2.2) (runOf r).2.2.1 s)
    (lostToRegion i.ref.die p (g.addr + 64 + g.textlen) (16 * g.bdn) s)

/-- An instance whose bankdata names an empty slot is FAULTED: its cores and banks are released. -/
def failStart (l : Launch) (i : Inst) (g : Image) (k slot : Nat) (s : State) : State :=
  let val := BitVec.ofNat 128 (slot + fld k 16 + fld g.imgid 48)
  let s := domainLog i.ref.die l.snap (record 0x69 false i.ref.n i.ref.node l.id (coreName (i.cores.headD 0)) 0xFFFF (elapsedOn s i.ref.die) val) s
  let s := (i.cores.foldl abandonCore s)
  endLaunch i.ref.die l.id (faultInst i.ref s)

/-- A start message carries the clock of its die as it is sent (R295). -/
def stampStart (d : Nat) (s : State) (c : Nat) : State :=
  let k := core s c
  setCore s c { k with start := k.start.map fun t => { t with clock := (die s d).vc } }

/-- A placed instance, its cores awake: its image is loaded, its bankdata written, and its start message sent. -/
def startPlaced (l : Launch) (g : Image) (i : Inst) (s : State) : State :=
  let s := i.cores.foldl (loadImage l.snap g) s
  if !i.areas.isEmpty then (i.cores.zip i.areas).foldl (fun s p => send (.contextRestore p.1 p.2) s) s
  else
    let s := noteBankdata l.snap g i s
    match bankdataRuns g.addr i.cores 0 (runsOf s g.addr g.textlen g.bdn) s with
    | (s, some (k, slot)) => failStart l i g k slot s
    | (s, none) => send (.startMessage (i.cores.headD 0)) (i.cores.foldl (stampStart i.ref.die) s)

/-- INSTANCE_START (R117). -/
def execInstanceStart (r : InstRef) (s : State) : Out :=
  let s := taken (.instanceStart r) s
  match inst s r with
  | none => .next s
  | some i =>
    match (launch s r.die r.launch).bind (fun l => (nodeOf l r.node).bind fun n => (image s r.die l.fn n.image).map fun g => (l, g)) with
    | none => .next s
    | some (l, g) =>
      .next (if i.st ≠ .placing then s
        else if i.cores.all (fun c => powered (core s c)) then startPlaced l g i s
        else send (.instanceStart r) (i.cores.foldl (fun s c => wakeCore c s) s))

/-- Nothing of an earlier supervisor context of a core awaits anything any more. -/
def forgetSup (c : Nat) : Event → Event
  | .messageArrival m => .messageArrival (if m.src = c ∧ m.sup then { m with reg := 64 } else m)
  | .taggedMessageArrival m => .taggedMessageArrival (if m.src = c ∧ m.sup then { m with reg := 64 } else m)
  | .msndAccept r => .msndAccept (if r.src = c ∧ r.sup then { r with pc := 65536 } else r)
  | .chainLineArrival l => .chainLineArrival (if l.lead = c ∧ l.sup then { l with reg := 64 } else l)
  | .handoverRequest r => .handoverRequest (if r.core = c ∧ r.sup then { r with reg := 0 } else r)
  | .handoverAnswer a => .handoverAnswer (if a.req.core = c ∧ a.req.sup then { a with req := { a.req with reg := 0 } } else a)
  | e => e

/-- The banks of an idle supervisor return to the pool, where no other context shares them. -/
def returnSupBanks (c : Nat) (s : State) : State :=
  (core s c).sup.attach.foldl (fun s p =>
    if p.2.valid then endAttachment c true p.1 1 s else s) s

/-- A core whose supervisor context is new (R106, R147), with its arguments. The trap registers of a user context whose trap is pending, and
the generator that a loaded user context uses, are left (entry 103). -/
def Core.freshSup (c : Nat) (t : Start) (k : Core) : Core :=
  let x : Ctx := { pc := t.pc % 65536, regs := (setReg (setReg {} 1 { val := zext 64 t.arg0 }) 2 { val := zext 64 t.arg1 }).regs }
  let mine := k.uload && k.pendT
  { k with
    sup := x, supOn := true, start := none, tvec := 0, tlim := 0x10000, stcause := 0, stpc := 0, stval := 0, spend := false
    smap := false, smapOld := none, dtidx := 0, repShadow := none, dead := false
    niq := k.niq.map fun m => if m.src = c ∧ m.sup then { m with reg := 64 } else m
    tcause := if mine then k.tcause else 0, tpc := if mine then k.tpc else 0, tval := if mine then k.tval else 0, pendT := mine
    rseed := if k.uload then k.rseed else 1 }

/-- A supervisor context starts (R106). -/
def startSup (c : Nat) (t : Start) (s : State) : State :=
  let s := returnSupBanks c (withdraw c true (commitAccounts c true none (flushTrace c true s)))
  let s := { s with accesses := s.accesses.filter (fun a => !(a.core == c && a.sup))
                    flight := (s.flight.filter fun e => match e with
                      | .tspawnExpansion r => !(r.core == c && r.sup)
                      | .txCommit c' => !(c' == c && !(core s c).user.midway)
                      | _ => true).map (forgetSup c) }
  setCore s c ((core s c).freshSup c t)

/-- A fault handler's image reaches its core (R342). It starts with no bank, and bankdata runs of its image are not written (DESIGN CHOICE,
entry 117). -/
def loadHandler (c : Nat) (x : Ctx) (s : State) : State :=
  match x.handler, x.region with
  | some _, some g => match image s (dieOf c) (funcOf g.vf g.pfn) g.fhimg with | some i => loadImage g i s c | none => s
  | _, _ => s

/-- A user context starts on its core, as a new context (R147); the start message's clock merges into its die's (R295). -/
def startUser (s : State) (c : Nat) : State :=
  let s := commitSup c (loadHandler c (startCtx s c) s)
  let s := mergeClock (dieOf c) (((core s c).start.map (·.clock)).getD []) s
  let k := core s c
  setCore s c { k with user := startCtx s c, uload := true, udisp := true, start := none, umap := false, killing := false, preempt := false, fwd := none
                       fwdh := [], pendT := false, walkFail := none, tcause := 0, tpc := 0, tval := 0, rseed := (startCtx s c).rseed }

/-- Whether a remote store of the host to a core is still on its way. -/
def storeComing (s : State) (c : Nat) : Bool := s.flight.any fun e => match e with | .istoreHostWrite _ c' _ _ => c' == c | _ => false

/-- START_MESSAGE (R123): after the stores sent before it, at cores with power; the members of an instance start together. -/
def execStartMessage (c : Nat) (s : State) : Out :=
  let e : Event := .startMessage c
  let s := taken e s
  if !isCore c then .next s else
  match (core s c).start with
  | none => .next s
  | some t =>
    if t.sup then
      if !powered (core s c) then .next (send e (wakeCore c s))
      else if storeComing s c then .next (send e s)
      else .next (startSup c t (mergeClock (dieOf c) t.clock (settle c s)))
    else
      let members := match (t.ctx.bind (·.inst)).bind (inst s) with | some i => i.cores | none => [c]
      if !members.all (fun m => powered (core s m)) then .next (send e (members.foldl (fun s m => wakeCore m s) s))
      else
        let s := members.foldl startUser s
        .next (match t.ctx.bind (·.inst) with
          | some r => onInst r (fun i => { i with st := .running, disp := s.elapsed }) s
          | none => s)

/-! ## Pre-emption (R118) -/

/-- Whether a running instance may make way for a task of priority `p`. -/
def victimOk (s : State) (n : Need) (p : Nat) (v : Inst) : Bool :=
  v.st == .running && decide (v.prio + 2 ≤ p) && !v.cores.any (fun c => (core s c).preempt || (core s c).killing) && (takeAreas v s).isSome &&
    (placement s { n with extra := v.cores } none).isSome

/-- The lower priority, and of those the latest dispatched. -/
def victimBetter (a b : Inst) : Inst := if b.prio < a.prio ∨ (b.prio = a.prio ∧ a.disp < b.disp) then b else a

/-- The instance that makes way for a task. -/
def victimFor (s : State) (i : Inst) : Option Inst :=
  (launch s i.ref.die i.ref.launch).bind fun l => (needOf s l i).bind fun n =>
    match (die s i.ref.die).insts.filter (victimOk s n i.prio) with
    | [] => none
    | v :: t => some (t.foldl victimBetter v)

/-- The tasks that have found no place for 4,096 cycles, in order. -/
def longUnplaced (s : State) (d : Nat) : List Inst :=
  sortInsts ((die s d).insts.filter fun i => i.st == .ready && (match i.failedPlace with | some t => decide (t + 4096 ≤ s.elapsed) | none => false))

/-- PREEMPT_DECISION (R118): the request goes to the instance, whose areas are taken now; the task's time counts afresh. -/
def execPreemptDecision (d : Nat) (s : State) : Out :=
  let s := taken (.preemptDecision d) s
  if 4 ≤ d then .next s else
  match (longUnplaced s d).find? (fun i => (victimFor s i).isSome) with
  | none => .next s
  | some i =>
    match victimFor s i with
    | none => .next s
    | some v =>
      let now := s.elapsed
      let s := onInst i.ref (fun i => { i with failedPlace := some now }) ((takeAreas v s).getD s)
      .next (send (.preemption (v.cores.headD 0)) (v.cores.foldl (setPreempt true) s))

/-! ## Fault handlers (R342) -/

/-- The snapshot of a handler: of the region whose block supplies the fault domain. -/
def handlerSnap (s : State) (g : Snapshot) : Snapshot :=
  match ovrBlock (rcbChain s 4 g.rcb) 4 with
  | some p => { resolveSnap (rcbChain s 4 p.1) with fhimg := g.fhimg, fhent := g.fhent, flog := g.flog, flogn := g.flogn, prio := 7 }
  | none => { g with prio := 7 }

/-- The context of a handler as it starts. -/
def handlerCtx (g : Snapshot) (wr : Nat) : Ctx :=
  { pc := g.fhent / 4 * 4, node := 0xFFF, instN := wr, region := some g, handler := some g.flog,
    regs := setReg (setReg {} 1 { val := BitVec.ofNat 128 g.flog }) 2 { val := BitVec.ofNat 128 wr } |>.regs }

/-- FAULT_HANDLER_START (R342): it stays under way while no core or image can be had. -/
def execFaultHandlerStart (d flog : Nat) (s : State) : Out :=
  let e : Event := .faultHandlerStart d flog
  let s := taken e s
  if 4 ≤ d then .next s else
  match (tfind (die s 0).domains flog : Option Domain) with
  | none => .next s
  | some m =>
    let wr := homeRead s flog 8
    if m.running ∨ wr ≤ m.covered then .next s
    else
      let g := handlerSnap s m.snap
      match image s d (funcOf g.vf g.pfn) g.fhimg with
      | none => .next (send e s)
      | some i =>
        match placement s { die := d, rcb := g.rcb, img := i, shape := 0, size := 1, fresh := 0 } (die s d).holdCluster with
        | some (c :: _) =>
          let x := die s 0
          let s := setDie s 0 { x with domains := tset x.domains flog { m with covered := wr, running := true } }
          let s := wakeCore c s
          .next (send (.startMessage c) (setCore s c { core s c with start := some { sup := false, pc := g.fhent, ctx := some (handlerCtx g wr), clock := (die s d).vc } }))
        | _ => .next (send e s)

end Sys2Proof.Machine
end

