-- ==== Sys2Proof/Machine/Security.lean ====
section
/-! DEFINITION. The security instructions of the Nolorn core (R388 to R390, R393). The algorithms that the spec names without giving them
are those of their standards: SM3 (GB/T 32905), SM2 on its recommended curve (GB/T 32918), SM4 (GB/T 32907) in the XTS form of IEEE 1619
(entry 18). -/

namespace Sys2Proof.Machine

/-! ## SM3 -/

/-- A 32-bit word from four bytes, the first the most significant. -/
def word32 (l : List Byte) : BitVec 32 := BitVec.ofNat 32 (ofBytesBE l)

/-- The four bytes of a 32-bit word, the most significant first. -/
def word32Bytes (w : BitVec 32) : List Byte := (toBytes 4 w.toNat).reverse

/-- The permutations of SM3. -/
def sm3P0 (x : BitVec 32) : BitVec 32 := x ^^^ x.rotateLeft 9 ^^^ x.rotateLeft 17
def sm3P1 (x : BitVec 32) : BitVec 32 := x ^^^ x.rotateLeft 15 ^^^ x.rotateLeft 23

/-- The message expansion of SM3, newest word first. -/
def sm3Expand : Nat → List (BitVec 32) → List (BitVec 32)
  | 0, l => l
  | n + 1, l =>
    let w (i : Nat) : BitVec 32 := l.getD (i - 1) 0
    sm3Expand n ((sm3P1 (w 16 ^^^ w 9 ^^^ (w 3).rotateLeft 15) ^^^ (w 13).rotateLeft 7 ^^^ w 6) :: l)

/-- The eight working words of SM3. -/
structure Sm3 where
  a : BitVec 32
  b : BitVec 32
  c : BitVec 32
  d : BitVec 32
  e : BitVec 32
  f : BitVec 32
  g : BitVec 32
  h : BitVec 32
deriving DecidableEq, Repr

/-- One round of SM3, on W[j] and W[j + 4]. -/
def sm3Round (j : Nat) (w w4 : BitVec 32) (v : Sm3) : Sm3 :=
  let t : BitVec 32 := if j < 16 then 0x79CC4519 else 0x7A879D8A
  let ss1 := (v.a.rotateLeft 12 + v.e + t.rotateLeft (j % 32)).rotateLeft 7
  let ss2 := ss1 ^^^ v.a.rotateLeft 12
  let ff := if j < 16 then v.a ^^^ v.b ^^^ v.c else (v.a &&& v.b) ||| (v.a &&& v.c) ||| (v.b &&& v.c)
  let gg := if j < 16 then v.e ^^^ v.f ^^^ v.g else (v.e &&& v.f) ||| (~~~v.e &&& v.g)
  ⟨ff + v.d + ss2 + (w ^^^ w4), v.a, v.b.rotateLeft 9, v.c, sm3P0 (gg + v.h + ss1 + w), v.e, v.f.rotateLeft 19, v.g⟩

/-- The rounds of SM3 over the expanded words. -/
def sm3Rounds : Nat → Nat → List (BitVec 32) → Sm3 → Sm3
  | 0, _, _, v => v
  | n + 1, j, w, v => sm3Rounds n (j + 1) (w.drop 1) (sm3Round j (w.headD 0) (w.getD 4 0) v)

/-- One block of SM3. -/
def sm3Block (b : List Byte) (v : Sm3) : Sm3 :=
  let w := ((List.range 16).map fun i => word32 ((b.drop (4 * i)).take 4)).reverse
  let r := sm3Rounds 64 0 (sm3Expand 52 w).reverse v
  ⟨r.a ^^^ v.a, r.b ^^^ v.b, r.c ^^^ v.c, r.d ^^^ v.d, r.e ^^^ v.e, r.f ^^^ v.f, r.g ^^^ v.g, r.h ^^^ v.h⟩

/-- The blocks of a padded message. -/
def sm3Blocks : Nat → List Byte → Sm3 → Sm3
  | 0, _, v => v
  | n + 1, b, v => sm3Blocks n (b.drop 64) (sm3Block (b.take 64) v)

/-- The SM3 digest of a message: 32 bytes, the first first. -/
def sm3 (m : List Byte) : List Byte :=
  let pad := m ++ [0x80] ++ List.replicate ((119 - m.length % 64) % 64) 0 ++ (toBytes 8 (8 * m.length)).reverse
  let v := sm3Blocks (pad.length / 64) pad
    ⟨0x7380166F, 0x4914B2B9, 0x172442D7, 0xDA8A0600, 0xA96F30BC, 0x163138AA, 0xE38DEE4D, 0xB0FB0E4E⟩
  [v.a, v.b, v.c, v.d, v.e, v.f, v.g, v.h].flatMap word32Bytes

/-! ## SM2 -/

def sm2P : Nat := 0xFFFFFFFEFFFFFFFFFFFFFFFFFFFFFFFFFFFFFFFF00000000FFFFFFFFFFFFFFFF
def sm2A : Nat := 0xFFFFFFFEFFFFFFFFFFFFFFFFFFFFFFFFFFFFFFFF00000000FFFFFFFFFFFFFFFC
def sm2N : Nat := 0xFFFFFFFEFFFFFFFFFFFFFFFFFFFFFFFF7203DF6B21C6052B53BBF40939D54123
def sm2G : Nat × Nat :=
  (0x32C4AE2C1F1981195F9904466A39C9948FE30BBFF2660BE1715A4589334C74C7,
   0xBC3736A2F4F6779C59BDCEE36B692153D0A9877CC62A474002DF32E52139F0A0)

/-- A power modulo `m`, over the low `n` bits of the exponent. -/
def powMod (m b e : Nat) : Nat → Nat
  | 0 => 1
  | n + 1 =>
    let r := powMod m b (e / 2) n
    r * r % m * (if e % 2 = 1 then b else 1) % m

/-- The inverse modulo a 256-bit prime. -/
def invMod (m x : Nat) : Nat := powMod m (x % m) (m - 2) 256

/-- The sum of two points of the curve; none is the point at infinity. -/
def pointAdd : Option (Nat × Nat) → Option (Nat × Nat) → Option (Nat × Nat)
  | none, q => q
  | p, none => p
  | some (x1, y1), some (x2, y2) =>
    if x1 = x2 ∧ (y1 + y2) % sm2P = 0 then none
    else
      let l := if x1 = x2 then (3 * x1 * x1 + sm2A) * invMod sm2P (2 * y1) % sm2P
        else (y2 + sm2P - y1) * invMod sm2P (x2 + sm2P - x1) % sm2P
      let x3 := (l * l + 2 * sm2P - x1 - x2) % sm2P
      some (x3, (l * (x1 + sm2P - x3) + sm2P - y1) % sm2P)

/-- A multiple of a point, by the low `n` bits of the scalar. -/
def pointMul (p : Option (Nat × Nat)) (k : Nat) : Nat → Option (Nat × Nat)
  | 0 => none
  | n + 1 =>
    let q := pointMul p (k / 2) n
    let d := pointAdd q q
    if k % 2 = 1 then pointAdd d p else d

/-- The SM2 signature of digest `e` under private key `d`, the nonce being SM3(key, e) and from the second try on a counter byte (R389). -/
def sm2Sign (key e : List Byte) : Nat → Nat → Option (List Byte)
  | 0, _ => none
  | n + 1, c =>
    let d := ofBytesBE key
    let k := ofBytesBE (sm3 (key ++ e ++ (if c = 0 then [] else [BitVec.ofNat 8 c])))
    let r := (ofBytesBE e + ((pointMul (some sm2G) k 256).map (·.1)).getD 0) % sm2N
    let t := invMod sm2N (1 + d) * (k + sm2N - r * d % sm2N) % sm2N
    if k = 0 ∨ sm2N ≤ k ∨ r = 0 ∨ r + k = sm2N ∨ t = 0 then sm2Sign key e n (c + 1)
    else some ((toBytes 32 r).reverse ++ (toBytes 32 t).reverse)

/-- Whether an SM2 signature of digest `e` verifies with a public key. -/
def sm2Verify (pub : Nat × Nat) (e r s : List Byte) : Bool :=
  let r := ofBytesBE r
  let s := ofBytesBE s
  let t := (r + s) % sm2N
  if r = 0 ∨ sm2N ≤ r ∨ s = 0 ∨ sm2N ≤ s ∨ t = 0 then false
  else
    match pointAdd (pointMul (some sm2G) s 256) (pointMul (some pub) t 256) with
    | some (x, _) => (ofBytesBE e + x) % sm2N == r
    | none => false

/-! ## SM4 in XTS form -/

/-- The substitution box of SM4. -/
def sm4Box : List Nat :=
  [0xd6, 0x90, 0xe9, 0xfe, 0xcc, 0xe1, 0x3d, 0xb7, 0x16, 0xb6, 0x14, 0xc2, 0x28, 0xfb, 0x2c, 0x05,
   0x2b, 0x67, 0x9a, 0x76, 0x2a, 0xbe, 0x04, 0xc3, 0xaa, 0x44, 0x13, 0x26, 0x49, 0x86, 0x06, 0x99] ++
  [0x9c, 0x42, 0x50, 0xf4, 0x91, 0xef, 0x98, 0x7a, 0x33, 0x54, 0x0b, 0x43, 0xed, 0xcf, 0xac, 0x62,
   0xe4, 0xb3, 0x1c, 0xa9, 0xc9, 0x08, 0xe8, 0x95, 0x80, 0xdf, 0x94, 0xfa, 0x75, 0x8f, 0x3f, 0xa6] ++
  [0x47, 0x07, 0xa7, 0xfc, 0xf3, 0x73, 0x17, 0xba, 0x83, 0x59, 0x3c, 0x19, 0xe6, 0x85, 0x4f, 0xa8,
   0x68, 0x6b, 0x81, 0xb2, 0x71, 0x64, 0xda, 0x8b, 0xf8, 0xeb, 0x0f, 0x4b, 0x70, 0x56, 0x9d, 0x35] ++
  [0x1e, 0x24, 0x0e, 0x5e, 0x63, 0x58, 0xd1, 0xa2, 0x25, 0x22, 0x7c, 0x3b, 0x01, 0x21, 0x78, 0x87,
   0xd4, 0x00, 0x46, 0x57, 0x9f, 0xd3, 0x27, 0x52, 0x4c, 0x36, 0x02, 0xe7, 0xa0, 0xc4, 0xc8, 0x9e] ++
  [0xea, 0xbf, 0x8a, 0xd2, 0x40, 0xc7, 0x38, 0xb5, 0xa3, 0xf7, 0xf2, 0xce, 0xf9, 0x61, 0x15, 0xa1,
   0xe0, 0xae, 0x5d, 0xa4, 0x9b, 0x34, 0x1a, 0x55, 0xad, 0x93, 0x32, 0x30, 0xf5, 0x8c, 0xb1, 0xe3] ++
  [0x1d, 0xf6, 0xe2, 0x2e, 0x82, 0x66, 0xca, 0x60, 0xc0, 0x29, 0x23, 0xab, 0x0d, 0x53, 0x4e, 0x6f,
   0xd5, 0xdb, 0x37, 0x45, 0xde, 0xfd, 0x8e, 0x2f, 0x03, 0xff, 0x6a, 0x72, 0x6d, 0x6c, 0x5b, 0x51] ++
  [0x8d, 0x1b, 0xaf, 0x92, 0xbb, 0xdd, 0xbc, 0x7f, 0x11, 0xd9, 0x5c, 0x41, 0x1f, 0x10, 0x5a, 0xd8,
   0x0a, 0xc1, 0x31, 0x88, 0xa5, 0xcd, 0x7b, 0xbd, 0x2d, 0x74, 0xd0, 0x12, 0xb8, 0xe5, 0xb4, 0xb0] ++
  [0x89, 0x69, 0x97, 0x4a, 0x0c, 0x96, 0x77, 0x7e, 0x65, 0xb9, 0xf1, 0x09, 0xc5, 0x6e, 0xc6, 0x84,
   0x18, 0xf0, 0x7d, 0xec, 0x3a, 0xdc, 0x4d, 0x20, 0x79, 0xee, 0x5f, 0x3e, 0xd7, 0xcb, 0x39, 0x48]

/-- The byte substitution of a word. -/
def sm4Tau (x : BitVec 32) : BitVec 32 := word32 ((word32Bytes x).map fun b => BitVec.ofNat 8 (sm4Box.getD b.toNat 0))

/-- The transformations of the rounds and of the key schedule. -/
def sm4T (x : BitVec 32) : BitVec 32 :=
  let b := sm4Tau x
  b ^^^ b.rotateLeft 2 ^^^ b.rotateLeft 10 ^^^ b.rotateLeft 18 ^^^ b.rotateLeft 24
def sm4K (x : BitVec 32) : BitVec 32 :=
  let b := sm4Tau x
  b ^^^ b.rotateLeft 13 ^^^ b.rotateLeft 23

/-- The constant of key round `i`. -/
def sm4Ck (i : Nat) : BitVec 32 := word32 ((List.range 4).map fun j => BitVec.ofNat 8 ((4 * i + j) * 7))

/-- The round keys. -/
def sm4Keys : Nat → Nat → BitVec 32 × BitVec 32 × BitVec 32 × BitVec 32 → List (BitVec 32)
  | 0, _, _ => []
  | n + 1, i, (a, b, c, d) =>
    let k := a ^^^ sm4K (b ^^^ c ^^^ d ^^^ sm4Ck i)
    k :: sm4Keys n (i + 1) (b, c, d, k)

/-- The round keys of a 16-byte key. -/
def sm4Schedule (key : List Byte) : List (BitVec 32) :=
  let w (i : Nat) : BitVec 32 := word32 ((key.drop (4 * i)).take 4)
  sm4Keys 32 0 (w 0 ^^^ 0xA3B1BAC6, w 1 ^^^ 0x56AA3350, w 2 ^^^ 0x677D9197, w 3 ^^^ 0xB27022DC)

/-- The rounds. -/
def sm4Rounds : List (BitVec 32) → BitVec 32 × BitVec 32 × BitVec 32 × BitVec 32 → BitVec 32 × BitVec 32 × BitVec 32 × BitVec 32
  | [], x => x
  | k :: t, (a, b, c, d) => sm4Rounds t (b, c, d, a ^^^ sm4T (b ^^^ c ^^^ d ^^^ k))

/-- One 16-byte block under round keys: decryption takes them in reverse. -/
def sm4Block (keys : List (BitVec 32)) (b : List Byte) : List Byte :=
  let w (i : Nat) : BitVec 32 := word32 ((b.drop (4 * i)).take 4)
  let r := sm4Rounds keys (w 0, w 1, w 2, w 3)
  [r.2.2.2, r.2.2.1, r.2.1, r.1].flatMap word32Bytes

/-- The bitwise sum of two byte strings. -/
def xorBytes (a b : List Byte) : List Byte := List.zipWith (· ^^^ ·) a b

/-- The next block's tweak: doubled in the field of IEEE 1619, the first byte the least significant. -/
def xtsNext (t : List Byte) : List Byte :=
  let v := ofBytes t
  toBytes 16 ((v * 2 % 2 ^ 128) ^^^ (if 2 ^ 127 ≤ v then 0x87 else 0))

/-- The blocks of a sector. -/
def xtsBlocks (keys : List (BitVec 32)) : Nat → List Byte → List Byte → List Byte
  | 0, _, _ => []
  | n + 1, t, b => xorBytes t (sm4Block keys (xorBytes t (b.take 16))) ++ xtsBlocks keys n (xtsNext t) (b.drop 16)

/-- SM4 in XTS form over a sector of whole blocks. -/
def sm4Xts (dec : Bool) (dataKey tweakKey : List Byte) (sector : Nat) (b : List Byte) : List Byte :=
  let ks := sm4Schedule dataKey
  xtsBlocks (if dec then ks.reverse else ks) (b.length / 16) (sm4Block (sm4Schedule tweakKey) (toBytes 16 sector)) b

/-! ## The instructions (R389) -/

/-- Bytes within the private SRAM. -/
def sramOk (a n : Nat) : Bool := n == 0 || decide (a + n ≤ 0x40000)

/-- The source operand: address and length. -/
def srcAddr (a : Nat) : Nat := bits a 31 0
def srcLen (a : Nat) : Nat := bits a 63 32

/-- The slot or register of the destination operand. -/
def selOf (b : Nat) : Nat := bits b 37 32

/-- The source bytes. -/
def srcBytes (s : State) (a : Nat) : List Byte := memBytes s.sram (srcAddr a) (srcLen a)

/-- Bytes are stored into the SRAM. -/
def sramPut (dst : Nat) (b : List Byte) (s : State) : State := { s with sram := memPut s.sram dst b }

/-- A security instruction ends with its status, after its cycles (R389). -/
def secDone (d : BitVec 6) (status cycles : Nat) (s : State) : Out :=
  let s := if cycles ≤ 1 then s else spendFor s.cur (cycles - 1) (some 8) none none s
  .next (finish (putNat d status s))

/-- A key that an instruction uses, of a kind: a status where it may not. -/
def keyFor (s : State) (slot kind : Nat) : Except Nat (List Byte) :=
  if s.nolorn.fuse = 7 then .error 26
  else
    match tfind s.nolorn.keys slot with
    | none => .error 27
    | some k => if k.kind = kind then .ok (toBytes 64 k.bytes.toNat) else .error 26

/-- SHASH (R389). -/
def execShash (d a b : BitVec 6) (s : State) : Out :=
  let x := rn s a
  let dst := bits (rn s b) 31 0
  let n := srcLen x
  if 2 ^ 20 < n ∨ !sramOk (srcAddr x) n ∨ !sramOk dst 32 then secDone d 8 1 s
  else secDone d 0 (64 * ceilDiv n 64 + 64) (sramPut dst (sm3 (srcBytes s x)) s)

/-- SVERF (R389). -/
def execSverf (d a b : BitVec 6) (s : State) : Out :=
  let x := rn s a
  let src := srcBytes s x
  if srcLen x ≠ 96 ∨ !sramOk (srcAddr x) 96 then secDone d 8 1 s
  else
    match keyFor s (selOf (rn s b)) 1 with
    | .error st => secDone d st 1 s
    | .ok k =>
      let pub := (ofBytesBE (k.take 32), ofBytesBE (k.drop 32))
      secDone d (if sm2Verify pub (src.take 32) ((src.drop 32).take 32) (src.drop 64) then 0 else 25) 180000 s

/-- SSIGN (R389). -/
def execSsign (d a b : BitVec 6) (s : State) : Out :=
  let x := rn s a
  let dst := bits (rn s b) 31 0
  if srcLen x ≠ 32 ∨ !sramOk (srcAddr x) 32 ∨ !sramOk dst 64 then secDone d 8 1 s
  else
    match keyFor s (selOf (rn s b)) 0 with
    | .error st => secDone d st 1 s
    | .ok k => secDone d 0 90000 (sramPut dst ((sm2Sign (k.take 32) (srcBytes s x) 256 0).getD []) s)

/-- SCRYP in either direction (R389). -/
def crypt (dec : Bool) (d a b : BitVec 6) (s : State) : Out :=
  let x := rn s a
  let y := rn s b
  let dst := bits y 31 0
  let n := srcLen x
  if n % 16 ≠ 0 ∨ 2 ^ 20 < n ∨ !sramOk (srcAddr x) n ∨ !sramOk dst n then secDone d 8 1 s
  else
    match keyFor s (selOf y) 3 with
    | .error st => secDone d st 1 s
    | .ok k => secDone d 0 (32 * (n / 16)) (sramPut dst (sm4Xts dec (k.take 16) ((k.drop 16).take 16) (bits y 127 64) (srcBytes s x)) s)

/-- SCRYP, encrypting. -/
def execScryp (d a b : BitVec 6) (s : State) : Out := crypt false d a b s

/-- SCRYP, decrypting (R393). -/
def execScrypDec (d a b : BitVec 6) (s : State) : Out := crypt true d a b s

/-- SKEY load (R389): tenant slots only; it clears WIPED. -/
def execSkey (d a b : BitVec 6) (s : State) : Out :=
  let x := rn s a
  let slot := selOf (rn s b)
  let n := s.nolorn
  if srcLen x ≠ 64 ∨ !sramOk (srcAddr x) 64 then secDone d 8 1 s
  else if n.fuse = 7 ∨ slot < 16 then secDone d 26 1 s
  else
    let k : Key := { kind := 3, bytes := BitVec.ofNat 512 (ofBytes (srcBytes s x)) }
    secDone d 0 1 { s with nolorn := { n with keys := tset n.keys slot k, wiped := false } }

/-- SKEY wipe (R389, R393): a range that covers every tenant slot sets WIPED and clears EXT. -/
def execSkeyWipe (d _a b : BitVec 6) (s : State) : Out :=
  let y := rn s b
  let lo := selOf y
  let hi := bits y 45 40
  let n := s.nolorn
  if n.fuse = 7 then secDone d 26 1 s
  else
    let all := lo ≤ 16 ∧ hi = 63
    let n := { n with keys := n.keys.filter fun p => !(decide (lo ≤ p.1) && decide (p.1 ≤ hi))
                      wiped := n.wiped || all, ext := n.ext && !all }
    secDone d 0 (hi + 1 - lo) { s with nolorn := n }

/-- SMEXT (R389, R393). -/
def execSmext (d a b : BitVec 6) (s : State) : Out :=
  let x := rn s a
  let i := bits (rn s b) 33 32
  let n := s.nolorn
  if srcLen x ≠ 32 ∨ !sramOk (srcAddr x) 32 then secDone d 8 1 s
  else
    let m := BitVec.ofNat 256 (ofBytes (sm3 (toBytes 32 (tget n.meas i 0).toNat ++ srcBytes s x)))
    secDone d 0 128 { s with nolorn := { n with meas := if m = 0 then tdel n.meas i else tset n.meas i m
                                                ext := n.ext || (decide (i = 3) && n.wiped) } }

end Sys2Proof.Machine
end

