-- ==== Sys2Proof/Machine/Host.lean ====
section
/-! DEFINITION. What the host does: page responses (R227, R244), function-level reset and semaphores (R100, R101), the registers of the
windows (R375 to R380), resets and bring-up (R120, R378, R390). -/

namespace Sys2Proof.Machine

/-! ## Page responses (R227, R244) -/

/-- The engines of a core's user context try again what waits for a page that no queued request of its function holds. -/
def retryEngines (s : State) (c : Nat) : State :=
  let k := core s c
  match fnOf k.user with
  | some fn =>
    if k.uload then
      let s := ((copyPages k.user).filter fun v => !waitsOnPage s fn { core := c, vpage := v.1, eng := 3, wr := v.2 }).foldl
        (fun s v => retryCopies c false v.1 v.2 s) s
      retryMatrix c s
    else s
  | none => s

/-- The engines of the user contexts that `f` names try again. -/
def retryWhere (f : Ctx → Bool) (s : State) : State := (s.cores.filter fun p => f p.2.user).foldl (fun s p => retryEngines s p.1) s

/-- TRANSLATION_WALK (R225, R226): the misses that joined it end, and what waited for a walk goes on. -/
def execTranslationWalk (id : Nat) (s : State) : Out :=
  let s := taken (.translationWalk id) s
  match s.walks.find? fun w => w.id == id with
  | none => .next s
  | some w => .next (retryWhere (fun _ => true) (endWalk w w.misses [] { s with walks := s.walks.filter fun v => v.id != id }))

/-- An access that waits on a page request fails with the translation-fault cause. -/
def failWaiter (fn : Nat) (q : Prq) (s : State) (w : Waiter) : State :=
  if w.eng = 0 then
    setCore s w.core { core s w.core with walkFail := some ⟨w.vpage, w.wr, if q.stage2 then 0x2C else 0x2B, q.page * 4096⟩ }
  else if w.eng = 2 then failMatrix w.core w.vpage w.wr s
  else if w.eng = 3 then failCopies w.core false w.vpage w.wr s
  else if w.wr then s
  else
    let d := die s w.core
    setDie s w.core { d with pageFail := d.pageFail ++ [(fn, w.vpage)] }

/-- A page request is answered: the accesses that waited try again, or fail. -/
def answerPage (fn group : Nat) (ok : Bool) (s : State) : State :=
  let f := func s fn
  match f.prq.find? fun q => q.group == group with
  | none => s
  | some q =>
    let s := setFunc s fn { f with prq := f.prq.filter fun p => p.group != group }
    retryWhere (fun x => fnOf x == some fn) (if ok then s else q.waits.foldl (failWaiter fn q) s)

/-- A function as a source of accesses (R292): its number among the cores'. -/
def hostSource (fn : Nat) : Nat := 8192 + fn

/-- Whether a write that a function has posted to device memory is yet to be performed at its home (R244). -/
def hostWrites (s : State) (fn : Nat) : Bool := s.accesses.any fun a => a.core == hostSource fn && a.writes

/-- PAGE_REQUEST_RESPONSE (R227, R244): code 0 is Success, any other a failure; it is acted on once the writes that its function posted have been
performed. -/
def execPageRequestResponse (fn group code : Nat) (s : State) : Out :=
  let e : Event := .pageRequestResponse fn group code
  .next (if hostWrites s fn then (if s.flight.contains e then s else send e s) else answerPage fn group (code == 0) (taken e s))

/-- PAGE_REQUEST_TIMEOUT (R227): after 2^26 cycles. -/
def execPageRequestTimeout (fn group : Nat) (s : State) : Out :=
  let s := taken (.pageRequestTimeout fn group) s
  match (func s fn).prq.find? fun q => q.group == group with
  | some q => .next (if q.sent + 2 ^ 26 ≤ s.elapsed then answerPage fn group false s else s)
  | none => .next s

/-! ## Semaphores (R101) -/

/-- A semaphore. -/
def sem (s : State) (i : Nat) : Sem := tget s.mgmt.sems i {}

/-- Replaces a semaphore. -/
def setSem (s : State) (i : Nat) (x : Sem) : State := { s with mgmt := { s.mgmt with sems := tset s.mgmt.sems i x } }

/-- Whether a function owns a semaphore: only the physical functions reach them. -/
def owns (s : State) (fn i : Nat) : Bool := decide (fn < 2) && (sem s i).owner == fn + 1

/-- SEM_ACQUIRE (R101). -/
def execSemAcquire (fn i : Nat) (s : State) : Out :=
  let s := taken (.semAcquire fn i) s
  if 4 ≤ i then .next s
  else .next (if fn < 2 ∧ (sem s i).owner = 0 then setSem s i { sem s i with owner := fn + 1 } else s)

/-- SEM_RELEASE (R101): ignored unless the owner writes it. -/
def execSemRelease (fn i : Nat) (s : State) : Out :=
  let s := taken (.semRelease fn i) s
  if 4 ≤ i then .next s else .next (if owns s fn i then setSem s i { owner := 0, forced := false } else s)

/-! ## Function-level reset (R100) -/

/-- A die's live launches of a function are cancelled, and its images dropped. -/
def clearFunction (fn : Nat) (s : State) (d : Nat) : State :=
  let s := ((die s d).launches.filter fun l => l.fn == fn).foldl (fun s l => cancelLaunch d l.id s) s
  let x := die s d
  setDie s d { x with images := x.images.filter fun i => i.fn != fn }

/-- FUNCTION_LEVEL_RESET (R100). -/
def execFunctionLevelReset (fn : Nat) (s : State) : Out :=
  let s := taken (.functionLevelReset fn) s
  if 64 ≤ fn then .next s
  else
    let s := [0, 1, 2, 3].foldl (clearFunction fn) s
    .next ([0, 1, 2, 3].foldl (fun s i => if owns s fn i then setSem s i { owner := 0, forced := true } else s) s)

/-! ## Registers of the windows (R375 to R379) -/

/-- Something that a function writes is dropped and counted. -/
def countDrop (fn : Nat) (s : State) : State := setFunc s fn { func s fn with drops := (func s fn).drops + 1 }

/-- NUMVFS_WRITE (R377). -/
def execNumvfsWrite (fn n : Nat) (enable : Bool) (s : State) : Out :=
  let s := taken (.numvfsWrite fn n enable) s
  if 2 ≤ fn then .next s
  else .next (if 62 < n + (func s (1 - fn)).numVfs then s else setFunc s fn { func s fn with numVfs := n, vfEnable := enable })

/-- Whether a virtual function is its physical function's (R377). -/
def vfOf (s : State) (fn vf : Nat) : Bool :=
  let n0 := (func s 0).numVfs
  if fn = 0 then decide (1 ≤ vf && vf ≤ n0) else decide (n0 < vf && vf ≤ n0 + (func s 1).numVfs)

/-- A root address: a level-0 table is aligned to 128 bytes (R223). -/
def rootOf (v : BitVec 64) : Nat := bits v.toNat 51 7 * 128

/-- Whether a size of a completion ring is one (R376). -/
def ringSizeOk (n : Nat) : Bool := n == 0 || (List.range 11).any fun i => n == 64 * 2 ^ i

/-- Writes a queue register (R376) or a register of the translation context (R375). -/
def writeFunction (fn off : Nat) (v : BitVec 64) (s : State) : State :=
  let f := func s fn
  let w := v.toNat
  match off with
  | 0x4020 => setFunc s fn { f with crbase := w / 4096 * 4096 }
  | 0x4028 => setFunc s fn (if ringSizeOk w then { f with crsize := w } else f)
  | 0x4030 => setFunc s fn { f with crhead := w }
  | 0x5000 => setFunc s fn { f with s1root := rootOf v }
  | 0x5008 => setFunc s fn (if fn < 2 then { f with s2root := rootOf v } else f)
  | 0x5010 => setFunc s fn { f with s1en := v.getLsbD 0, s2en := if fn < 2 then v.getLsbD 1 else f.s2en }
  | 0x5018 => if w % 4 = 3 then countDrop fn s else invalidate fn (w % 4) (v.getLsbD 2) (w / 4096 * 4096) s
  | _ => s

/-- Writes a register of the management window that has no row of its own (R378), by its offset in the window; the places of bases and
sizes, of thresholds, and of S2EN are the model's. -/
def writeMgmt (fn off : Nat) (v : BitVec 64) (s : State) : State :=
  let m := s.mgmt
  let w := v.toNat
  if off = 0x200 then { s with mgmt := { m with mlogBase := bits w 49 12 * 4096 } }
  else if off = 0x208 then { s with mgmt := { m with mlogPages := w % 2 ^ 16 } }
  else if 0x1400 ≤ off ∧ off < 0x1420 ∧ off % 8 = 0 then
    let d := (off - 0x1400) / 8
    setDie s d { die s d with netThr := bits w 31 16, netEn := v.getLsbD 0 }
  else if off = 0x1500 then
    let s := { s with mgmt := { m with duskPeriod := bits w 31 8, duskAt := s.elapsed + bits w 31 8 } }
    let s := if v.getLsbD 0 then send .duskPulse s else s
    if bits w 31 8 ≠ 0 ∧ !s.flight.contains .duskPeriodExpiry then send .duskPeriodExpiry s else s
  else if off = 0x1508 then { s with mgmt := { m with duskBase := bits w 49 12 * 4096 } }
  else if off = 0x1510 then { s with mgmt := { m with duskPages := w % 2 ^ 16 } }
  else if 0x4020 ≤ off ∧ off < 0x4040 ∧ off % 8 = 0 then { s with mgmt := { m with cethr := tset m.cethr ((off - 0x4020) / 8) w } }
  else if 0x8000 ≤ off ∧ off < 0x8400 then
    let vf := (off - 0x8000) / 16
    if !vfOf s fn vf then s
    else
      let f := func s (1 + vf)
      if off % 16 = 0 then setFunc s (1 + vf) { f with s2root := rootOf v }
      else if off % 16 = 8 then setFunc s (1 + vf) { f with s2en := v.getLsbD 1 }
      else s
  else s

/-- What a function reads of its queue registers (R376) and of its translation context (R375): what is absent reads as zero. CREDn is the room
in die n's queue. -/
def readFunction (s : State) (fn off : Nat) : Nat :=
  let f := func s fn
  if 0x4000 ≤ off ∧ off < 0x4020 ∧ off % 8 = 0 then 256 - (tget (die s ((off - 0x4000) / 8)).queues fn []).length
  else
    match off with
    | 0x4020 => f.crbase
    | 0x4028 => f.crsize
    | 0x4030 => f.crhead
    | 0x4038 => f.crtail
    | 0x4040 => f.drops
    | 0x5000 => f.s1root
    | 0x5008 => f.s2root
    | 0x5010 => b2n f.s1en + fld (b2n f.s2en) 1
    | 0x5018 => fld (b2n (!f.inval.isEmpty)) 3
    | _ => 0

/-- MSTAT (R378). -/
def mstat (s : State) : Nat := b2n s.mgmt.replace + fld (b2n s.mgmt.thermal) 1 + fld (b2n s.mgmt.logNew) 2

/-- REGISTER_WRITE (R375, R376, R378): the management window is absent in a virtual function's window. -/
def execRegisterWrite (fn off : Nat) (v : BitVec 64) (s : State) : Out :=
  let s := taken (.registerWrite fn off v) s
  if 64 ≤ fn then .next s
  else if 0x100000 ≤ off ∧ off < 0x180000 then .next (if fn < 2 then writeMgmt fn (off - 0x100000) v s else s)
  else .next (writeFunction fn off v s)

/-- The core-space capability that CAPGEN makes (R146, R379). -/
def coreCap (c : Nat) (istore : Bool) (perm : Nat) : Nat :=
  let a := fld 0xFF 44 + fld c 32 + fld (b2n istore) 31
  let e := if istore then 3 else 18
  a + fld (a / 2 ^ e % 2 ^ 14) 52 + fld 8192 66 + fld e 80 + fld (b2n (bitAt perm 0)) 86 + fld (b2n (bitAt perm 1)) 87 +
    fld (b2n (bitAt perm 2)) 92 + fld (b2n (bitAt perm 3)) 91

/-- CAPGEN_WRITE (R379). -/
def execCapgenWrite (fn : Nat) (v : BitVec 256) (s : State) : Out :=
  let s := taken (.capgenWrite fn v) s
  let w := v.toNat
  let pa := bits w 49 0
  if 2 ≤ fn then .next s
  else if !isLpddr pa ∨ pa % 16 ≠ 0 then .next (countDrop fn s)
  else .next (homeWriteTagged s pa (BitVec.ofNat 128 (coreCap (bits w 75 64) (bitAt w 80) (bits w 91 88))) true)

/-- Whether an event is the arrival of a contribution over a link. -/
def noticeOf (link : Nat) : Event → Bool
  | .blockNoticeArrival b => 7 * b.die + b.link == link
  | _ => false

/-- BQCFG_WRITE (R378): dropped while notices are undelivered, those of contributions that still wait among them; the places of the fields are
the model's. -/
def execBqcfgWrite (fn link : Nat) (v : BitVec 256) (s : State) : Out :=
  let s := taken (.bqcfgWrite fn link v) s
  if 28 ≤ link then .next s
  else
    let q : Bq := tget s.mgmt.bq link {}
    let w := v.toNat
    .next (if 2 ≤ fn ∨ !q.open_.isEmpty ∨ s.flight.any (noticeOf link) then s
      else { s with mgmt := { s.mgmt with bq := tset s.mgmt.bq link { bs := bits w 2 0, p := bits w 31 16, base := bits w 95 64 } } })

/-! ## Instruction stores (R122, R123, R375) -/

/-- Whether an event is a host store to a core's instruction store. -/
def storeTo (c : Nat) : Event → Bool
  | .istoreHostWrite _ c' _ _ => c' == c
  | _ => false

/-- ISTORE_HOST_WRITE (R122, R334): the stores to a core are performed in order, once it has power; a word at or above LIM is dropped. -/
def execIstoreHostWrite (fn c addr : Nat) (w : BitVec 32) (s : State) : Out :=
  let e : Event := .istoreHostWrite fn c addr w
  if 4096 ≤ c ∨ 2 ≤ fn ∨ addr % 4 ≠ 0 ∨ 65536 ≤ addr then .next (taken e s)
  else
    let k := core s c
    if powered k && ((s.flight.find? (storeTo c)).getD e == e) then
      let s := taken e s
      .next (if k.tlim ≤ addr then s else writeStore c addr w s)
    else .next (wakeCore c (if s.flight.contains e then s else send e s))

/-! ## The Nolorn mailbox (R380) -/

/-- MAILBOX_WRITE (R380). -/
def execMailboxWrite (fn off : Nat) (b : List Byte) (s : State) : Out :=
  let s := taken (.mailboxWrite fn off b) s
  .next (if owns s fn 0 ∧ off + b.length ≤ 4096 then { s with sram := memPut s.sram (0x3F000 + off) b } else s)

/-- NMBOX_DOORBELL (R380): the message of each accepted write waits for room in the Nolorn core's inbox. A function's number with 64 added stands
for a write of its that has been accepted and waits (DESIGN CHOICE, entry 131). -/
def execNmboxDoorbell (fn : Nat) (v : BitVec 32) (s : State) : Out :=
  let e : Event := .nmboxDoorbell fn v
  let waits := decide (64 ≤ fn) && s.flight.contains e
  let s := taken e s
  if (!owns s fn 0 ∧ !waits) ∨ v ≠ 1 then .next s
  else
    let side := residentSide s nolornCore
    if (residentOf (core s nolornCore)).isNone || !inboxRoom s nolornCore side then .next (send (.nmboxDoorbell (64 + fn % 64) v) s)
    else .next (notify nolornCore side (.msg 0 0) s)

/-- FWUPD_WRITE (R380). -/
def execFwupdWrite (fn : Nat) (v : BitVec 64) (s : State) : Out :=
  let s := taken (.fwupdWrite fn v) s
  .next (if owns s fn 3 ∧ s.nolorn.fuse ≠ 7 then { s with mgmt := { s.mgmt with fwupd := v.toNat } } else s)

/-! ## What is out of service (R120, R355, R383, R384) -/

/-- MSTAT.REPLACE is set, which raises vector 0 on both physical functions (R384). -/
def setReplace (s : State) : State :=
  if s.mgmt.replace then s else
  let s := { s with mgmt := { s.mgmt with replace := true } }
  [0, 1].foldl (fun s f => setFunc s f { func s f with msix0 := (func s f).msix0 + 1 }) s

/-- A link. -/
def link (s : State) (l : Nat) : Link := tget s.mgmt.links l {}

/-- Replaces a link. -/
def setLink (s : State) (l : Nat) (x : Link) : State := { s with mgmt := { s.mgmt with links := tset s.mgmt.links l x } }

/-- A spare of its cluster takes a core's number; with none left the number is mapped out (R355, R384). A core beside the links, or the Nolorn
core, is of no cluster: it has no spare, and none of R384's conditions is about it. -/
def replaceCore (c : Nat) (fresh : Core) (s : State) : State :=
  let cl := (clusterOf c).getD 64
  let used := tget s.mgmt.spareCores cl 0
  let out := setCore s c { core s c with mappedOut := true, marked := false }
  if cl = 64 then out
  else if 2 ≤ used then setReplace out
  else
    let s := setCore { s with mgmt := { s.mgmt with spareCores := tset s.mgmt.spareCores cl (used + 1) } } c fresh
    if used + 1 = 2 then setReplace s else s

/-- A spare of its cluster takes a bank's identifier; with none left the identifier is out (R355, R384). -/
def replaceBank (gb : Nat) (s : State) : State :=
  let used := tget s.mgmt.spareBanks (gb / 512) 0
  if 16 ≤ used then setReplace (setBank s gb { cond := .out })
  else
    let s := setBank { s with mgmt := { s.mgmt with spareBanks := tset s.mgmt.spareBanks (gb / 512) (used + 1) } } gb {}
    if used + 1 = 16 then setReplace s else s

/-- Whether a channel's 8 GiB fit in the spare parts of the channels left in service (R383). -/
def channelFits (x : Die) (ch : Nat) : Bool :=
  let k := x.retiredCh.length + 1
  !x.retiredCh.contains ch && decide (16 * k ≤ 48 - k)

/-- Whether a die has spare capacity for no further channel (R384). -/
def Die.noSpare (x : Die) : Bool := decide (48 - (x.retiredCh.length + 1) < 16 * (x.retiredCh.length + 1))

/-- A channel's content is spread over the spare parts of the others (R383, R384). -/
def replaceChannel (d ch : Nat) (s : State) : State :=
  let x := die s d
  let s := setDie s d { x with retiredCh := x.retiredCh ++ [ch], markedCh := sortedDel x.markedCh ch }
  if (die s d).noSpare then setReplace s else s

/-- A link's spare lane takes a failed lane's place; with none left it runs on 7 lanes (R382, R384). -/
def replaceLane (l : Nat) (s : State) : State :=
  if (link s l).spare then setReplace (setLink s l { link s l with spare := false }) else setLink s l { link s l with lanes := 7 }

/-- What a die's training and self-test find failed is mapped out at bring-up (R120 steps 3 and 4). -/
def selfTest (s : State) (d : Nat) : State :=
  let s := (Config.failedChannels d).foldl (fun s ch => if ch < 48 && channelFits (die s d) ch then replaceChannel d ch s else s) s
  let s := (Config.failedBanks d).foldl (fun s b => if b < bankCount && b / 8192 == d then replaceBank b s else s) s
  let s := (Config.failedCores d).foldl (fun s c => if isCore c && c != nolornCore && dieOf c == d then replaceCore c {} s else s) s
  (Config.failedLanes d).foldl (fun s l => if l < 16 && l / 4 == d then replaceLane l s else s) s

/-! ## Resets, clocks, bring-up (R120, R378, R390) -/

/-- Whether a key of the instruction stores or of the banks belongs to a die. -/
def ofDie (d c : Nat) : Bool := decide (c < nolornCore) && dieOf c == d

/-- A core as its die's reset leaves it: what is out of service, or marked, stays so. -/
def Core.afterReset (k : Core) : Core := { mappedOut := k.mappedOut, marked := k.marked }

/-- A bank as its die's reset leaves it. -/
def Bank.afterReset (b : Bank) : Bank := { cond := if b.cond = .out then .out else .free, marked := b.marked }

/-- A die as its reset leaves it: its cores, clusters, banks and Saffron at their reset values; module memory stays. -/
def resetDie (d : Nat) (hold : Bool) (s : State) : State :=
  let s := { s with
    cores := s.cores.map fun p => if ofDie d p.1 then (p.1, p.2.afterReset) else p
    clusters := s.clusters.filter fun p => p.1 / 16 != d
    banks := s.banks.map fun p => if p.1 / 8192 = d then (p.1, p.2.afterReset) else p
    istore := s.istore.filter fun p => !ofDie d (p.1 / 65536)
    bankMem := s.bankMem.filter fun p => p.1 / 32768 / 8192 != d
    barriers := s.barriers.filter fun p => !p.2.arrived.any fun a => ofDie d a.1
    accesses := s.accesses.filter fun a => !ofDie d a.core
    walkCache := s.walkCache.filter fun e => e.die != d
    walks := s.walks.filter fun w => w.die != d }
  setDie s d { retiredCh := (die s d).retiredCh, markedCh := (die s d).markedCh, thermal := (die s d).thermal, reset := hold, since := s.elapsed,
               areas := ((Config.saveStore d).map fun n => d * 0x6000000000 + n % 0x60000 * 2 ^ 20).eraseDups }

/-- DIE_RESET_HOLD (R378). -/
def execDieResetHold (fn d : Nat) (hold : Bool) (s : State) : Out :=
  let s := taken (.dieResetHold fn d hold) s
  if 4 ≤ d then .next s
  else if !owns s fn 1 then .next s
  else
    let s := { s with mgmt := { s.mgmt with dieReset := setBits s.mgmt.dieReset d d (b2n hold) } }
    .next (if hold || (die s d).reset then resetDie d hold s else s)

/-- What of a die outlasts a module reset: the channels whose contents have been spread, those that stay in service marked until the module
is replaced (R383), and how hot it is (R385). -/
def Die.lasting (x : Die) : Die := { retiredCh := x.retiredCh, markedCh := x.markedCh, thermal := x.thermal }

/-- The module after a reset: what the fuses hold, the contents of module memory with their places, and the heat, stay. -/
def resetModule (s : State) : State :=
  { State.reset with
    agenda := s.agenda, inputs := s.inputs, tick := s.tick, nextId := s.nextId, mem := s.mem, tags := s.tags
    dies := s.dies.map fun p => (p.1, p.2.lasting)
    mgmt := { State.reset.mgmt with thermal := s.mgmt.thermal, replace := s.dies.any fun p => p.2.noSpare }
    nolorn := { State.reset.nolorn with fuse := s.nolorn.fuse, draws := s.nolorn.draws } }

/-- MODULE_RESET (R378). -/
def execModuleReset (fn : Nat) (s : State) : Out :=
  let s := taken (.moduleReset fn) s
  .next (if owns s fn 1 then resetModule s else s)

/-- CLOCK_STOP (R378). -/
def execClockStop (fn : Nat) (stop : Bool) (s : State) : Out :=
  let s := taken (.clockStop fn stop) s
  .next (if owns s fn 2 then { s with mgmt := { s.mgmt with clockStopped := stop } } else s)

/-- The Nolorn core's supervisor context starts the firmware (R120). -/
def startFirmware (s : State) : State :=
  setCore s nolornCore { core s nolornCore with power := .on, supOn := true, sup := {} }

/-- The digest of the firmware image (R390). -/
def firmwareDigest : List Byte := sm3 Config.firmwareImage

/-- Whether the boot code accepts the firmware image (R390): its signature verifies, with the key in slot 1. -/
def firmwareAccepted (s : State) : Bool :=
  match (tfind s.nolorn.keys 1 : Option Key) with
  | some k =>
    let b := toBytes 64 k.bytes.toNat
    sm2Verify (ofBytesBE (b.take 32), ofBytesBE (b.drop 32)) firmwareDigest (Config.firmwareSignature.take 32) (Config.firmwareSignature.drop 32)
  | none => false

/-- POWER_GOOD (R120, R390): the image is hashed and verified; one that fails is not started, and nothing more comes up. -/
def execPowerGood (s : State) : Out :=
  let s := taken .powerGood s
  if s.mgmt.poweredUp then .next s
  else
    let s := { s with mgmt := { s.mgmt with poweredUp := true, cxlCap := [(0, Config.cxlCapacity 0), (1, Config.cxlCapacity 1)] } }
    if !firmwareAccepted s then .next s
    else
      let m := ofBytes (sm3 (toBytes 32 0 ++ firmwareDigest))
      let s := { s with nolorn := { s.nolorn with meas := tset s.nolorn.meas 0 (BitVec.ofNat 256 m) } }
      .next (send .functionReady (startFirmware ([0, 1, 2, 3].foldl (fun s d => selfTest (resetDie d false s) d) s)))

/-- FUNCTION_READY (R120): the windows' messages are processed from now on. -/
def execFunctionReady (s : State) : Out :=
  let s := taken .functionReady s
  .next ((List.range 64).foldl (fun s f => setFunc s f { func s f with ready := true }) s)

end Sys2Proof.Machine
end

