-- ==== Sys2Proof/Machine/Errors.lean ====
section
/-! DEFINITION. Errors and degraded operation (R121, R215, R220, R354, R355, R381 to R385), and the network's windows (R318). -/

namespace Sys2Proof.Machine

/-! ## Correctable errors (R354, R383) -/

/-- The count of correctable errors of a resource in the present window of 2^30 cycles. Classes: 0 core, 1 bank, 2 channel, 3 lane. -/
def errorCount (s : State) (cls ix : Nat) : Nat :=
  let v := tget s.mgmt.cecnt (fld cls 32 + ix) 0
  if v / 2 ^ 32 = s.elapsed / 2 ^ 30 then v % 2 ^ 32 else 0

/-- The threshold of a class. -/
def errorThreshold (s : State) (cls : Nat) : Nat := tget s.mgmt.cethr cls 64

/-- Whether a resource's count has passed its threshold. -/
def overThreshold (s : State) (cls ix : Nat) : Bool := errorThreshold s cls < errorCount s cls ix

/-- ECC_CORRECTED (R354). -/
def execEccCorrected (cls ix : Nat) (s : State) : Out :=
  let s := taken (.eccCorrected cls ix) s
  if 4 ≤ cls then .next s
  else
    let n := Nat.min (2 ^ 32 - 1) (errorCount s cls ix + 1)
    .next { s with mgmt := { s.mgmt with cecnt := tset s.mgmt.cecnt (fld cls 32 + ix) (fld (s.elapsed / 2 ^ 30) 32 + n) } }

/-! ## Losses (R121, R215, R220, R354) -/

/-- A data-loss record for a bank: of the context it is attached to, or of the owner of a common bank (R215). -/
def bankLoss (gb line : Nat) (s : State) : State :=
  let ix := gb * 256 + line
  let s := countLoss 0 s
  let val := lossVal 0 ix
  match (bankAt s gb).holders with
  | (key, _) :: _ =>
    if key < 8418 then logFor (key / 2) (ctxOf s (key / 2) (key % 2 == 1)) 0x60 false 0xFFFF val s
    else
      match tfind s.areas (key - 8418) with
      | some (c, x) => logFor c x 0x60 false 0xFFFF val s
      | none => mgmtLog (record 0x60 false 0 0 0 0 0xFFFF (elapsedOn s (bankDie gb)) val) s
  | [] =>
    let cl := gb / 512
    let r := record 0x60 false 0 0 0 0 0xFFFF (elapsedOn s (cl / 16)) val
    if isCommon s cl (gb % 512) && (cluster s cl).owner != 0 then
      domainLog (cl / 16) (resolveSnap (rcbChain s 4 (cluster s cl).owner)) r s
    else mgmtLog r s

/-- BANK_LINE_LOSS (R215): the line reads as zero. -/
def execBankLineLoss (gb line : Nat) (s : State) : Out :=
  let s := taken (.bankLineLoss gb line) s
  if bankCount ≤ gb ∨ 256 ≤ line then .next s
  else .next (bankLoss gb line { s with bankMem := memPut s.bankMem (bankPlace gb (128 * line)) (List.replicate 128 0) })

/-- ISTORE_WORD_LOSS (R121): the word reads as zero. -/
def execIstoreWordLoss (c addr : Nat) (s : State) : Out :=
  let s := taken (.istoreWordLoss c addr) s
  if !isCore c ∨ addr % 4 ≠ 0 ∨ 65536 ≤ addr then .next s
  else .next (lossRecord c false 1 addr { s with istore := memWrite s.istore (istoreAt c addr) 4 0 })

/-- HOME_LINE_LOSS (R220): the line reads as zero with tags 0. `kind`: 2 cache line, 3 LPDDR burst, 4 CXL; `key`: the context whose access
found the error, twice its core's number and one more for a supervisor, or none (any other number) where eviction or scrubbing did. -/
def execHomeLineLoss (addr kind key : Nat) (s : State) : Out :=
  let s := taken (.homeLineLoss addr kind key) s
  if kind < 2 ∨ 4 < kind ∨ !physOk s addr then .next s
  else
    let pa := addr / 128 * 128
    let s := homeWrite s pa (List.replicate 128 0)
    .next (if isCore (key / 2) then lossRecord (key / 2) (key % 2 == 1) kind pa s
      else countLoss kind <| mgmtLog (record 0x60 false 0 0 0 0 0xFFFF (elapsedOn s (homeDie s pa)) (lossVal kind pa)) s)

/-- A list without the entry at a place. -/
def eraseAt {α : Type} (l : List α) (i : Nat) : List α := l.take i ++ l.drop (i + 1)

/-- A lost matrix command completes with ARG (R354), which takes no trap: no uncorrectable error does. -/
def loseMatrix (c : Nat) (sup : Bool) (i : Nat) (s : State) : State :=
  let x := ctxOf s c sup
  match x.mq[i]? with
  | some m => keepFault c sup m.pc 8 0 (setCtxOf s c sup { x with mq := eraseAt x.mq i })
  | none => s

/-- A lost copy command completes with ARG. -/
def loseCopy (c : Nat) (sup : Bool) (i : Nat) (s : State) : State :=
  let x := ctxOf s c sup
  match x.cq[i]? with
  | some m => setCtxOf s c sup ({ x with cq := eraseAt x.cq i }.countDown m 8 0)
  | none => s

/-- A lost vector command is dropped: the vector engine has no fault status that it could complete with (DEDUCED, entry 121). -/
def loseVector (x : Ctx) (i : Nat) : Ctx :=
  { x with vq := (x.vq.zip (List.range x.vq.length)).map fun p => if p.2 = i then { p.1 with bind := .discard, run := none } else p.1 }

/-- A unit of a core's state is lost (R354): `unit` 5 an operand-memory row (32 x slot + row), 6 an accumulator cell (1,024 x accumulator +
cell), 7 a general register, 8 a queue entry (256 x queue + place: 0 the inbox, 1 to 3 the vector, matrix and copy queues, 4 the tagged
messages, 5 to 8 the port queues). -/
def loseUnit (c : Nat) (sup : Bool) (unit ix : Nat) (s : State) : State :=
  let x := ctxOf s c sup
  match unit with
  | 5 =>
    let h := (mslot x (ix / 32 % 8)).head
    let g := mslot x h
    setCtxOf s c sup { x with mslots := tset x.mslots h { g with rows := g.rows.set (32 * (ix / 32 % 8 - h) + ix % 32) ⟨31, []⟩ } }
  | 6 => setCtxOf s c sup { x with cells := tdel x.cells (ix % 4096) }
  | 7 => setCtxOf s c sup { x with regs := tdel x.regs (ix % 64) }
  | _ =>
    let i := ix % 256
    match ix / 256 with
    | 0 => setCtxOf s c sup { x with inbox := eraseAt x.inbox i }
    | 1 => setCtxOf s c sup (loseVector x i)
    | 2 => loseMatrix c sup i s
    | 3 => loseCopy c sup i s
    | 4 => setCtxOf s c sup { x with tagq := eraseAt x.tagq i }
    | q => setCtxOf s c sup (if q ≤ 8 then { x with ports := tset x.ports (q - 5) (eraseAt (tget x.ports (q - 5) []) i) } else x)

/-- DEVICE_STATE_LOSS (R354). -/
def execDeviceStateLoss (c unit ix : Nat) (s : State) : Out :=
  let s := taken (.deviceStateLoss c unit ix) s
  if !isCore c ∨ unit < 5 ∨ 8 < unit then .next s
  else .next (lossRecord c (residentSide s c) unit ix (loseUnit c (residentSide s c) unit ix s))

/-! ## Retirement (R355, R383, R384) -/

/-- A retirement is written to the management log (R355). -/
def logRetirement (kind ix : Nat) (s : State) : State :=
  mgmtLog (record Config.retirementCause.toNat false 0 0 0 0 0xFFFF (elapsedOn s 0) (BitVec.ofNat 128 (kind + fld ix 4))) s

/-- RETIREMENT_MARK (R355): kind 0 a core, 1 a bank, 2 a channel (48 x die + channel), 3 a lane (16 x link + lane). -/
def execRetirementMark (kind ix : Nat) (s : State) : Out :=
  let s := taken (.retirementMark kind ix) s
  if 4 ≤ kind then .next s
  else if !overThreshold s kind ix then .next s
  else
    match kind with
    | 0 => if isCore ix then .next (send (.resourceRetire 0 ix) (setCore s ix { core s ix with marked := true })) else .next s
    | 1 => if ix < bankCount then .next (send (.resourceRetire 1 ix) (setBank s ix { bankAt s ix with marked := true })) else .next s
    | 2 =>
      if 192 ≤ ix then .next s
      else
        let d := die s (ix / 48)
        .next (send (.channelRetire (ix / 48) (ix % 48)) (setDie s (ix / 48) { d with markedCh := sortedAdd d.markedCh (ix % 48) }))
    | _ =>
      if 16 ≤ ix / 16 ∨ 8 ≤ ix % 16 then .next s
      else .next (send (if (tget s.mgmt.links (ix / 16) {}).spare then .laneSpareSwap (ix / 16) (ix % 16) else .laneLost (ix / 16) (ix % 16)) s)

/-- A core is taken out of service, and the retirement is logged. -/
def retireCore (c : Nat) (s : State) : State :=
  let k := core s c
  let fresh : Core := { seen := k.seen, idle := k.idle, supAcct := k.supAcct, power := k.power, idleSince := k.idleSince }
  replaceCore c fresh (logRetirement 0 c { s with istore := s.istore.filter fun p => p.1 / 65536 != c })

/-- A bank is taken out of service, and the retirement is logged. -/
def retireBank (gb : Nat) (s : State) : State := replaceBank gb (logRetirement 1 gb (zeroBank gb s))

/-- RESOURCE_RETIRE (R355): at the next idle moment: a core on which no context is resident and that no save area names, a bank that is back
in the pool; one that is common is in none (R187), and stays in the striped window until the pool's configuration gives it back. -/
def execResourceRetire (kind ix : Nat) (s : State) : Out :=
  let e : Event := .resourceRetire kind ix
  let s := taken e s
  match kind with
  | 0 =>
    if !isCore ix then .next s
    else
      let k := core s ix
      if !k.marked then .next s
      else if (residentOf k).isSome || k.start.isSome || reservedCore s ix || s.areas.any (fun p => p.2.1 == ix) then .next (send e s)
      else .next (retireCore ix s)
  | 1 =>
    if bankCount ≤ ix then .next s
    else
      let b := bankAt s ix
      if !b.marked then .next s
      else if (b.cond == .free && !isCommon s (ix / 512) (ix % 512)) || b.cond == .out then .next (retireBank ix s)
      else .next (send e s)
  | _ => .next s

/-- The logical channel and the unit of it that hold an address of module memory (R383; DESIGN CHOICE, entry 129). -/
def channelOf (pa : Nat) : Nat × Nat := (pa % 0x6000000000 / 256 % 48, pa % 0x6000000000 / 256 / 48)

/-- The channels of a die that are not among those retired. -/
def channelsLeft (l : List Nat) : List Nat := (List.range 48).filter fun c => !l.contains c

/-- Where the channel map of a die has a unit: a physical channel and a place on it, units of 256 bytes counted through its 8 GiB and then
its spare part. Each retirement spreads what its channel held, one unit to each spare part in rotation, behind what that part holds already
(R383; DESIGN CHOICE, entry 129). `done`: the retirements before, `used`: the units that each spare part holds. -/
def channelPlace : List Nat → List Nat → Nat → Nat × Nat → Nat × Nat
  | [], _, _, p => p
  | r :: t, done, used, p =>
    let left := channelsLeft (done ++ [r])
    let n := left.length
    channelPlace t (done ++ [r]) (used + (2 ^ 25 + used + n - 1) / n)
      (if p.1 = r then (left.getD (p.2 % n) 0, 2 ^ 25 + used + p.2 / n) else p)

/-- Where a die's memory holds an address of it. -/
def Die.placeOf (x : Die) (pa : Nat) : Nat × Nat := channelPlace x.retiredCh [] 0 (channelOf pa)

/-- A line that the copying of a channel cannot read: it is zero from then on, counted, and recorded in the management log (R220, R383). -/
def loseLine (s : State) (pa : Nat) : State :=
  countLoss 3 (mgmtLog (record 0x60 false 0 0 0 0 0xFFFF (elapsedOn s (homeDie s pa)) (lossVal 3 pa)) (homeWrite s pa (List.replicate 128 0)))

/-- The lines on a channel of a die that its copying cannot read. -/
def unreadable (s : State) (d ch : Nat) : List Nat :=
  ((Config.unreadableLines s.tick).map fun a => a / 128 * 128).filter fun a => isLpddr a && homeDie s a == d && ((die s d).placeOf a).1 == ch

/-- CHANNEL_RETIRE (R383): where the spare parts of the channels left in service can take its 8 GiB; otherwise it stays, marked. -/
def execChannelRetire (d ch : Nat) (s : State) : Out :=
  let s := taken (.channelRetire d ch) s
  if 4 ≤ d ∨ 48 ≤ ch then .next s
  else
    let x := die s d
    .next (if x.markedCh.contains ch && channelFits x ch then
        replaceChannel d ch (logRetirement 2 (48 * d + ch) ((unreadable s d ch).foldl loseLine s)) else s)

/-! ## Links (R381, R382) -/

/-- LANE_SPARE_SWAP (R382, R384): the link retrains. -/
def execLaneSpareSwap (l lane : Nat) (s : State) : Out :=
  let s := taken (.laneSpareSwap l lane) s
  if 16 ≤ l ∨ 8 ≤ lane then .next s
  else if !(link s l).spare then .next s
  else .next (send (.laneRetrainDone l) (setReplace (logRetirement 3 (16 * l + lane) (setLink s l { link s l with spare := false, retraining := true }))))

/-- LANE_RETRAIN_DONE (R382). -/
def execLaneRetrainDone (l : Nat) (s : State) : Out :=
  let s := taken (.laneRetrainDone l) s
  if 16 ≤ l then .next s else .next (setLink s l { link s l with retraining := false })

/-- LANE_LOST (R382): a link with no spare runs on 7 lanes. -/
def execLaneLost (l lane : Nat) (s : State) : Out :=
  let s := taken (.laneLost l lane) s
  if 16 ≤ l ∨ 8 ≤ lane then .next s
  else if (link s l).spare then .next s
  else .next (logRetirement 3 (16 * l + lane) (setLink s l { link s l with lanes := 7 }))

/-- CXL_LINK_DOWN (R381). -/
def execCxlLinkDown (port : Nat) (s : State) : Out :=
  let s := taken (.cxlLinkDown port) s
  if 2 ≤ port then .next s else .next { s with mgmt := { s.mgmt with cxlDown := sortedAdd s.mgmt.cxlDown port } }

/-- CXL_LINK_RETRAIN (R381). -/
def execCxlLinkRetrain (port : Nat) (s : State) : Out :=
  let s := taken (.cxlLinkRetrain port) s
  if 2 ≤ port then .next s else .next { s with mgmt := { s.mgmt with cxlDown := sortedDel s.mgmt.cxlDown port } }

/-! ## Heat (R385) -/

/-- THERMAL_WARNING (R385). -/
def execThermalWarning (d : Nat) (s : State) : Out :=
  let s := taken (.thermalWarning d) s
  if 4 ≤ d then .next s
  else
    let s := setDie { s with mgmt := { s.mgmt with thermal := true } } d { die s d with thermal := true }
    .next ([0, 1].foldl (fun s f => setFunc s f { func s f with msix0 := (func s f).msix0 + 1 }) s)

/-- THERMAL_CLEAR (R385): MSTAT.THERMAL stays while another die is hot. -/
def execThermalClear (d : Nat) (s : State) : Out :=
  let s := taken (.thermalClear d) s
  if 4 ≤ d then .next s
  else
    let s := setDie s d { die s d with thermal := false }
    .next { s with mgmt := { s.mgmt with thermal := [0, 1, 2, 3].any fun e => (die s e).thermal } }

/-- THERMAL_TRIP (R385): the record first, then the reset. -/
def execThermalTrip (d : Nat) (s : State) : Out :=
  let s := taken (.thermalTrip d) s
  if 4 ≤ d then .next s
  else .next (resetModule (mgmtLog (record Config.thermalCause.toNat false 0 0 0 (1024 * d) 0xFFFF (elapsedOn s d) 0) s))

/-! ## The network (R318) -/

/-- TWO_PHASE_ROUTING_WINDOW (R318): on for the next window where some link's count exceeds the mean by THR or more. -/
def execTwoPhaseRoutingWindow (d : Nat) (counts : List Nat) (s : State) : Out :=
  let s := taken (.twoPhaseRoutingWindow d counts) s
  if 4 ≤ d then .next s
  else
    let x := die s d
    let sum := counts.sum
    .next (setDie s d { x with twoPhase := x.netEn && counts.any fun n => decide (sum + x.netThr * counts.length ≤ n * counts.length && counts.sum < n * counts.length) })

end Sys2Proof.Machine
end

