-- ==== Sys2Proof/Machine/Global.lean ====
section
/-! DEFINITION. Global loads and stores, atomics and reduce-adds (R228 to R232). -/

namespace Sys2Proof.Machine

/-- GlobalAccess (R228): the checks in their order, then `f` at the physical address. `perm`: the permissions needed. -/
def globalAccess (a : BitVec 6) (off : Int) (n : Nat) (rd wr : Bool) (perm : Nat → Bool) (f : Nat → State → Out) (s : State) : Out :=
  let c := rn s a
  let va : Int := capAddr c + off
  let tv := toWord va
  if !(rk s a).tag then .next (trapVal 0x20 tv s)
  else if capSeal c ≠ 0 then .next (trapVal 0x21 tv s)
  else if !perm c then .next (trapVal 0x22 tv s)
  else if !capIn c va n then .next (trapVal 0x23 tv s)
  else
    let v := wrap 52 va
    if v % n ≠ 0 then .next (trapVal 0x24 tv s)
    else if inCoreSpace v then .next (trapVal 0x25 tv s)
    else
      match translate v rd wr s with
      | .wait s => .next (wait 20 s)
      | .trap cause val s => .next (trapAt cause val s)
      | .ok pa s => if !physOk s pa then .next (trapVal 0x26 tv s) else watched 1 (b2n rd + 2 * b2n wr) v n (f pa) s

/-- An access of the sequencer to a home. -/
def seqAccess (s : State) (pa n : Nat) : Access :=
  { id := 0, core := s.cur, sup := onSup s, eng := 0, dest := .home pa, size := n, born := s.tick }

/-- LDX of `n` bytes (R228, R229): its result is outstanding until the home's reply. -/
def loadGlobal (d a : BitVec 6) (off : Int) (n : Nat) (sg : Bool) (s : State) : Out :=
  globalAccess a off n true false capLD (fun pa s =>
    let acc := { seqAccess s pa n with reg := some d.toNat, sg := sg, lc := capLC (rn s a) }
    .next (finish (pendReg d 21 (post acc s)))) s

/-- STX of `n` bytes (R228, R229): posted to the buffer of its home. -/
def storeGlobal (d a : BitVec 6) (off : Int) (n : Nat) (s : State) : Out :=
  globalAccess a off n false true capSD (fun pa s =>
    let acc := { seqAccess s pa n with write := some (toBytes n (rn s d))
                                       tags := if n = 16 then [(rk s d).tag && capSC (rn s a)] else [] }
    .next (finish (post acc s))) s

/-- An atomic of `n` bytes (R230, R231). `ret`: it returns the old value. -/
def atomic (op : Nat) (d a b : BitVec 6) (n : Nat) (ret : Bool) (s : State) : Out :=
  let perm (c : Nat) : Bool := capAT c && capSD c && (!ret || capLD c)
  globalAccess a 0 n true true perm (fun pa s =>
    let m : Amo := { op := op, y := rk s b, cmp := rv s d, sc := capSC (rn s a) }
    let acc := { seqAccess s pa n with amo := some m, reg := if ret then some d.toNat else none, sg := true, lc := capLC (rn s a) }
    let s := post acc s
    .next (finish (if ret then pendReg d 21 s else s))) s

/-- The displacement of an I-format access. -/
def dispImm (i : BitVec 10) (n : Nat) : Int := signed 10 i.toNat * n

/-- LDX.B.S (R228). -/
def execLdxBS (d a : BitVec 6) (i : BitVec 10) (s : State) : Out := loadGlobal d a (dispImm i 1) 1 true s

/-- LDX.B.Z (R228). -/
def execLdxBZ (d a : BitVec 6) (i : BitVec 10) (s : State) : Out := loadGlobal d a (dispImm i 1) 1 false s

/-- LDX.H.S (R228). -/
def execLdxHS (d a : BitVec 6) (i : BitVec 10) (s : State) : Out := loadGlobal d a (dispImm i 2) 2 true s

/-- LDX.H.Z (R228). -/
def execLdxHZ (d a : BitVec 6) (i : BitVec 10) (s : State) : Out := loadGlobal d a (dispImm i 2) 2 false s

/-- LDX.W.S (R228). -/
def execLdxWS (d a : BitVec 6) (i : BitVec 10) (s : State) : Out := loadGlobal d a (dispImm i 4) 4 true s

/-- LDX.W.Z (R228). -/
def execLdxWZ (d a : BitVec 6) (i : BitVec 10) (s : State) : Out := loadGlobal d a (dispImm i 4) 4 false s

/-- LDX.D.S (R228). -/
def execLdxDS (d a : BitVec 6) (i : BitVec 10) (s : State) : Out := loadGlobal d a (dispImm i 8) 8 true s

/-- LDX.D.Z (R228). -/
def execLdxDZ (d a : BitVec 6) (i : BitVec 10) (s : State) : Out := loadGlobal d a (dispImm i 8) 8 false s

/-- LDX.Q (R228). -/
def execLdxQ (d a : BitVec 6) (i : BitVec 10) (s : State) : Out := loadGlobal d a (dispImm i 16) 16 false s

/-- STX.B (R228). -/
def execStxB (d a : BitVec 6) (i : BitVec 10) (s : State) : Out := storeGlobal d a (dispImm i 1) 1 s

/-- STX.H (R228). -/
def execStxH (d a : BitVec 6) (i : BitVec 10) (s : State) : Out := storeGlobal d a (dispImm i 2) 2 s

/-- STX.W (R228). -/
def execStxW (d a : BitVec 6) (i : BitVec 10) (s : State) : Out := storeGlobal d a (dispImm i 4) 4 s

/-- STX.D (R228). -/
def execStxD (d a : BitVec 6) (i : BitVec 10) (s : State) : Out := storeGlobal d a (dispImm i 8) 8 s

/-- STX.Q (R228). -/
def execStxQ (d a : BitVec 6) (i : BitVec 10) (s : State) : Out := storeGlobal d a (dispImm i 16) 16 s

/-- LDX at [kA + kB] (R228): kB is a signed number of bytes. -/
def execLdxIndexed (d a b : BitVec 6) (n : BitVec 4) (s : State) : Out :=
  loadGlobal d a (signed 128 (rn s b)) (loadShape n.toNat).1 (loadShape n.toNat).2 s

/-- STX at [kA + kB] (R228). -/
def execStxIndexed (d a b : BitVec 6) (n : BitVec 4) (s : State) : Out := storeGlobal d a (signed 128 (rn s b)) (2 ^ n.toNat) s

/-- The bytes of an atomic's size code (R230). -/
def amoBytes (n : BitVec 2) : Nat := 2 ^ (n.toNat + 2)

/-- AADD (R230). -/
def execAadd (d a b : BitVec 6) (n : BitVec 2) (s : State) : Out := atomic 0 d a b (amoBytes n) true s

/-- AMIN (R230). -/
def execAmin (d a b : BitVec 6) (u : Bool) (n : BitVec 2) (s : State) : Out := atomic (if u then 3 else 1) d a b (amoBytes n) true s

/-- AMAX (R230). -/
def execAmax (d a b : BitVec 6) (u : Bool) (n : BitVec 2) (s : State) : Out := atomic (if u then 4 else 2) d a b (amoBytes n) true s

/-- AAND (R230). -/
def execAand (d a b : BitVec 6) (n : BitVec 2) (s : State) : Out := atomic 5 d a b (amoBytes n) true s

/-- AOR (R230). -/
def execAor (d a b : BitVec 6) (n : BitVec 2) (s : State) : Out := atomic 6 d a b (amoBytes n) true s

/-- AXOR (R230). -/
def execAxor (d a b : BitVec 6) (n : BitVec 2) (s : State) : Out := atomic 7 d a b (amoBytes n) true s

/-- ASWP (R230). -/
def execAswp (d a b : BitVec 6) (n : BitVec 2) (s : State) : Out := atomic 8 d a b (amoBytes n) true s

/-- ACAS (R230). -/
def execAcas (d a b : BitVec 6) (n : BitVec 2) (s : State) : Out := atomic 9 d a b (amoBytes n) true s

/-- RADD (R230, R231): posted. -/
def execRadd (a b : BitVec 6) (n : BitVec 2) (s : State) : Out := atomic 0 0 a b (amoBytes n) false s

/-- FRADD (R230, R231): posted. -/
def execFradd (a b : BitVec 6) (s : State) : Out := atomic 10 0 a b 4 false s

end Sys2Proof.Machine
end

