-- ==== Sys2Proof/Machine/Packed.lean ====
section
/-! DEFINITION. The packed subword instructions (R58, R59, R263, R264). -/

namespace Sys2Proof.Machine

/-! ## Lanes -/

/-- The lanes of a register in a format of PW's codes (R58). -/
def laneCount (f : Nat) : Nat := 128 / elemBits f

/-- The value of lane `i`. -/
def lane (f r i : Nat) : FV := valueOf f (r / 2 ^ (elemBits f * i) % 2 ^ elemBits f)

/-- Every lane's value. -/
def laneVals (f r : Nat) : List FV := (List.range (laneCount f)).map (lane f r)

/-- A register from its lanes' patterns. -/
def packLanes (w : Nat) : List Nat → Nat
  | [] => 0
  | p :: t => p % 2 ^ w + 2 ^ w * packLanes w t

/-- Rounds a finite value to an integer that wraps (R264): infinities and NaNs convert as R54 gives. -/
def packWrap (w : Nat) (sg : Bool) (v : FV) (mode : Nat) (n : NumSt) : Nat × NumSt :=
  match v with
  | .fin neg m e =>
    let r := n.draw mode
    let q := roundTo neg m e 0 mode r.1
    (wrap w (if neg then -(q.1 : Int) else q.1), r.2.raise (if q.2 then flagNX else 0))
  | v => toInt w sg v mode n

/-- Pack (R264): rounds a value into the format PW, wrapping integers with W. -/
def pack (pw : Nat) (wrapInt : Bool) (mode : Nat) (sat : Bool) (v : FV) (n : NumSt) : Nat × NumSt :=
  match intFmt pw with
  | some (w, sg) => if wrapInt then packWrap w sg v mode n else toInt w sg v mode n
  | none => convert pw v mode sat n

/-- Packs lanes from lane 0 upward (R263). -/
def packAll (pw : Nat) (wrapInt : Bool) (mode : Nat) (sat : Bool) : List (FV × Nat) → NumSt → List Nat × NumSt
  | [], n => ([], n)
  | (v, fl) :: t, n =>
    let p := pack pw wrapInt mode sat v (n.raise fl)
    let r := packAll pw wrapInt mode sat t p.2
    (p.1 :: r.1, r.2)

/-- PW as it stands (R57). -/
def pwOf (s : State) : Nat := fmtPw (cx s).fmt

/-- Writes lanes to K[d], packed under the mode of R263. -/
def packDone (d : BitVec 6) (wrapInt : Bool) (l : List (FV × Nat)) (s : State) : State :=
  let x := cx s
  let p := packAll (pwOf s) wrapInt (roundMode x) (fmtSat x.fmt) l (curCore s).num
  numDone d (packLanes (elemBits (pwOf s)) p.1) p.2 s

/-- An operation on the lanes of K[a] and K[b]. -/
def lanewise (d a b : BitVec 6) (w : Bool) (f : FV → FV → FV × Nat) (s : State) : Out :=
  rounding (fun s =>
    .next (packDone d w (List.zipWith f (laneVals (pwOf s) (rn s a)) (laneVals (pwOf s) (rn s b))) s)) s

/-- PADD (R264). -/
def execPadd (d a b : BitVec 6) (w : Bool) (s : State) : Out := lanewise d a b w (fun p q => addV p q (roundMode (cx s))) s

/-- PSUB (R264). -/
def execPsub (d a b : BitVec 6) (w : Bool) (s : State) : Out := lanewise d a b w (fun p q => addV p (negV q) (roundMode (cx s))) s

/-- PMUL (R264). -/
def execPmul (d a b : BitVec 6) (w : Bool) (s : State) : Out := lanewise d a b w mulV s

/-- PFMA (R264): the addend is the old K[d]. -/
def execPfma (d a b : BitVec 6) (w : Bool) (s : State) : Out :=
  rounding (fun s =>
    let f := pwOf s
    let l := (List.range (laneCount f)).map fun i => fmaV (lane f (rn s a) i) (lane f (rn s b) i) (lane f (rn s d) i) (roundMode (cx s))
    .next (packDone d w l s)) s

/-- The lesser or the greater of each lane (R169): nothing is rounded. -/
def packedPick (d a b : BitVec 6) (max : Bool) (s : State) : State :=
  let f := pwOf s
  let l := List.zipWith (minmaxV max) (laneVals f (rn s a)) (laneVals f (rn s b))
  let p := packAll f false 0 (fmtSat (cx s).fmt) l (curCore s).num
  numDone d (packLanes (elemBits f) p.1) p.2 s

/-- PMIN (R264). -/
def execPmin (d a b : BitVec 6) (s : State) : Out := .next (packedPick d a b false s)

/-- PMAX (R264). -/
def execPmax (d a b : BitVec 6) (s : State) : Out := .next (packedPick d a b true s)

/-! ## Sums (R62, R264) -/

/-- A sum of products with its special cases (R62): any NaN, then opposite infinities, then an infinity, then the exact sum. -/
def sumSpecial (l : List (FV × Nat)) : FV × Nat :=
  let fl := l.foldl (fun f p => f ||| p.2) 0
  if l.any fun p => p.1.isNan then (.nan false, fl)
  else
    let pos := l.any fun p => p.1.isInf && !p.1.neg
    let ng := l.any fun p => p.1.isInf && p.1.neg
    if pos && ng then (.nan false, fl ||| flagNV)
    else if pos || ng then (.inf ng, fl)
    else
      match l.foldl (fun a p => sumFin a p.1 0) (.fin false 0 0) with
      | .fin _ 0 _ => (.fin false 0 0, fl)
      | v => (v, fl)

/-- An element under an E8M0 scale (R59): 0xFF reads as +0. -/
def scaled8 (scale : Nat) (v : FV) : FV := if scale = 255 then .fin false 0 0 else v.scale ((scale : Int) - 127)

/-- PDOT (R264): with SC the scales are those of k(48 + 2c) and k(49 + 2c); SC with an integer PW is reserved. -/
def execPdot (d a b : BitVec 6) (e : Bool) (k : BitVec 2) (s : State) : Out :=
  let f := pwOf s
  let x := cx s
  let av := laneVals f (rn s a)
  let bv := laneVals f (rn s b)
  if isIntFmt f then
    if e then .next (trapWord 0x01 s)
    else .next (finish (putNat d (wrap 32 ((List.zipWith (fun p q => p.at 0 * q.at 0) av bv).sum)) s))
  else
    let sa := if e then wbits (reg x (48 + 2 * k.toNat)).val 7 0 else 127
    let sb := if e then wbits (reg x (49 + 2 * k.toNat)).val 7 0 else 127
    let r := sumSpecial (List.zipWith (fun p q => mulV (scaled8 sa p) (scaled8 sb q)) av bv)
    let p := convert 0 r.1 0 false ((curCore s).num.raise r.2)
    .next (numDone d p.1 p.2 s)

/-! ## Conversions (R264) -/

/-- The source lanes of PCVT and PQNT and the part's place in the result: none where the part is reserved. -/
def partLanes (fmt pw part r : Nat) : Option (List FV × Nat) :=
  let lf := laneCount fmt
  let lp := laneCount pw
  if lp ≤ lf then
    if part < lf / lp then some ((List.range lp).map fun i => lane fmt r (part * lp + i), 0) else none
  else
    if part < lp / lf then some (laneVals fmt r, part * lf) else none

/-- The result's lanes: zeros around the part. -/
def placeLanes (n first : Nat) (l : List Nat) : List Nat :=
  List.replicate first 0 ++ l ++ List.replicate (n - first - l.length) 0

/-- PCVT (R264). -/
def execPcvt (d a f : BitVec 6) (w : Bool) (p : BitVec 2) (s : State) : Out :=
  let pw := pwOf s
  match partLanes f.toNat pw p.toNat (rn s a) with
  | none => .next (trapWord 0x01 s)
  | some (l, first) =>
    rounding (fun s =>
      let x := cx s
      let q := packAll pw w (roundMode x) (fmtSat x.fmt) (l.map fun v => (v, 0)) (curCore s).num
      .next (numDone d (packLanes (elemBits pw) (placeLanes (laneCount pw) first q.1)) q.2 s)) s

/-- PSCL (R264). -/
def execPscl (d a b : BitVec 6) (w : Bool) (s : State) : Out :=
  let k := rn s b % 256
  if k = 255 then .next (finish (putNat d 0 s))
  else rounding (fun s => .next (packDone d w ((laneVals (pwOf s) (rn s a)).map fun v => (v.scale ((k : Int) - 127), 0)) s)) s

/-- The floor of log2 of PW's largest finite magnitude or integer maximum. -/
def log2Largest (pw : Nat) : Int :=
  match floatFmt pw, intFmt pw with
  | some f, _ => (bitLen (largest f).1 : Int) - 1 + (largest f).2
  | none, some (w, sg) => (bitLen (intMax w sg).toNat : Int) - 1
  | none, none => 0

/-- PQNT's scale (R264). -/
def pqntScale (pw : Nat) (l : List FV) : Nat :=
  match l.filterMap (fun v => match v with | .fin _ (m + 1) e => some ((bitLen (m + 1) : Int) - 1 + e) | _ => none) with
  | [] => 255
  | h :: t => Nat.min 254 (127 + t.foldl (fun a b => if a < b then b else a) h - log2Largest pw).toNat

/-- PQNT (R264): K[d], then the companion k(48 + 2c). -/
def execPqnt (d a f : BitVec 6) (k p : BitVec 2) (s : State) : Out :=
  let pw := pwOf s
  match partLanes f.toNat pw p.toNat (rn s a) with
  | none => .next (trapWord 0x01 s)
  | some (l, first) =>
    let sc := pqntScale pw l
    let comp := BitVec.ofNat 6 (48 + 2 * k.toNat)
    if sc = 255 then .next (finish (putNat comp 255 (putNat d 0 s)))
    else
      rounding (fun s =>
        let x := cx s
        let q := packAll pw false (roundMode x) (fmtSat x.fmt) (l.map fun v => (v.scale (127 - (sc : Int)), 0)) (curCore s).num
        let s := putNum s.cur (onSup s) q.2 s
        .next (finish (putNat comp sc (putNat d (packLanes (elemBits pw) (placeLanes (laneCount pw) first q.1)) s)))) s

end Sys2Proof.Machine
end

