-- ==== Sys2Proof/Machine/Scalar.lean ====
section
/-! DEFINITION. The scalar integer instructions, hints and immediates (R133, R134, R159 to R166). -/

namespace Sys2Proof.Machine

/-! ## Operands -/

/-- The width that a code selects (R162, R166): 0 is 128, 1 is 64, 2 is 32. -/
def widthOf (n : BitVec 2) : Nat := if n = 0 then 128 else if n = 1 then 64 else 32

/-- The operands of an integer operation at width W (R162): the unsigned readings, from which the signed ones and the amount follow. -/
structure IntArgs where
  w : Nat
  xu : Nat
  yu : Nat
deriving DecidableEq, Repr

/-- The signed reading of the first operand. -/
def IntArgs.xs (a : IntArgs) : Int := signed a.w a.xu

/-- The signed reading of the second operand. -/
def IntArgs.ys (a : IntArgs) : Int := signed a.w a.yu

/-- The shift and rotate amount. -/
def IntArgs.sh (a : IntArgs) : Nat := a.yu % a.w

/-- The operands of K[a] and K[b] at width W. -/
def intArgs (a b : BitVec 6) (n : BitVec 2) (s : State) : IntArgs :=
  let w := widthOf n
  { w := w, xu := rn s a % 2 ^ w, yu := rn s b % 2 ^ w }

/-- K[d] := SignExtend(r[W-1:0], 128) with tag 0, and the word is complete (R162). -/
def intDone (d : BitVec 6) (w : Nat) (r : Int) (s : State) : State := finish (putWord d (sext w (wrap w r)) s)

/-! ## Results (the table of R162) -/

def addR (a : IntArgs) : Int := a.xs + a.ys
def subR (a : IntArgs) : Int := a.xs - a.ys
def mulR (a : IntArgs) : Int := a.xs * a.ys
def mulhR (a : IntArgs) : Int := (a.xs * a.ys) / (2 ^ a.w : Nat)
def mulhuR (a : IntArgs) : Int := (a.xu * a.yu) / 2 ^ a.w
def divR (a : IntArgs) : Int := a.xs.tdiv a.ys
def divuR (a : IntArgs) : Int := a.xu / a.yu
def remR (a : IntArgs) : Int := a.xs.tmod a.ys
def remuR (a : IntArgs) : Int := a.xu % a.yu
def andR (a : IntArgs) : Int := a.xu &&& a.yu
def orR (a : IntArgs) : Int := a.xu ||| a.yu
def xorR (a : IntArgs) : Int := a.xu ^^^ a.yu
def sllR (a : IntArgs) : Int := a.xu * 2 ^ a.sh
def srlR (a : IntArgs) : Int := a.xu / 2 ^ a.sh
def sraR (a : IntArgs) : Int := a.xs / (2 ^ a.sh : Nat)
def rolR (a : IntArgs) : Int := (a.xu * 2 ^ a.w + a.xu) / 2 ^ (a.w - a.sh)
def rorR (a : IntArgs) : Int := (a.xu * 2 ^ a.w + a.xu) / 2 ^ a.sh
def minR (a : IntArgs) : Int := if a.xs ≤ a.ys then a.xs else a.ys
def maxR (a : IntArgs) : Int := if a.xs ≤ a.ys then a.ys else a.xs
def minuR (a : IntArgs) : Int := if a.xu ≤ a.yu then a.xu else a.yu
def maxuR (a : IntArgs) : Int := if a.xu ≤ a.yu then a.yu else a.xu
def sltR (a : IntArgs) : Int := if a.xs < a.ys then 1 else 0
def sltuR (a : IntArgs) : Int := if a.xu < a.yu then 1 else 0

/-- The number of leading zero bits in `w` bits. -/
def clzN (w x : Nat) : Nat := if x = 0 then w else w - 1 - Nat.log2 x

/-- The number of trailing zero bits in `w` bits: `w` of zero. -/
def ctzN : Nat → Nat → Nat
  | 0, _ => 0
  | w + 1, x => if x % 2 = 1 then 0 else 1 + ctzN w (x / 2)

/-- The number of one bits in `w` bits. -/
def popcN : Nat → Nat → Nat
  | 0, _ => 0
  | w + 1, x => x % 2 + popcN w (x / 2)

/-! ## Hints (R133, R134, R136, R137) -/

/-- A hint word has issued: one cycle, and the hint waits for its instruction. -/
def hintDone (h : Hint) (s : State) : State :=
  let x0 := cx s
  let s := spend (if replaying x0 then 3 else 4) s
  let x := cx s
  let p := repAdvance ((x.pc + 4) % 65536) x.reps
  markIssued (setCx s { x with hint := h, hintPc := if x0.hint == Hint.none then x0.pc else x0.hintPc, pc := p.1, reps := p.2 })

/-- HX (R133, R136): after at most one other HX. -/
def execHx (p : BitVec 22) (s : State) : Out :=
  match (cx s).hint with
  | .none => .next (hintDone (.hx [p.toNat]) s)
  | .hx [a] => .next (hintDone (.hx [a, p.toNat]) s)
  | _ => .next (trapWord 0x02 s)

/-- HV (R134, R136): only as the first hint word. -/
def execHv (t : Bool) (o : BitVec 8) (e : Bool) (m : BitVec 3) (p : BitVec 2) (r : BitVec 3) (f : Bool) (x : BitVec 3) (s : State) : Out :=
  match (cx s).hint with
  | .none =>
    .next (hintDone (.hv (fld (b2n t) 21 + fld o.toNat 13 + fld (b2n e) 12 + fld m.toNat 9 + fld p.toNat 7 + fld r.toNat 4 +
      fld (b2n f) 3 + x.toNat)) s)
  | _ => .next (trapWord 0x02 s)

/-! ## Immediates (R161) -/

/-- WideImmediate (R133). -/
def wideImm (h : Hint) (imm : BitVec 16) : Word :=
  match h with
  | .hx [p] => sext 38 (p * 65536 + imm.toNat)
  | .hx [p, q] => sext 60 ((p * 2 ^ 22 + q) * 65536 + imm.toNat)
  | _ => sext 16 imm.toNat

/-- LDI (R161). -/
def execLdi (d : BitVec 6) (i : BitVec 16) (s : State) : Out := .next (finish (putWord d (wideImm (cx s).hint i) s))

/-- ADDL (R161). -/
def execAddl (d : BitVec 6) (i : BitVec 16) (s : State) : Out := .next (finish (putWord d (rv s d + wideImm (cx s).hint i) s))

/-! ## Register operations (R162 to R164) -/

/-- ADD (R162). -/
def execAdd (d a b : BitVec 6) (n : BitVec 2) (s : State) : Out :=
  .next (intDone d (widthOf n) (addR (intArgs a b n s)) s)

/-- SUB (R162). -/
def execSub (d a b : BitVec 6) (n : BitVec 2) (s : State) : Out :=
  .next (intDone d (widthOf n) (subR (intArgs a b n s)) s)

/-- MUL (R162). -/
def execMul (d a b : BitVec 6) (n : BitVec 2) (s : State) : Out :=
  .next (intDone d (widthOf n) (mulR (intArgs a b n s)) s)

/-- MULH (R162). -/
def execMulh (d a b : BitVec 6) (n : BitVec 2) (s : State) : Out :=
  .next (intDone d (widthOf n) (mulhR (intArgs a b n s)) s)

/-- MULHU (R162). -/
def execMulhu (d a b : BitVec 6) (n : BitVec 2) (s : State) : Out :=
  .next (intDone d (widthOf n) (mulhuR (intArgs a b n s)) s)

/-- DIV (R162, R163): a zero divisor traps under DZT, and otherwise gives all ones. -/
def execDiv (d a b : BitVec 6) (n : BitVec 2) (s : State) : Out :=
  if (intArgs a b n s).yu = 0 then
    if (cx s).dzt then .next (trapWord 0x07 s) else .next (intDone d (widthOf n) (-1) s)
  else .next (intDone d (widthOf n) (divR (intArgs a b n s)) s)

/-- DIVU (R162, R163): a zero divisor traps under DZT, and otherwise gives all ones. -/
def execDivu (d a b : BitVec 6) (n : BitVec 2) (s : State) : Out :=
  if (intArgs a b n s).yu = 0 then
    if (cx s).dzt then .next (trapWord 0x07 s) else .next (intDone d (widthOf n) (-1) s)
  else .next (intDone d (widthOf n) (divuR (intArgs a b n s)) s)

/-- REM (R162, R163): a zero divisor traps under DZT, and otherwise gives the dividend. -/
def execRem (d a b : BitVec 6) (n : BitVec 2) (s : State) : Out :=
  if (intArgs a b n s).yu = 0 then
    if (cx s).dzt then .next (trapWord 0x07 s) else .next (intDone d (widthOf n) (intArgs a b n s).xu s)
  else .next (intDone d (widthOf n) (remR (intArgs a b n s)) s)

/-- REMU (R162, R163): a zero divisor traps under DZT, and otherwise gives the dividend. -/
def execRemu (d a b : BitVec 6) (n : BitVec 2) (s : State) : Out :=
  if (intArgs a b n s).yu = 0 then
    if (cx s).dzt then .next (trapWord 0x07 s) else .next (intDone d (widthOf n) (intArgs a b n s).xu s)
  else .next (intDone d (widthOf n) (remuR (intArgs a b n s)) s)

/-- AND (R162). -/
def execAnd (d a b : BitVec 6) (n : BitVec 2) (s : State) : Out :=
  .next (intDone d (widthOf n) (andR (intArgs a b n s)) s)

/-- OR (R162). -/
def execOr (d a b : BitVec 6) (n : BitVec 2) (s : State) : Out :=
  .next (intDone d (widthOf n) (orR (intArgs a b n s)) s)

/-- XOR (R162). -/
def execXor (d a b : BitVec 6) (n : BitVec 2) (s : State) : Out :=
  .next (intDone d (widthOf n) (xorR (intArgs a b n s)) s)

/-- SLL (R162). -/
def execSll (d a b : BitVec 6) (n : BitVec 2) (s : State) : Out :=
  .next (intDone d (widthOf n) (sllR (intArgs a b n s)) s)

/-- SRL (R162). -/
def execSrl (d a b : BitVec 6) (n : BitVec 2) (s : State) : Out :=
  .next (intDone d (widthOf n) (srlR (intArgs a b n s)) s)

/-- SRA (R162). -/
def execSra (d a b : BitVec 6) (n : BitVec 2) (s : State) : Out :=
  .next (intDone d (widthOf n) (sraR (intArgs a b n s)) s)

/-- ROL (R162). -/
def execRol (d a b : BitVec 6) (n : BitVec 2) (s : State) : Out :=
  .next (intDone d (widthOf n) (rolR (intArgs a b n s)) s)

/-- ROR (R162). -/
def execRor (d a b : BitVec 6) (n : BitVec 2) (s : State) : Out :=
  .next (intDone d (widthOf n) (rorR (intArgs a b n s)) s)

/-- MIN (R162). -/
def execMin (d a b : BitVec 6) (n : BitVec 2) (s : State) : Out :=
  .next (intDone d (widthOf n) (minR (intArgs a b n s)) s)

/-- MAX (R162). -/
def execMax (d a b : BitVec 6) (n : BitVec 2) (s : State) : Out :=
  .next (intDone d (widthOf n) (maxR (intArgs a b n s)) s)

/-- MINU (R162). -/
def execMinu (d a b : BitVec 6) (n : BitVec 2) (s : State) : Out :=
  .next (intDone d (widthOf n) (minuR (intArgs a b n s)) s)

/-- MAXU (R162). -/
def execMaxu (d a b : BitVec 6) (n : BitVec 2) (s : State) : Out :=
  .next (intDone d (widthOf n) (maxuR (intArgs a b n s)) s)

/-- SLT (R162). -/
def execSlt (d a b : BitVec 6) (n : BitVec 2) (s : State) : Out :=
  .next (intDone d (widthOf n) (sltR (intArgs a b n s)) s)

/-- SLTU (R162). -/
def execSltu (d a b : BitVec 6) (n : BitVec 2) (s : State) : Out :=
  .next (intDone d (widthOf n) (sltuR (intArgs a b n s)) s)

/-- CLZ (R162). -/
def execClz (d a : BitVec 6) (n : BitVec 2) (s : State) : Out :=
  .next (intDone d (widthOf n) (clzN (widthOf n) (rn s a % 2 ^ widthOf n)) s)

/-- CTZ (R162). -/
def execCtz (d a : BitVec 6) (n : BitVec 2) (s : State) : Out :=
  .next (intDone d (widthOf n) (ctzN (widthOf n) (rn s a % 2 ^ widthOf n)) s)

/-- POPC (R162). -/
def execPopc (d a : BitVec 6) (n : BitVec 2) (s : State) : Out :=
  .next (intDone d (widthOf n) (popcN (widthOf n) (rn s a % 2 ^ widthOf n)) s)

/-- SEL (R164): all 128 bits of the old kD are tested. -/
def execSel (d a b : BitVec 6) (s : State) : Out := .next (finish (putWord d (if rv s d ≠ 0 then rv s a else rv s b) s))

/-- The width that SEXT and ZEXT extend from (R164). -/
def extWidth (n : BitVec 2) : Nat := 8 * 2 ^ n.toNat

/-- SEXT (R164). -/
def execSext (d a : BitVec 6) (n : BitVec 2) (s : State) : Out := .next (finish (putWord d (sext (extWidth n) (rn s a)) s))

/-- ZEXT (R164). -/
def execZext (d a : BitVec 6) (n : BitVec 2) (s : State) : Out := .next (finish (putWord d (zext (extWidth n) (rn s a)) s))

/-- The position and the length of the field that kB describes (R165). -/
def bfPos (b : Nat) : Nat := b % 128
def bfLen (b : Nat) : Nat := Nat.min (bits b 15 8) (128 - bfPos b)

/-- BFX (R165): a field of K[a], zero- or sign-extended; a length of 0 gives 0. -/
def execBfx (d a b : BitVec 6) (n : Bool) (s : State) : Out :=
  let len := bfLen (rn s b)
  let v := rn s a / 2 ^ bfPos (rn s b)
  .next (finish (putWord d (if len = 0 then 0 else if n then sext len v else zext len v) s))

/-- BFI (R165): replaces a field of K[d]; the tag is cleared whatever the length. -/
def execBfi (d a b : BitVec 6) (s : State) : Out :=
  let pos := bfPos (rn s b)
  let len := bfLen (rn s b)
  let old := rn s d
  let v := if len = 0 then old else setBits old (pos + len - 1) pos (rn s a)
  .next (finish (putNat d v s))

/-! ## Immediate operations (R166) -/

/-- imm10, sign-extended. -/
def imm (i : BitVec 10) : Int := signed 10 i.toNat

/-- ADDI (R166). -/
def execAddi (d a : BitVec 6) (i : BitVec 10) (s : State) : Out := .next (finish (putWord d (rv s a + toWord (imm i)) s))

/-- ANDI (R166). -/
def execAndi (d a : BitVec 6) (i : BitVec 10) (s : State) : Out := .next (finish (putWord d (rv s a &&& toWord (imm i)) s))

/-- ORI (R166). -/
def execOri (d a : BitVec 6) (i : BitVec 10) (s : State) : Out := .next (finish (putWord d (rv s a ||| toWord (imm i)) s))

/-- XORI (R166). -/
def execXori (d a : BitVec 6) (i : BitVec 10) (s : State) : Out := .next (finish (putWord d (rv s a ^^^ toWord (imm i)) s))

/-- SLTI (R166): signed. -/
def execSlti (d a : BitVec 6) (i : BitVec 10) (s : State) : Out :=
  .next (finish (putNat d (if signed 128 (rn s a) < imm i then 1 else 0) s))

/-- SLTIU (R166): unsigned, against the immediate modulo 2^128. -/
def execSltiu (d a : BitVec 6) (i : BitVec 10) (s : State) : Out :=
  .next (finish (putNat d (if rn s a < (toWord (imm i)).toNat then 1 else 0) s))

/-- MULI (R166). -/
def execMuli (d a : BitVec 6) (i : BitVec 10) (s : State) : Out := .next (finish (putWord d (rv s a * toWord (imm i)) s))

/-- The operands of a shift immediate: K[a] at the coded width, and the amount. -/
def shiftArgs (a : BitVec 6) (w : BitVec 2) (m : BitVec 7) (s : State) : IntArgs :=
  { w := widthOf w, xu := rn s a % 2 ^ widthOf w, yu := m.toNat }

/-- SLLI (R166). -/
def execSlli (d a : BitVec 6) (w : BitVec 2) (m : BitVec 7) (s : State) : Out :=
  .next (intDone d (widthOf w) (sllR (shiftArgs a w m s)) s)

/-- SRLI (R166). -/
def execSrli (d a : BitVec 6) (w : BitVec 2) (m : BitVec 7) (s : State) : Out :=
  .next (intDone d (widthOf w) (srlR (shiftArgs a w m s)) s)

/-- SRAI (R166). -/
def execSrai (d a : BitVec 6) (w : BitVec 2) (m : BitVec 7) (s : State) : Out :=
  .next (intDone d (widthOf w) (sraR (shiftArgs a w m s)) s)

end Sys2Proof.Machine
end

