-- ==== Sys2Proof/Machine/Dispatch.lean ====
section
/-! DEFINITION. What each row of the opcode table does: one arm for each constructor, each one call of its meaning. -/

namespace Sys2Proof.Machine

def exec (i : Instr) (s : State) : Host.Outcome State Fault Refusal :=
  match i with
  | .hx p => Sys2Proof.Machine.execHx p s
  | .hv t o ev m p r f sz => Sys2Proof.Machine.execHv t o ev m p r f sz s
  | .ldi d im => Sys2Proof.Machine.execLdi d im s
  | .addl d im => Sys2Proof.Machine.execAddl d im s
  | .srd d h => Sys2Proof.Machine.execSrd d h s
  | .swr d h => Sys2Proof.Machine.execSwr d h s
  | .trap a im => Sys2Proof.Machine.execTrap a im s
  | .ctxsv d a => Sys2Proof.Machine.execCtxsv d a s
  | .ctxld d a => Sys2Proof.Machine.execCtxld d a s
  | .lblpush im => Sys2Proof.Machine.execLblpush im s
  | .add d a b n => Sys2Proof.Machine.execAdd d a b n s
  | .sub d a b n => Sys2Proof.Machine.execSub d a b n s
  | .mul d a b n => Sys2Proof.Machine.execMul d a b n s
  | .mulh d a b n => Sys2Proof.Machine.execMulh d a b n s
  | .mulhu d a b n => Sys2Proof.Machine.execMulhu d a b n s
  | .div d a b n => Sys2Proof.Machine.execDiv d a b n s
  | .divu d a b n => Sys2Proof.Machine.execDivu d a b n s
  | .rem d a b n => Sys2Proof.Machine.execRem d a b n s
  | .remu d a b n => Sys2Proof.Machine.execRemu d a b n s
  | .and d a b n => Sys2Proof.Machine.execAnd d a b n s
  | .or d a b n => Sys2Proof.Machine.execOr d a b n s
  | .xor d a b n => Sys2Proof.Machine.execXor d a b n s
  | .sll d a b n => Sys2Proof.Machine.execSll d a b n s
  | .srl d a b n => Sys2Proof.Machine.execSrl d a b n s
  | .sra d a b n => Sys2Proof.Machine.execSra d a b n s
  | .rol d a b n => Sys2Proof.Machine.execRol d a b n s
  | .ror d a b n => Sys2Proof.Machine.execRor d a b n s
  | .clz d a n => Sys2Proof.Machine.execClz d a n s
  | .ctz d a n => Sys2Proof.Machine.execCtz d a n s
  | .popc d a n => Sys2Proof.Machine.execPopc d a n s
  | .min d a b n => Sys2Proof.Machine.execMin d a b n s
  | .max d a b n => Sys2Proof.Machine.execMax d a b n s
  | .minu d a b n => Sys2Proof.Machine.execMinu d a b n s
  | .maxu d a b n => Sys2Proof.Machine.execMaxu d a b n s
  | .slt d a b n => Sys2Proof.Machine.execSlt d a b n s
  | .sltu d a b n => Sys2Proof.Machine.execSltu d a b n s
  | .sel d a b => Sys2Proof.Machine.execSel d a b s
  | .sext d a n => Sys2Proof.Machine.execSext d a n s
  | .zext d a n => Sys2Proof.Machine.execZext d a n s
  | .bfx d a b n => Sys2Proof.Machine.execBfx d a b n s
  | .bfi d a b => Sys2Proof.Machine.execBfi d a b s
  | .addi d a im => Sys2Proof.Machine.execAddi d a im s
  | .andi d a im => Sys2Proof.Machine.execAndi d a im s
  | .ori d a im => Sys2Proof.Machine.execOri d a im s
  | .xori d a im => Sys2Proof.Machine.execXori d a im s
  | .slli d a w m => Sys2Proof.Machine.execSlli d a w m s
  | .srli d a w m => Sys2Proof.Machine.execSrli d a w m s
  | .srai d a w m => Sys2Proof.Machine.execSrai d a w m s
  | .slti d a im => Sys2Proof.Machine.execSlti d a im s
  | .sltiu d a im => Sys2Proof.Machine.execSltiu d a im s
  | .muli d a im => Sys2Proof.Machine.execMuli d a im s
  | .csetb d a b x => Sys2Proof.Machine.execCsetb d a b x s
  | .cperm d a b => Sys2Proof.Machine.execCperm d a b s
  | .coff d a b => Sys2Proof.Machine.execCoff d a b s
  | .cgadr d a => Sys2Proof.Machine.execCgadr d a s
  | .cgbas d a => Sys2Proof.Machine.execCgbas d a s
  | .cglen d a => Sys2Proof.Machine.execCglen d a s
  | .cgprm d a => Sys2Proof.Machine.execCgprm d a s
  | .cclrt d a => Sys2Proof.Machine.execCclrt d a s
  | .capmv d a => Sys2Proof.Machine.execCapmv d a s
  | .cseal d a => Sys2Proof.Machine.execCseal d a s
  | .beq a b o => Sys2Proof.Machine.execBeq a b o s
  | .bne a b o => Sys2Proof.Machine.execBne a b o s
  | .blt a b o => Sys2Proof.Machine.execBlt a b o s
  | .bge a b o => Sys2Proof.Machine.execBge a b o s
  | .bltu a b o => Sys2Proof.Machine.execBltu a b o s
  | .bgeu a b o => Sys2Proof.Machine.execBgeu a b o s
  | .bc c sz o => Sys2Proof.Machine.execBc c sz o s
  | .bnc c sz o => Sys2Proof.Machine.execBnc c sz o s
  | .j o => Sys2Proof.Machine.execJ o s
  | .jal o => Sys2Proof.Machine.execJal o s
  | .jr d a => Sys2Proof.Machine.execJr d a s
  | .rep d c t n => Sys2Proof.Machine.execRep d c t n s
  | .fadd d a b f => Sys2Proof.Machine.execFadd d a b f s
  | .fsub d a b f => Sys2Proof.Machine.execFsub d a b f s
  | .fmul d a b f => Sys2Proof.Machine.execFmul d a b f s
  | .ffma d a b f => Sys2Proof.Machine.execFfma d a b f s
  | .fmin d a b f => Sys2Proof.Machine.execFmin d a b f s
  | .fmax d a b f => Sys2Proof.Machine.execFmax d a b f s
  | .feq d a b f => Sys2Proof.Machine.execFeq d a b f s
  | .flt d a b f => Sys2Proof.Machine.execFlt d a b f s
  | .fle d a b f => Sys2Proof.Machine.execFle d a b f s
  | .fcvt d a sz t => Sys2Proof.Machine.execFcvt d a sz t s
  | .fclas d a f => Sys2Proof.Machine.execFclas d a f s
  | .fsgnj d a b v f => Sys2Proof.Machine.execFsgnj d a b v f s
  | .ldBS d a im => Sys2Proof.Machine.execLdBS d a im s
  | .ldBZ d a im => Sys2Proof.Machine.execLdBZ d a im s
  | .ldHS d a im => Sys2Proof.Machine.execLdHS d a im s
  | .ldHZ d a im => Sys2Proof.Machine.execLdHZ d a im s
  | .ldWS d a im => Sys2Proof.Machine.execLdWS d a im s
  | .ldWZ d a im => Sys2Proof.Machine.execLdWZ d a im s
  | .ldDS d a im => Sys2Proof.Machine.execLdDS d a im s
  | .ldDZ d a im => Sys2Proof.Machine.execLdDZ d a im s
  | .ldQ d a im => Sys2Proof.Machine.execLdQ d a im s
  | .stB d a im => Sys2Proof.Machine.execStB d a im s
  | .stH d a im => Sys2Proof.Machine.execStH d a im s
  | .stW d a im => Sys2Proof.Machine.execStW d a im s
  | .stD d a im => Sys2Proof.Machine.execStD d a im s
  | .stQ d a im => Sys2Proof.Machine.execStQ d a im s
  | .ldIndexed d a b n => Sys2Proof.Machine.execLdIndexed d a b n s
  | .stIndexed d a b n => Sys2Proof.Machine.execStIndexed d a b n s
  | .ldxBS d a im => Sys2Proof.Machine.execLdxBS d a im s
  | .ldxBZ d a im => Sys2Proof.Machine.execLdxBZ d a im s
  | .ldxHS d a im => Sys2Proof.Machine.execLdxHS d a im s
  | .ldxHZ d a im => Sys2Proof.Machine.execLdxHZ d a im s
  | .ldxWS d a im => Sys2Proof.Machine.execLdxWS d a im s
  | .ldxWZ d a im => Sys2Proof.Machine.execLdxWZ d a im s
  | .ldxDS d a im => Sys2Proof.Machine.execLdxDS d a im s
  | .ldxDZ d a im => Sys2Proof.Machine.execLdxDZ d a im s
  | .ldxQ d a im => Sys2Proof.Machine.execLdxQ d a im s
  | .stxB d a im => Sys2Proof.Machine.execStxB d a im s
  | .stxH d a im => Sys2Proof.Machine.execStxH d a im s
  | .stxW d a im => Sys2Proof.Machine.execStxW d a im s
  | .stxD d a im => Sys2Proof.Machine.execStxD d a im s
  | .stxQ d a im => Sys2Proof.Machine.execStxQ d a im s
  | .ldxIndexed d a b n => Sys2Proof.Machine.execLdxIndexed d a b n s
  | .stxIndexed d a b n => Sys2Proof.Machine.execStxIndexed d a b n s
  | .aadd d a b sz => Sys2Proof.Machine.execAadd d a b sz s
  | .amin d a b u sz => Sys2Proof.Machine.execAmin d a b u sz s
  | .amax d a b u sz => Sys2Proof.Machine.execAmax d a b u sz s
  | .aand d a b sz => Sys2Proof.Machine.execAand d a b sz s
  | .aor d a b sz => Sys2Proof.Machine.execAor d a b sz s
  | .axor d a b sz => Sys2Proof.Machine.execAxor d a b sz s
  | .aswp d a b sz => Sys2Proof.Machine.execAswp d a b sz s
  | .acas d a b sz => Sys2Proof.Machine.execAcas d a b sz s
  | .radd a b sz => Sys2Proof.Machine.execRadd a b sz s
  | .fradd a b => Sys2Proof.Machine.execFradd a b s
  | .att d a b => Sys2Proof.Machine.execAtt d a b s
  | .det d a => Sys2Proof.Machine.execDet d a s
  | .hand d a b => Sys2Proof.Machine.execHand d a b s
  | .bqry d a => Sys2Proof.Machine.execBqry d a s
  | .ring d a b => Sys2Proof.Machine.execRing d a b s
  | .sqry d a n => Sys2Proof.Machine.execSqry d a n s
  | .revk d a b => Sys2Proof.Machine.execRevk d a b s
  | .cpy g x y z b p r q n => Sys2Proof.Machine.execCpy g x y z b p r q n s
  | .cgth g x y z p r q n => Sys2Proof.Machine.execCgth g x y z p r q n s
  | .csct g x y z p r q n => Sys2Proof.Machine.execCsct g x y z p r q n s
  | .cdst g x y z b p r q n => Sys2Proof.Machine.execCdst g x y z b p r q n s
  | .cmcst g x y z b p r q n => Sys2Proof.Machine.execCmcst g x y z b p r q n s
  | .cwcnt d a b => Sys2Proof.Machine.execCwcnt d a b s
  | .cqry d a => Sys2Proof.Machine.execCqry d a s
  | .cfnc g p r q n => Sys2Proof.Machine.execCfnc g p r q n s
  | .vadd g x y z w => Sys2Proof.Machine.execVadd g x y z w s
  | .vsub g x y z w => Sys2Proof.Machine.execVsub g x y z w s
  | .vmul g x y z w => Sys2Proof.Machine.execVmul g x y z w s
  | .vfma g x y z w => Sys2Proof.Machine.execVfma g x y z w s
  | .vmin g x y z => Sys2Proof.Machine.execVmin g x y z s
  | .vmax g x y z => Sys2Proof.Machine.execVmax g x y z s
  | .vabs g x y w => Sys2Proof.Machine.execVabs g x y w s
  | .vneg g x y w => Sys2Proof.Machine.execVneg g x y w s
  | .vcmp g x y z c => Sys2Proof.Machine.execVcmp g x y z c s
  | .vsel g x y z m => Sys2Proof.Machine.execVsel g x y z m s
  | .vand g x y z => Sys2Proof.Machine.execVand g x y z s
  | .vor g x y z => Sys2Proof.Machine.execVor g x y z s
  | .vxor g x y z => Sys2Proof.Machine.execVxor g x y z s
  | .vsll g x y z => Sys2Proof.Machine.execVsll g x y z s
  | .vsrl g x y z => Sys2Proof.Machine.execVsrl g x y z s
  | .vsra g x y z => Sys2Proof.Machine.execVsra g x y z s
  | .vcvt g x y => Sys2Proof.Machine.execVcvt g x y s
  | .vqnt g x y w f => Sys2Proof.Machine.execVqnt g x y w f s
  | .vdqnt g x y z w u => Sys2Proof.Machine.execVdqnt g x y z w u s
  | .vred g x y o f => Sys2Proof.Machine.execVred g x y o f s
  | .vscan g x y o ev => Sys2Proof.Machine.execVscan g x y o ev s
  | .vperm g x y z => Sys2Proof.Machine.execVperm g x y z s
  | .vbcst g x y f => Sys2Proof.Machine.execVbcst g x y f s
  | .vmov g x y => Sys2Proof.Machine.execVmov g x y s
  | .mand g x y z => Sys2Proof.Machine.execMand g x y z s
  | .mor g x y z => Sys2Proof.Machine.execMor g x y z s
  | .mxor g x y z => Sys2Proof.Machine.execMxor g x y z s
  | .mnot g x y => Sys2Proof.Machine.execMnot g x y s
  | .mcnt d a => Sys2Proof.Machine.execMcnt d a s
  | .mset g x y z => Sys2Proof.Machine.execMset g x y z s
  | .msetU g x => Sys2Proof.Machine.execMsetU g x s
  | .vrcp g x y z t => Sys2Proof.Machine.execVrcp g x y z t s
  | .vrsq g x y z t => Sys2Proof.Machine.execVrsq g x y z t s
  | .vexp2 g x y z t => Sys2Proof.Machine.execVexp2 g x y z t s
  | .vlog2 g x y z t => Sys2Proof.Machine.execVlog2 g x y z t s
  | .vtanh g x y z t => Sys2Proof.Machine.execVtanh g x y z t s
  | .vsigm g x y z t => Sys2Proof.Machine.execVsigm g x y z t s
  | .vsin g x y z t => Sys2Proof.Machine.execVsin g x y z t s
  | .vcos g x y z t => Sys2Proof.Machine.execVcos g x y z t s
  | .tdem d a b n => Sys2Proof.Machine.execTdem d a b n s
  | .tred d a b => Sys2Proof.Machine.execTred d a b s
  | .tqry d a w => Sys2Proof.Machine.execTqry d a w s
  | .terr d a b n => Sys2Proof.Machine.execTerr d a b n s
  | .gset d a => Sys2Proof.Machine.execGset d a s
  | .gclr d => Sys2Proof.Machine.execGclr d s
  | .gwait d => Sys2Proof.Machine.execGwait d s
  | .padd d a b w => Sys2Proof.Machine.execPadd d a b w s
  | .psub d a b w => Sys2Proof.Machine.execPsub d a b w s
  | .pmul d a b w => Sys2Proof.Machine.execPmul d a b w s
  | .pfma d a b w => Sys2Proof.Machine.execPfma d a b w s
  | .pmin d a b => Sys2Proof.Machine.execPmin d a b s
  | .pmax d a b => Sys2Proof.Machine.execPmax d a b s
  | .pdot d a b ev c => Sys2Proof.Machine.execPdot d a b ev c s
  | .pcvt d a f w p => Sys2Proof.Machine.execPcvt d a f w p s
  | .pscl d a b w => Sys2Proof.Machine.execPscl d a b w s
  | .pqnt d a f c p => Sys2Proof.Machine.execPqnt d a f c p s
  | .mclm g x p => Sys2Proof.Machine.execMclm g x p s
  | .mrel g x => Sys2Proof.Machine.execMrel g x s
  | .mld g x y z p r q => Sys2Proof.Machine.execMld g x y z p r q s
  | .mma g x y z im c r ev n => Sys2Proof.Machine.execMma g x y z im c r ev n s
  | .mdrn g x y z l f p r q im t => Sys2Proof.Machine.execMdrn g x y z l f p r q im t s
  | .mspl g x y p r q => Sys2Proof.Machine.execMspl g x y p r q s
  | .mrst g x y p r q => Sys2Proof.Machine.execMrst g x y p r q s
  | .msnd g x y z => Sys2Proof.Machine.execMsnd g x y z s
  | .mzacc g x => Sys2Proof.Machine.execMzacc g x s
  | .mmov g x y => Sys2Proof.Machine.execMmov g x y s
  | .mmovG g x z => Sys2Proof.Machine.execMmovG g x z s
  | .mmovT g x y => Sys2Proof.Machine.execMmovT g x y s
  | .mqry d a => Sys2Proof.Machine.execMqry d a s
  | .mwait d => Sys2Proof.Machine.execMwait d s
  | .bar d a => Sys2Proof.Machine.execBar d a s
  | .lead d a b => Sys2Proof.Machine.execLead d a b s
  | .follow d a b => Sys2Proof.Machine.execFollow d a b s
  | .send d a b n => Sys2Proof.Machine.execSend d a b n s
  | .sendPort a b => Sys2Proof.Machine.execSendPort a b s
  | .recv d a b => Sys2Proof.Machine.execRecv d a b s
  | .recvT d a => Sys2Proof.Machine.execRecvT d a s
  | .recvPort d b => Sys2Proof.Machine.execRecvPort d b s
  | .recvF d a b => Sys2Proof.Machine.execRecvF d a b s
  | .precv d a b => Sys2Proof.Machine.execPrecv d a b s
  | .probeT d a => Sys2Proof.Machine.execProbeT d a s
  | .probe d a b => Sys2Proof.Machine.execProbe d a b s
  | .fence n => Sys2Proof.Machine.execFence n s
  | .tspawn d a b => Sys2Proof.Machine.execTspawn d a b s
  | .tdone a => Sys2Proof.Machine.execTdone a s
  | .tdec d a => Sys2Proof.Machine.execTdec d a s
  | .baddq g x y z w f => Sys2Proof.Machine.execBaddq g x y z w f s
  | .txc d n => Sys2Proof.Machine.execTxc d n s
  | .shash d a b => Sys2Proof.Machine.execShash d a b s
  | .sverf d a b => Sys2Proof.Machine.execSverf d a b s
  | .ssign d a b => Sys2Proof.Machine.execSsign d a b s
  | .scryp d a b => Sys2Proof.Machine.execScryp d a b s
  | .scrypDec d a b => Sys2Proof.Machine.execScrypDec d a b s
  | .skey d a b => Sys2Proof.Machine.execSkey d a b s
  | .skeyWipe d a b => Sys2Proof.Machine.execSkeyWipe d a b s
  | .smext d a b => Sys2Proof.Machine.execSmext d a b s
  | .sbind f d a b n => Sys2Proof.Machine.execSbind f d a b n s
  | .tret => Sys2Proof.Machine.execTret s
  | .tretK => Sys2Proof.Machine.execTretK s
  | .tretS => Sys2Proof.Machine.execTretS s
  | .idle => Sys2Proof.Machine.execIdle s
  | .brk => Sys2Proof.Machine.execBrk s
  | .lblpop => Sys2Proof.Machine.execLblpop s
  | .ifence => Sys2Proof.Machine.execIfence s
  | .nop => Sys2Proof.Machine.execNop s
  | .exit => Sys2Proof.Machine.execExit s
  | .join => Sys2Proof.Machine.execJoin s
  | .txb => Sys2Proof.Machine.execTxb s
  | .txa => Sys2Proof.Machine.execTxa s
  | .guardFalseDiscard c eng => Sys2Proof.Machine.execGuardFalseDiscard c eng s
  | .trapEntry c cause pc val => Sys2Proof.Machine.execTrapEntry c cause pc val s
  | .impreciseTrapTake c => Sys2Proof.Machine.execImpreciseTrapTake c s
  | .supervisorTrap c cause pc val => Sys2Proof.Machine.execSupervisorTrap c cause pc val s
  | .contextKill c cause pc val => Sys2Proof.Machine.execContextKill c cause pc val s
  | .preemption c => Sys2Proof.Machine.execPreemption c s
  | .contextRestore c area => Sys2Proof.Machine.execContextRestore c area s
  | .accountCounterLimit c => Sys2Proof.Machine.execAccountCounterLimit c s
  | .tdoneCommit c => Sys2Proof.Machine.execTdoneCommit c s
  | .dependenceDecrement r => Sys2Proof.Machine.execDependenceDecrement r s
  | .tspawnExpansion r => Sys2Proof.Machine.execTspawnExpansion r s
  | .redemand r => Sys2Proof.Machine.execRedemand r s
  | .txCommit c => Sys2Proof.Machine.execTxCommit c s
  | .txTimeout c => Sys2Proof.Machine.execTxTimeout c s
  | .launch die fn msg => Sys2Proof.Machine.execLaunch die fn msg s
  | .demandSweep die id => Sys2Proof.Machine.execDemandSweep die id s
  | .corestart die fn msg => Sys2Proof.Machine.execCorestart die fn msg s
  | .cancel die fn msg => Sys2Proof.Machine.execCancel die fn msg s
  | .imgreg die fn msg => Sys2Proof.Machine.execImgreg die fn msg s
  | .imgdrop die fn msg => Sys2Proof.Machine.execImgdrop die fn msg s
  | .activeMessageEnqueue die fn msg => Sys2Proof.Machine.execActiveMessageEnqueue die fn msg s
  | .completionRecordWrite fn => Sys2Proof.Machine.execCompletionRecordWrite fn s
  | .taskSelect die => Sys2Proof.Machine.execTaskSelect die s
  | .instanceStart r => Sys2Proof.Machine.execInstanceStart r s
  | .startMessage c => Sys2Proof.Machine.execStartMessage c s
  | .starvation r => Sys2Proof.Machine.execStarvation r s
  | .priorityAging r => Sys2Proof.Machine.execPriorityAging r s
  | .preemptDecision die => Sys2Proof.Machine.execPreemptDecision die s
  | .faultHandlerStart die flog => Sys2Proof.Machine.execFaultHandlerStart die flog s
  | .coreGatingStart c => Sys2Proof.Machine.execCoreGatingStart c s
  | .coreGatingCommit c => Sys2Proof.Machine.execCoreGatingCommit c s
  | .corePowerOff c => Sys2Proof.Machine.execCorePowerOff c s
  | .clusterGatingStart cl => Sys2Proof.Machine.execClusterGatingStart cl s
  | .clusterGatingCommit cl => Sys2Proof.Machine.execClusterGatingCommit cl s
  | .clusterPowerOff cl => Sys2Proof.Machine.execClusterPowerOff cl s
  | .wake cluster ix => Sys2Proof.Machine.execWake cluster ix s
  | .powerUpDone cluster ix => Sys2Proof.Machine.execPowerUpDone cluster ix s
  | .semAcquire fn sem => Sys2Proof.Machine.execSemAcquire fn sem s
  | .semRelease fn sem => Sys2Proof.Machine.execSemRelease fn sem s
  | .functionLevelReset fn => Sys2Proof.Machine.execFunctionLevelReset fn s
  | .invalFunction fn stage2 => Sys2Proof.Machine.execInvalFunction fn stage2 s
  | .invalPage fn stage2 addr => Sys2Proof.Machine.execInvalPage fn stage2 addr s
  | .invalRegion fn stage2 addr => Sys2Proof.Machine.execInvalRegion fn stage2 addr s
  | .invalComplete fn => Sys2Proof.Machine.execInvalComplete fn s
  | .numvfsWrite fn n enable => Sys2Proof.Machine.execNumvfsWrite fn n enable s
  | .istoreHostWrite fn c addr w => Sys2Proof.Machine.execIstoreHostWrite fn c addr w s
  | .cpoolWrite cl v => Sys2Proof.Machine.execCpoolWrite cl v s
  | .dieResetHold fn die hold => Sys2Proof.Machine.execDieResetHold fn die hold s
  | .moduleReset fn => Sys2Proof.Machine.execModuleReset fn s
  | .clockStop fn stop => Sys2Proof.Machine.execClockStop fn stop s
  | .fwupdWrite fn v => Sys2Proof.Machine.execFwupdWrite fn v s
  | .nmboxDoorbell fn v => Sys2Proof.Machine.execNmboxDoorbell fn v s
  | .mailboxWrite fn off bytes => Sys2Proof.Machine.execMailboxWrite fn off bytes s
  | .capgenWrite fn v => Sys2Proof.Machine.execCapgenWrite fn v s
  | .bqcfgWrite fn link v => Sys2Proof.Machine.execBqcfgWrite fn link v s
  | .registerWrite fn off v => Sys2Proof.Machine.execRegisterWrite fn off v s
  | .duskPulse => Sys2Proof.Machine.execDuskPulse s
  | .duskPeriodExpiry => Sys2Proof.Machine.execDuskPeriodExpiry s
  | .powerGood => Sys2Proof.Machine.execPowerGood s
  | .thermalWarning die => Sys2Proof.Machine.execThermalWarning die s
  | .thermalClear die => Sys2Proof.Machine.execThermalClear die s
  | .thermalTrip die => Sys2Proof.Machine.execThermalTrip die s
  | .accessForward id => Sys2Proof.Machine.execAccessForward id s
  | .accessSend id => Sys2Proof.Machine.execAccessSend id s
  | .linkCross id => Sys2Proof.Machine.execLinkCross id s
  | .bankPerform id => Sys2Proof.Machine.execBankPerform id s
  | .homeApply id => Sys2Proof.Machine.execHomeApply id s
  | .readReturn id => Sys2Proof.Machine.execReadReturn id s
  | .translationWalk id => Sys2Proof.Machine.execTranslationWalk id s
  | .pageRequestResponse fn group code => Sys2Proof.Machine.execPageRequestResponse fn group code s
  | .pageRequestTimeout fn group => Sys2Proof.Machine.execPageRequestTimeout fn group s
  | .handoverRequest r => Sys2Proof.Machine.execHandoverRequest r s
  | .handoverAnswer a => Sys2Proof.Machine.execHandoverAnswer a s
  | .messageArrival m => Sys2Proof.Machine.execMessageArrival m s
  | .taggedMessageArrival m => Sys2Proof.Machine.execTaggedMessageArrival m s
  | .portWordArrival c port w => Sys2Proof.Machine.execPortWordArrival c port w s
  | .barrierLeave key => Sys2Proof.Machine.execBarrierLeave key s
  | .chainLineArrival l => Sys2Proof.Machine.execChainLineArrival l s
  | .recvTimeout c => Sys2Proof.Machine.execRecvTimeout c s
  | .probeTimeout c => Sys2Proof.Machine.execProbeTimeout c s
  | .waitForProbe c => Sys2Proof.Machine.execWaitForProbe c s
  | .receiveCycle cores => Sys2Proof.Machine.execReceiveCycle cores s
  | .forwardedWordIssue c => Sys2Proof.Machine.execForwardedWordIssue c s
  | .vectorCommandTake c => Sys2Proof.Machine.execVectorCommandTake c s
  | .vectorGroup c => Sys2Proof.Machine.execVectorGroup c s
  | .vectorCommandComplete c => Sys2Proof.Machine.execVectorCommandComplete c s
  | .mldFillComplete c slot => Sys2Proof.Machine.execMldFillComplete c slot s
  | .accumulatorWriteback c ac => Sys2Proof.Machine.execAccumulatorWriteback c ac s
  | .matrixStoreComplete c => Sys2Proof.Machine.execMatrixStoreComplete c s
  | .msndAccept r => Sys2Proof.Machine.execMsndAccept r s
  | .copyStart c => Sys2Proof.Machine.execCopyStart c s
  | .copyComplete c id => Sys2Proof.Machine.execCopyComplete c id s
  | .bankScrubDone bank => Sys2Proof.Machine.execBankScrubDone bank s
  | .eccCorrected cls ix => Sys2Proof.Machine.execEccCorrected cls ix s
  | .bankLineLoss bank line => Sys2Proof.Machine.execBankLineLoss bank line s
  | .istoreWordLoss c addr => Sys2Proof.Machine.execIstoreWordLoss c addr s
  | .homeLineLoss addr kind key => Sys2Proof.Machine.execHomeLineLoss addr kind key s
  | .deviceStateLoss c unit ix => Sys2Proof.Machine.execDeviceStateLoss c unit ix s
  | .retirementMark kind ix => Sys2Proof.Machine.execRetirementMark kind ix s
  | .resourceRetire kind ix => Sys2Proof.Machine.execResourceRetire kind ix s
  | .channelRetire die ch => Sys2Proof.Machine.execChannelRetire die ch s
  | .laneSpareSwap link lane => Sys2Proof.Machine.execLaneSpareSwap link lane s
  | .laneRetrainDone link => Sys2Proof.Machine.execLaneRetrainDone link s
  | .laneLost link lane => Sys2Proof.Machine.execLaneLost link lane s
  | .cxlLinkDown port => Sys2Proof.Machine.execCxlLinkDown port s
  | .cxlLinkRetrain port => Sys2Proof.Machine.execCxlLinkRetrain port s
  | .debugHaltRequest c => Sys2Proof.Machine.execDebugHaltRequest c s
  | .debugRelease c => Sys2Proof.Machine.execDebugRelease c s
  | .debugStep c => Sys2Proof.Machine.execDebugStep c s
  | .debugPatchWrite cores addr w => Sys2Proof.Machine.execDebugPatchWrite cores addr w s
  | .traceRecordWrite c r => Sys2Proof.Machine.execTraceRecordWrite c r s
  | .dtentWrite v => Sys2Proof.Machine.execDtentWrite v s
  | .rseedWrite v => Sys2Proof.Machine.execRseedWrite v s
  | .trctlWrite v => Sys2Proof.Machine.execTrctlWrite v s
  | .bwtcWrite v => Sys2Proof.Machine.execBwtcWrite v s
  | .bwtrRead d => Sys2Proof.Machine.execBwtrRead d s
  | .nonceDraw d => Sys2Proof.Machine.execNonceDraw d s
  | .dbgopenWrite v => Sys2Proof.Machine.execDbgopenWrite v s
  | .fuseWrite v => Sys2Proof.Machine.execFuseWrite v s
  | .fuseBlowDone => Sys2Proof.Machine.execFuseBlowDone s
  | .twoPhaseRoutingWindow die counts => Sys2Proof.Machine.execTwoPhaseRoutingWindow die counts s
  | .blockNoticeArrival b => Sys2Proof.Machine.execBlockNoticeArrival b s
  | .functionReady => Sys2Proof.Machine.execFunctionReady s

end Sys2Proof.Machine
end

