-- ==== Sys2Proof/Machine/Inputs.lean ====
section
/-! DEFINITION. What the outside world does that is no row of the opcode table: a function's posted writes to device memory (R244), and what a
debugger reads and writes of a halted context (R363). -/

namespace Sys2Proof.Machine

/-! ## Posted writes (R244, R292) -/

/-- A function's write enters the machine as an access of its own source, on its way to its home; one that would leave the ranges of R216, or
pass the end of its 128-byte line, is none (DESIGN CHOICE, entry 132). -/
def hostWrite (fn pa : Nat) (b : List Byte) (s : State) : State :=
  if 64 ≤ fn ∨ b.isEmpty ∨ 128 < pa % 128 + b.length ∨ !physExtent s pa b.length then s
  else post { id := 0, core := hostSource fn, sup := false, eng := 0, dest := .home pa, size := b.length, write := some b, born := s.tick } s

/-! ## The debug port and a halted context (R363) -/

/-- Whether the port may reach the context of a core: it is open, and the user context is halted. -/
def portReaches (s : State) (c : Nat) : Bool := isCore c && portOpen s && (core s c).uload && (core s c).user.dbg.halted

/-- The machine as the special registers' own operations take it for the user context of a core. -/
def asUser (c : Nat) (s : State) : State := { setCore s c { core s c with supOn := false } with cur := c }

/-- And back: the core whose turn it is, and who runs on the core, are as they were. -/
def asBefore (c : Nat) (s t : State) : State := { setCore t c { core t c with supOn := (core s c).supOn } with cur := s.cur }

/-- What the port reads of a halted context: a register, a special register, the word of an attach entry. -/
def portReadReg (s : State) (c n : Nat) : Option Word := if portReaches s c then some (reg (core s c).user n).val else none
def portReadSpecial (s : State) (c h : Nat) : Option Nat := if portReaches s c then some (specialRead h (asUser c s)) else none
def portReadEntry (s : State) (c slot : Nat) : Option Nat := if portReaches s c then some (entryWord (entry (core s c).user slot)) else none

/-- A register takes a value from the port, with tag 0: the port makes no capability (DESIGN CHOICE, entry 128). -/
def portWriteReg (c n : Nat) (v : Word) (s : State) : State := setCtxOf s c false (setReg (core s c).user (n % 64) { val := v })

/-- A special register takes a value from the port: where it admits none, nothing changes (DESIGN CHOICE, entry 128). -/
def portWriteSpecial (c h : Nat) (v : Word) (s : State) : State :=
  match specialWrite h v.toNat (asUser c s) with
  | some t => asBefore c s t
  | none => s

/-- An entry of the attach table takes a word from the port (DESIGN CHOICE, entry 128). -/
def portWriteEntry (c slot : Nat) (w : BitVec 32) (s : State) : State := putEntry c false (slot % 64) (entryOf w.toNat) s

/-- An access of the port to a halted context: it wakes the core (R119). -/
def portWrite (c : Nat) (f : State → State) (s : State) : State :=
  let s := if isCore c then debugAccess c s else s
  if portReaches s c then f s else s

/-- An input is taken. -/
def takeInput (i : Input) (s : State) : State :=
  match i with
  | .hostWrite fn pa b => hostWrite fn pa b s
  | .portReg c n v => portWrite c (portWriteReg c n v) s
  | .portSpecial c h v => portWrite c (portWriteSpecial c h v) s
  | .portEntry c slot w => portWrite c (portWriteEntry c slot w) s

end Sys2Proof.Machine
end

