-- ==== Sys2Proof/Machine/Plan.lean ====
section
/-! DEFINITION. What may happen next (R291, R293, R304): the events that the state of the machine allows, of which a free value chooses one
to follow the turn of a sequencer (entry 4). What the outside world does is put on the agenda, or among the inputs, from outside. -/

namespace Sys2Proof.Machine

/-! ## The engines of a context -/

/-- The vector engine: the head command is taken, issues a group, completes, or is discarded. -/
def vectorEvents (c : Nat) (k : Core) (x : Ctx) : List Event :=
  match x.vq with
  | v :: _ =>
    match v.bind with
    | .discard => [.guardFalseDiscard c 1]
    | .pend _ => []
    | .run =>
      match v.run with
      | none => if v.ungranted k then [] else [.vectorCommandTake c]
      | some r => if r.fault.isNone && r.done < r.len then [.vectorGroup c] else [.vectorCommandComplete c]
  | [] => []

/-- The matrix unit: write-backs, fills, stores, and a discarded head. -/
def matrixEvents (c : Nat) (x : Ctx) : List Event :=
  (x.fresh.map fun p => .accumulatorWriteback c p.1) ++ (x.fills.map fun f => .mldFillComplete c f.slot) ++
    (if x.mstores.isEmpty then [] else [.matrixStoreComplete c]) ++
    (match x.mq with | m :: _ => if m.bind = .discard then [.guardFalseDiscard c 2] else [] | [] => [])

/-- The copy engine: completions, the start of the head command, a discarded head. -/
def copyEvents (c : Nat) (x : Ctx) : List Event :=
  (x.copies.map fun p => .copyComplete c p.id) ++
    (match x.cq with
      | m :: _ => match m.bind with | .discard => [.guardFalseDiscard c 3] | .run => [.copyStart c] | .pend _ => []
      | [] => [])

/-- Waits that end, and waits long enough to send probes (R308, R312, R313, R353). -/
def waitEvents (s : State) (c : Nat) (x : Ctx) : List Event :=
  (match x.waiting with
    | some (.recv _ _ t start) => if expired x t start then [.recvTimeout c] else []
    | some (.probe _ _ t start _ _) => if expired x t start then [.probeTimeout c] else []
    | _ => []) ++
    (if longWait s c then [.waitForProbe c] else []) ++
    (match x.tx with | some t => if t.abort = 0 && decide (65536 ≤ x.ctime - t.since) then [.txTimeout c] else [] | none => [])

/-- What a context's state allows: while it is halted, the copies in flight complete (R362). -/
def ctxEvents (s : State) (c : Nat) (x : Ctx) : List Event :=
  (if x.dbg.halted then x.copies.map fun p => .copyComplete c p.id else vectorEvents c (core s c) x ++ matrixEvents c x ++ copyEvents c x ++ waitEvents s c x) ++
    (match x.dbg.enc with | r :: _ => [.traceRecordWrite c r] | [] => [])

/-- What the state of a core allows. -/
def coreEvents (s : State) (p : Nat × Core) : List Event :=
  ctxEvents s p.1 p.2.user ++ ctxEvents s p.1 p.2.sup ++
    (if userIssues p.2 && !p.2.supOn && !p.2.user.imprecise.isEmpty then [.impreciseTrapTake p.1] else []) ++
    (if powered p.2 && (residentOf p.2).isNone && !messagePending s p.1 && decide (p.2.idleSince + 16384 ≤ s.elapsed) then [.coreGatingStart p.1] else [])

/-! ## Accesses, Saffron, functions -/

/-- The event that moves an access on (R293). -/
def accessEvent (a : Access) : Event :=
  match a.stage with
  | .buffer => .accessForward a.id
  | .lane => .accessSend a.id
  | .link => .linkCross a.id
  | .port => .bankPerform a.id
  | .slice => .homeApply a.id
  | .served => .readReturn a.id

/-- The event that a message stands for (R102). -/
def messageEvent (d fn : Nat) (m : BitVec 512) : Event :=
  match bits m.toNat 7 0 with
  | 2 => .corestart d fn m
  | 3 => .cancel d fn m
  | 4 => .imgreg d fn m
  | 5 => .imgdrop d fn m
  | _ => .launch d fn m

/-- What an instance's waiting allows (R112, R114). -/
def instEvents (s : State) (i : Inst) : List Event :=
  if !i.pooled then []
  else (if !i.starved && decide (524288 ≤ i.waitedNow s.elapsed) then [.starvation i.ref] else []) ++ (if i.prio < agedLevel s i then [.priorityAging i.ref] else [])

/-- What a die's Saffron may do. -/
def dieEvents (s : State) (d : Nat) : List Event :=
  let x := die s d
  (x.queues.filterMap fun q => q.2.head?.map (messageEvent d q.1)) ++ (if x.insts.any Inst.pooled then [.taskSelect d] else []) ++
    x.insts.flatMap (instEvents s) ++ (if (longUnplaced s d).isEmpty then [] else [.preemptDecision d])

/-- What a function's rings and page requests allow. -/
def funcEvents (s : State) (p : Nat × Func) : List Event :=
  (if !p.2.held.isEmpty && ringSpace p.2 then [.completionRecordWrite p.1] else []) ++
    (p.2.prq.filter fun q => decide (q.sent + 2 ^ 26 ≤ s.elapsed)).map fun q => .pageRequestTimeout p.1 q.group

/-- The clusters that may begin to gate. -/
def clusterEvents (s : State) : List Event :=
  (s.clusters.filter fun p => (match p.2.power with | .on => true | _ => false) && decide (clusterIdleSince s p.1 + 65536 ≤ s.elapsed)).map fun p =>
    .clusterGatingStart p.1

/-- Every event that may come next: those under way and those that the state allows; one that turns out not to be possible yet changes
nothing. -/
def enabledEvents (s : State) : List Event :=
  s.flight ++ s.accesses.map accessEvent ++ (s.walks.map fun w => .translationWalk w.id) ++ s.cores.flatMap (coreEvents s) ++
    [0, 1, 2, 3].flatMap (dieEvents s) ++ s.funcs.flatMap (funcEvents s) ++ clusterEvents s ++ (if s.mgmt.poweredUp then [] else [.powerGood])

/-- The cores whose sequencer may issue. -/
def issuingCores (s : State) : List Nat :=
  (s.cores.filter fun p => powered p.2 && (supIssues p.2 || (!p.2.supOn && userIssues p.2))).map (·.1)

/-- What comes after a sequencer's turn: waiting messages enter where entries have been freed (R306), the core's matrix unit takes what it
can, one event is put on an empty agenda where the clock runs (R378), and where no order of cores stands, one core is next. -/
def plan (s : State) : State :=
  let s := letInAll s
  let s := if (core s s.cur).user.mq.isEmpty && (core s s.cur).sup.mq.isEmpty then s else advanceMatrix s.cur s
  let n := Config.pick s.tick
  let es := if s.agenda.isEmpty && !s.mgmt.clockStopped then enabledEvents s else []
  let cs := if s.order.isEmpty then issuingCores s else []
  { s with agenda := if s.agenda.isEmpty then (es.drop (n % es.length)).take 1 else s.agenda
           order := if s.order.isEmpty then (cs.drop (n / 2 ^ 32 % cs.length)).take 1 else s.order }

end Sys2Proof.Machine
end

