-- ==== Sys2Proof/Machine/Run.lean ====
section
/-! DEFINITION. The meaning of an event under way or chosen to come next: the meaning of its row (Laws/Run.lean shows that it is exec of
that row). -/

namespace Sys2Proof.Machine

/-- What an event does: the meaning that `exec` gives its row. -/
def runEvent (e : Event) (s : State) : Out :=
  match e with
  | .guardFalseDiscard c eng => Sys2Proof.Machine.execGuardFalseDiscard c eng s
  | .trapEntry c cause pc val => Sys2Proof.Machine.execTrapEntry c cause pc val s
  | .impreciseTrapTake c => Sys2Proof.Machine.execImpreciseTrapTake c s
  | .supervisorTrap c cause pc val => Sys2Proof.Machine.execSupervisorTrap c cause pc val s
  | .contextKill c cause pc val => Sys2Proof.Machine.execContextKill c cause pc val s
  | .preemption c => Sys2Proof.Machine.execPreemption c s
  | .contextRestore c area => Sys2Proof.Machine.execContextRestore c area s
  | .accountCounterLimit c => Sys2Proof.Machine.execAccountCounterLimit c s
  | .tdoneCommit c => Sys2Proof.Machine.execTdoneCommit c s
  | .dependenceDecrement r => Sys2Proof.Machine.execDependenceDecrement r s
  | .tspawnExpansion r => Sys2Proof.Machine.execTspawnExpansion r s
  | .redemand r => Sys2Proof.Machine.execRedemand r s
  | .txCommit c => Sys2Proof.Machine.execTxCommit c s
  | .txTimeout c => Sys2Proof.Machine.execTxTimeout c s
  | .launch die fn msg => Sys2Proof.Machine.execLaunch die fn msg s
  | .demandSweep die id => Sys2Proof.Machine.execDemandSweep die id s
  | .corestart die fn msg => Sys2Proof.Machine.execCorestart die fn msg s
  | .cancel die fn msg => Sys2Proof.Machine.execCancel die fn msg s
  | .imgreg die fn msg => Sys2Proof.Machine.execImgreg die fn msg s
  | .imgdrop die fn msg => Sys2Proof.Machine.execImgdrop die fn msg s
  | .activeMessageEnqueue die fn msg => Sys2Proof.Machine.execActiveMessageEnqueue die fn msg s
  | .completionRecordWrite fn => Sys2Proof.Machine.execCompletionRecordWrite fn s
  | .taskSelect die => Sys2Proof.Machine.execTaskSelect die s
  | .instanceStart r => Sys2Proof.Machine.execInstanceStart r s
  | .startMessage c => Sys2Proof.Machine.execStartMessage c s
  | .starvation r => Sys2Proof.Machine.execStarvation r s
  | .priorityAging r => Sys2Proof.Machine.execPriorityAging r s
  | .preemptDecision die => Sys2Proof.Machine.execPreemptDecision die s
  | .faultHandlerStart die flog => Sys2Proof.Machine.execFaultHandlerStart die flog s
  | .coreGatingStart c => Sys2Proof.Machine.execCoreGatingStart c s
  | .coreGatingCommit c => Sys2Proof.Machine.execCoreGatingCommit c s
  | .corePowerOff c => Sys2Proof.Machine.execCorePowerOff c s
  | .clusterGatingStart cl => Sys2Proof.Machine.execClusterGatingStart cl s
  | .clusterGatingCommit cl => Sys2Proof.Machine.execClusterGatingCommit cl s
  | .clusterPowerOff cl => Sys2Proof.Machine.execClusterPowerOff cl s
  | .wake cluster ix => Sys2Proof.Machine.execWake cluster ix s
  | .powerUpDone cluster ix => Sys2Proof.Machine.execPowerUpDone cluster ix s
  | .semAcquire fn sem => Sys2Proof.Machine.execSemAcquire fn sem s
  | .semRelease fn sem => Sys2Proof.Machine.execSemRelease fn sem s
  | .functionLevelReset fn => Sys2Proof.Machine.execFunctionLevelReset fn s
  | .invalFunction fn stage2 => Sys2Proof.Machine.execInvalFunction fn stage2 s
  | .invalPage fn stage2 addr => Sys2Proof.Machine.execInvalPage fn stage2 addr s
  | .invalRegion fn stage2 addr => Sys2Proof.Machine.execInvalRegion fn stage2 addr s
  | .invalComplete fn => Sys2Proof.Machine.execInvalComplete fn s
  | .numvfsWrite fn n enable => Sys2Proof.Machine.execNumvfsWrite fn n enable s
  | .istoreHostWrite fn c addr w => Sys2Proof.Machine.execIstoreHostWrite fn c addr w s
  | .cpoolWrite cl v => Sys2Proof.Machine.execCpoolWrite cl v s
  | .dieResetHold fn die hold => Sys2Proof.Machine.execDieResetHold fn die hold s
  | .moduleReset fn => Sys2Proof.Machine.execModuleReset fn s
  | .clockStop fn stop => Sys2Proof.Machine.execClockStop fn stop s
  | .fwupdWrite fn v => Sys2Proof.Machine.execFwupdWrite fn v s
  | .nmboxDoorbell fn v => Sys2Proof.Machine.execNmboxDoorbell fn v s
  | .mailboxWrite fn off bytes => Sys2Proof.Machine.execMailboxWrite fn off bytes s
  | .capgenWrite fn v => Sys2Proof.Machine.execCapgenWrite fn v s
  | .bqcfgWrite fn link v => Sys2Proof.Machine.execBqcfgWrite fn link v s
  | .registerWrite fn off v => Sys2Proof.Machine.execRegisterWrite fn off v s
  | .duskPulse => Sys2Proof.Machine.execDuskPulse s
  | .duskPeriodExpiry => Sys2Proof.Machine.execDuskPeriodExpiry s
  | .powerGood => Sys2Proof.Machine.execPowerGood s
  | .thermalWarning die => Sys2Proof.Machine.execThermalWarning die s
  | .thermalClear die => Sys2Proof.Machine.execThermalClear die s
  | .thermalTrip die => Sys2Proof.Machine.execThermalTrip die s
  | .accessForward id => Sys2Proof.Machine.execAccessForward id s
  | .accessSend id => Sys2Proof.Machine.execAccessSend id s
  | .linkCross id => Sys2Proof.Machine.execLinkCross id s
  | .bankPerform id => Sys2Proof.Machine.execBankPerform id s
  | .homeApply id => Sys2Proof.Machine.execHomeApply id s
  | .readReturn id => Sys2Proof.Machine.execReadReturn id s
  | .translationWalk id => Sys2Proof.Machine.execTranslationWalk id s
  | .pageRequestResponse fn group code => Sys2Proof.Machine.execPageRequestResponse fn group code s
  | .pageRequestTimeout fn group => Sys2Proof.Machine.execPageRequestTimeout fn group s
  | .handoverRequest r => Sys2Proof.Machine.execHandoverRequest r s
  | .handoverAnswer a => Sys2Proof.Machine.execHandoverAnswer a s
  | .messageArrival m => Sys2Proof.Machine.execMessageArrival m s
  | .taggedMessageArrival m => Sys2Proof.Machine.execTaggedMessageArrival m s
  | .portWordArrival c port w => Sys2Proof.Machine.execPortWordArrival c port w s
  | .barrierLeave key => Sys2Proof.Machine.execBarrierLeave key s
  | .chainLineArrival l => Sys2Proof.Machine.execChainLineArrival l s
  | .recvTimeout c => Sys2Proof.Machine.execRecvTimeout c s
  | .probeTimeout c => Sys2Proof.Machine.execProbeTimeout c s
  | .waitForProbe c => Sys2Proof.Machine.execWaitForProbe c s
  | .receiveCycle cores => Sys2Proof.Machine.execReceiveCycle cores s
  | .forwardedWordIssue c => Sys2Proof.Machine.execForwardedWordIssue c s
  | .vectorCommandTake c => Sys2Proof.Machine.execVectorCommandTake c s
  | .vectorGroup c => Sys2Proof.Machine.execVectorGroup c s
  | .vectorCommandComplete c => Sys2Proof.Machine.execVectorCommandComplete c s
  | .mldFillComplete c slot => Sys2Proof.Machine.execMldFillComplete c slot s
  | .accumulatorWriteback c ac => Sys2Proof.Machine.execAccumulatorWriteback c ac s
  | .matrixStoreComplete c => Sys2Proof.Machine.execMatrixStoreComplete c s
  | .msndAccept r => Sys2Proof.Machine.execMsndAccept r s
  | .copyStart c => Sys2Proof.Machine.execCopyStart c s
  | .copyComplete c id => Sys2Proof.Machine.execCopyComplete c id s
  | .bankScrubDone bank => Sys2Proof.Machine.execBankScrubDone bank s
  | .eccCorrected cls ix => Sys2Proof.Machine.execEccCorrected cls ix s
  | .bankLineLoss bank line => Sys2Proof.Machine.execBankLineLoss bank line s
  | .istoreWordLoss c addr => Sys2Proof.Machine.execIstoreWordLoss c addr s
  | .homeLineLoss addr kind key => Sys2Proof.Machine.execHomeLineLoss addr kind key s
  | .deviceStateLoss c unit ix => Sys2Proof.Machine.execDeviceStateLoss c unit ix s
  | .retirementMark kind ix => Sys2Proof.Machine.execRetirementMark kind ix s
  | .resourceRetire kind ix => Sys2Proof.Machine.execResourceRetire kind ix s
  | .channelRetire die ch => Sys2Proof.Machine.execChannelRetire die ch s
  | .laneSpareSwap link lane => Sys2Proof.Machine.execLaneSpareSwap link lane s
  | .laneRetrainDone link => Sys2Proof.Machine.execLaneRetrainDone link s
  | .laneLost link lane => Sys2Proof.Machine.execLaneLost link lane s
  | .cxlLinkDown port => Sys2Proof.Machine.execCxlLinkDown port s
  | .cxlLinkRetrain port => Sys2Proof.Machine.execCxlLinkRetrain port s
  | .debugHaltRequest c => Sys2Proof.Machine.execDebugHaltRequest c s
  | .debugRelease c => Sys2Proof.Machine.execDebugRelease c s
  | .debugStep c => Sys2Proof.Machine.execDebugStep c s
  | .debugPatchWrite cores addr w => Sys2Proof.Machine.execDebugPatchWrite cores addr w s
  | .traceRecordWrite c r => Sys2Proof.Machine.execTraceRecordWrite c r s
  | .dtentWrite v => Sys2Proof.Machine.execDtentWrite v s
  | .rseedWrite v => Sys2Proof.Machine.execRseedWrite v s
  | .trctlWrite v => Sys2Proof.Machine.execTrctlWrite v s
  | .bwtcWrite v => Sys2Proof.Machine.execBwtcWrite v s
  | .bwtrRead d => Sys2Proof.Machine.execBwtrRead d s
  | .nonceDraw d => Sys2Proof.Machine.execNonceDraw d s
  | .dbgopenWrite v => Sys2Proof.Machine.execDbgopenWrite v s
  | .fuseWrite v => Sys2Proof.Machine.execFuseWrite v s
  | .fuseBlowDone => Sys2Proof.Machine.execFuseBlowDone s
  | .twoPhaseRoutingWindow die counts => Sys2Proof.Machine.execTwoPhaseRoutingWindow die counts s
  | .blockNoticeArrival b => Sys2Proof.Machine.execBlockNoticeArrival b s
  | .functionReady => Sys2Proof.Machine.execFunctionReady s

end Sys2Proof.Machine
end

