-- ==== Sys2Proof/Machine/Step.lean ====
section
/-! DEFINITION. One step of the machine (R291): the event chosen to come next, or the turn of the current core's sequencer. -/

namespace Sys2Proof.Machine

/-- What follows a meaning, where it answers a next state. -/
def andThen (f : State → State) : Out → Out
  | .next t => .next (f t)
  | o => o

/-- The turn of the current core's sequencer. -/
def sequencer (s : State) : Out :=
  match prepare s with
  | .done t => .next (elapse (plan t))
  | .run i s1 => andThen (fun t => elapse (plan (afterIssue s1 t))) (exec i s1)

/-- One step: what the outside world does, the head of the agenda, else the sequencer's turn. -/
def step (s : State) : Host.Outcome State Fault Refusal :=
  match s.inputs, s.agenda with
  | i :: rest, _ => .next (elapse (takeInput i { s with inputs := rest }))
  | [], e :: rest => andThen elapse (runEvent e { s with agenda := rest })
  | [], [] => sequencer s

/-- The state `s` in which the very next step fetches and runs the word `w`: the word stands at the program counter of the core whose
turn it is, whose supervisor context runs, powered and at a boundary; a word that only the Nolorn core decodes (R144) stands in that
core's store, whose turn it then is (entry 10). -/
def State.withFetchWord (s : State) (nbits w : Nat) : State :=
  let v := w % 2 ^ nbits
  let c := if (decodeBytes false (toBytes 4 v)).isNone && (decodeBytes true (toBytes 4 v)).isSome then nolornCore else s.cur
  let k := core s c
  let s := setCore s c { k with
    power := .on, supOn := true, smap := false, smapOld := none, fwd := none, preempt := false
    user := { k.user with acct := [] }
    sup := { k.sup with hint := .none, reps := [], imprecise := [], stale := [], pend := [], tx := none, acct := [], waiting := none
                        dbg := { k.sup.dbg with ibp := [] } } }
  let d := die s (dieOf c)
  { setDie s (dieOf c) { d with reset := false } with
    agenda := [], inputs := [], order := [], cur := c
    istore := memWrite s.istore (istoreAt c k.sup.pc) 4 v
    mgmt := { s.mgmt with clockStopped := false } }

end Sys2Proof.Machine
end

