-- ==== Sys2Proof/Safety.lean ====
section
/-! DEFINITION. The terms that claims are made in: a safe run, canonical memories, a state apart from what time alone changes, and a word
that completes. -/

namespace Sys2Proof

open Machine

/-- Every memory of the machine is in its canonical form. -/
def memoriesWf (s : State) : Bool := Memory.wf s.mem && Memory.wf s.bankMem && Memory.wf s.istore && Memory.wf s.sram

/-- A run of `n` steps that neither faults nor is refused, whose every state has canonical memories. -/
def safeRun : Nat → State → Prop
  | 0, s => memoriesWf s = true
  | n + 1, s => memoriesWf s = true ∧ ∃ t, step s = .next t ∧ safeRun n t

/-! ## A state apart from what time alone changes -/

/-- A context apart from what passing time changes in it: its counters, %ctime and residency (R152, R153), and of its trace encoder the
captured records, the count of dropped ones and the CAP bit (R369 to R371). -/
def stillCtx (x : Ctx) : Ctx :=
  { x with acct := [], ctime := 0, resident := 0
           dbg := { x.dbg with enc := [], runs := [], trdrop := 0, trctl := setBits x.dbg.trctl 1 1 0 } }

/-- A core apart from what passing time changes in it: its contexts, its idle account and its supervisor account (R152, R155), and what its
issue slots last waited for and were charged to (R153, R158). -/
def stillCore (k : Core) : Core :=
  { k with user := stillCtx k.user, sup := stillCtx k.sup, idle := [], supAcct := [], seen := 0, charged := none, stallq := 8, stallv := 8, stallm := 8
           datum := none }

/-- A machine apart from what passing time changes in it: the cycles, the tick, and the accounts of every core. -/
def still (s : State) : State := { s with cores := s.cores.map fun p => (p.1, stillCore p.2), elapsed := 0, tick := 0 }

/-! ## A word that completes -/

/-- The state after the word in issue at `s`, whose context its own effect has turned into `y`: the pc at the following word (or at the
next pass of a repetition, R180, R182), the hints used up (R137), the word marked as issued; nothing else is changed. -/
def completed (s : State) (y : Ctx) : State := markIssued (setCx s y.advance)

/-- The state after a taken transfer of control to `target`: every active repetition ends (R182), and the core knows that it was taken, for the
followers of a chorus (R127). -/
def transferred (s : State) (y : Ctx) (target : Nat) : State :=
  let t := markIssued (setCx s { y with pc := target, reps := [], hint := .none, waiting := none })
  setCore t s.cur { Machine.core t s.cur with took := true }

/-- An outcome is a next state, and it is `e` but for what time alone changes: every register, memory, flag, queue, special register and
core that is as before in `e` is as before in it. -/
def Completes (o : Out) (e : State) : Prop := ∃ t, o = .next t ∧ still t = still e

/-- A word's effect is the new value of one general register (k0: nothing, R145). -/
def Writes (o : Out) (s : State) (d : BitVec 6) (r : Reg) : Prop := Completes o (completed s (setReg (cx s) d.toNat r))

end Sys2Proof
end

