-- ==== Sys2Proof/Certificates/Slice0/Obligations.lean ====
section
/-! DEFINITION. What is claimed of the model: one proposition for each statement of OBLIGATIONS.json. `Completes o e` says that the outcome
`o` is a next state which is `e` but for what passing time alone changes (Safety.lean): so each statement of an instruction's result is its
frame as well. -/

/-! ## Scalar integer instructions (R161 to R166) -/

namespace Sys2Proof.Claims

open Sys2Proof.Machine

/-- A width code and the width it selects (R162, R166). -/
def Width (n : BitVec 2) (w : Nat) : Prop := (n = 0 ∧ w = 128) ∨ (n = 1 ∧ w = 64) ∨ (n = 2 ∧ w = 32)

/-- kD takes an integer result of `w` bits: sign-extended from its top bit, with tag 0 (R162), and nothing else changes. -/
def Integer {w : Nat} (o : Out) (s : State) (d : BitVec 6) (r : BitVec w) : Prop := Writes o s d { val := r.signExtend 128 }

/-- kD takes a 128-bit value with tag 0, and nothing else changes. -/
def Value (o : Out) (s : State) (d : BitVec 6) (v : Word) : Prop := Writes o s d { val := v }

/-! What taking an exception does to the state (R331 to R340). -/

/-- The address that a precise trap or a halt records: the word's, or that of the first word of its hint sequence (R137, R333). -/
def restart (x : Ctx) : Nat := if x.hint = .none then x.pc else x.hintPc

/-- The word in issue, as %tval of class 0 holds it (R333). -/
def issuedWord (s : State) : Word := (cx s).word.setWidth 128

/-- The state after a precise trap of the user context in issue (R331, R333, R353): %tcause, %tpc, %tval and PEND are set; the user
context is held where it was, a group it had open aborted, and a follower detached; the supervisor runs from the vector of the cause's
class with its own registers; nothing else is changed. -/
def userTrapped (s : State) (cause class_ : Nat) (val : Word) : State :=
  let k := curCore s
  setCore s s.cur { k with
    user := { (k.user.abortTx 3).detach with pc := restart k.user, hint := .none, waiting := none }
    fwd := none, fwdh := [], walkFail := none, tcause := cause, tpc := restart k.user, tval := val, pendT := true, supOn := true
    sup := { k.sup with pc := (k.tvec / 512 * 512 + 64 * class_) % 65536, hint := .none, waiting := none } }

/-- The state after a first trap of the supervisor context (R336): %stcause, %stpc, %stval and SPEND are set, the repetition state goes to
the shadow, and the supervisor goes on at BASE + 0x1C0; PEND and the user's trap registers stand. -/
def supTrapped (s : State) (cause : Nat) (val : Word) : State :=
  let k := curCore s
  setCore s s.cur { k with
    stcause := cause, stpc := restart k.sup, stval := val, spend := true, repShadow := some k.sup.reps
    sup := { k.sup.abortTx 3 with pc := (k.tvec / 512 * 512 + 0x1C0) % 65536, hint := .none, waiting := none, reps := [] } }

/-- The kill of the loaded user context is under way (R340, R356): it accepts nothing more, and its disposal follows as an event. -/
def killDecided (s : State) (cause : BitVec 8) (pc : Nat) (val : Word) : State :=
  let t := setCore s s.cur { curCore s with killing := true, killImp := false }
  { t with flight := t.flight ++ [.contextKill s.cur cause (BitVec.ofNat 16 pc) val] }

/-- The special registers that only the supervisor reads (R148, R334, R361, R386): the decode tables, the trap registers, the breakpoints and
watchpoints, the trace buffer, the security registers. -/
def supervisorReads : List (BitVec 16) :=
  [0x30, 0x31, 0x32, 0x100, 0x101, 0x102, 0x103, 0x104, 0x105, 0x106, 0x107, 0x108, 0x204, 0x205, 0x206, 0x207, 0x208, 0x209, 0x20A, 0x20B, 0x20C,
   0x20D, 0x20E, 0x20F, 0x214, 0x300, 0x301, 0x304, 0x305, 0x306, 0x307, 0x308, 0x309, 0x30A, 0x30B, 0x310, 0x312, 0x313]

/-- Those that both contexts read and only the supervisor writes. -/
def supervisorWrites : List (BitVec 16) := [0x0, 0x200, 0x202, 0x210, 0x211, 0x212, 0x213]

/-- The user context in issue has halted before its word (R362): at the word, or the first of its hint sequence, a forwarded word back in
its queue; a RECV or PROBE that waits keeps what is left of its time-out. -/
def haltedState (s : State) (reason idx : Nat) : State :=
  let u := (curCore s).unissue
  setCore s s.cur { u with walkFail := none, user := { u.user with
    pc := restart (curCore s).user, hint := .none, waiting := (curCore s).user.waiting.filter Waiting.lasts
    dbg := { (curCore s).user.dbg with halted := true, reason := reason, idx := idx, step := false } } }

/-- The word in issue traps, where traps are on: in the user context, or in the supervisor's while no supervisor trap is handled (R333, R336). -/
def Traps (o : Out) (s : State) (cause class_ : Nat) (val : Word) : Prop :=
  (curCore s).tvec % 2 = 1 →
    (onSup s = false → Completes o (userTrapped s cause class_ val)) ∧
    (onSup s = true → (curCore s).spend = false → Completes o (supTrapped s cause val))

end Sys2Proof.Claims

open Sys2Proof Sys2Proof.Machine Sys2Proof.Claims

/-- R162: the integer operations but for division: each completes from every state with the result of the rule's table, computed on the low
`w` bits of kA and kB, sign-extended; every other register and all other state is unchanged (R145: a write to k0 is discarded). -/
def Obligations.IntegerResults : Prop :=
  ∀ (s : State) (d a b : BitVec 6) (n : BitVec 2) (w : Nat), Width n w →
    let x : BitVec w := (rv s a).setWidth w
    let y : BitVec w := (rv s b).setWidth w
    let sh := y.toNat % w
    Integer (exec (.add d a b n) s) s d (x + y) ∧
    Integer (exec (.sub d a b n) s) s d (x - y) ∧
    Integer (exec (.mul d a b n) s) s d (x * y) ∧
    Integer (exec (.mulh d a b n) s) s d (BitVec.ofInt w (x.toInt * y.toInt / (2 ^ w : Nat))) ∧
    Integer (exec (.mulhu d a b n) s) s d (BitVec.ofNat w (x.toNat * y.toNat / 2 ^ w)) ∧
    Integer (exec (.and d a b n) s) s d (x &&& y) ∧
    Integer (exec (.or d a b n) s) s d (x ||| y) ∧
    Integer (exec (.xor d a b n) s) s d (x ^^^ y) ∧
    Integer (exec (.sll d a b n) s) s d (x <<< sh) ∧
    Integer (exec (.srl d a b n) s) s d (x >>> sh) ∧
    Integer (exec (.sra d a b n) s) s d (x.sshiftRight sh) ∧
    Integer (exec (.rol d a b n) s) s d (x.rotateLeft sh) ∧
    Integer (exec (.ror d a b n) s) s d (x.rotateRight sh) ∧
    Integer (exec (.min d a b n) s) s d (if x.sle y then x else y) ∧
    Integer (exec (.max d a b n) s) s d (if x.sle y then y else x) ∧
    Integer (exec (.minu d a b n) s) s d (if x.ule y then x else y) ∧
    Integer (exec (.maxu d a b n) s) s d (if x.ule y then y else x) ∧
    Value (exec (.slt d a b n) s) s d (if x.slt y then 1 else 0) ∧
    Value (exec (.sltu d a b n) s) s d (if x.ult y then 1 else 0)

/-- R162, R163: division. With a nonzero divisor the quotient (toward zero) and the remainder (with the dividend's sign), signed or
unsigned; the corner -2^(w-1) / -1 wraps. With divisor 0 and DZT clear, DIV and DIVU give all ones, REM and REMU the dividend; with DZT
set, each of the four traps with the integer-divide-by-zero cause, 0x07. -/
def Obligations.DivisionResults : Prop :=
  ∀ (s : State) (d a b : BitVec 6) (n : BitVec 2) (w : Nat), Width n w →
    let x : BitVec w := (rv s a).setWidth w
    let y : BitVec w := (rv s b).setWidth w
    (y ≠ 0 →
      Integer (exec (.div d a b n) s) s d (x.sdiv y) ∧ Integer (exec (.divu d a b n) s) s d (x / y) ∧
      Integer (exec (.rem d a b n) s) s d (x.srem y) ∧ Integer (exec (.remu d a b n) s) s d (x % y)) ∧
    (y = 0 → (cx s).dzt = false →
      Integer (exec (.div d a b n) s) s d (BitVec.allOnes w) ∧ Integer (exec (.divu d a b n) s) s d (BitVec.allOnes w) ∧
      Integer (exec (.rem d a b n) s) s d x ∧ Integer (exec (.remu d a b n) s) s d x) ∧
    (y = 0 → (cx s).dzt = true →
      ∀ i ∈ [Instr.div d a b n, .divu d a b n, .rem d a b n, .remu d a b n], Traps (exec i s) s 0x07 0 (issuedWord s))

/-- R162: the counts. CLZ and CTZ give the number of leading and trailing zero bits among the low `w` bits of kA (`w` when they are all
zero), POPC the number of one bits.
R164, R165: SEL tests all 128 bits of the old kD; SEXT and ZEXT extend the low 8, 16, 32 or 64 bits; BFX and BFI work on the field
that kB describes, a length of 0 giving 0 (BFX) or the old value (BFI); every result has tag 0. -/
def Obligations.CountsSelectsAndFields : Prop :=
  (∀ (s : State) (d a : BitVec 6) (n : BitVec 2) (w : Nat), Width n w →
      let x := (rv s a).toNat % 2 ^ w
      (∃ r, r ≤ w ∧ x < 2 ^ (w - r) ∧ (r < w → 2 ^ (w - r - 1) ≤ x) ∧ Value (exec (.clz d a n) s) s d (BitVec.ofNat 128 r)) ∧
      (∃ r, r ≤ w ∧ x % 2 ^ r = 0 ∧ (r < w → x.testBit r = true) ∧ Value (exec (.ctz d a n) s) s d (BitVec.ofNat 128 r)) ∧
      Value (exec (.popc d a n) s) s d (BitVec.ofNat 128 ((List.range w).filter x.testBit).length)) ∧
  (∀ (s : State) (d a b : BitVec 6) (n : BitVec 2),
      let pos := (rv s b).toNat % 128
      let len := Nat.min ((rv s b).toNat / 256 % 256) (128 - pos)
      let m : Word := BitVec.ofNat 128 (2 ^ len - 1)
      Value (exec (.sel d a b) s) s d (if rv s d ≠ 0 then rv s a else rv s b) ∧
      Value (exec (.sext d a n) s) s d (((rv s a).setWidth (8 * 2 ^ n.toNat)).signExtend 128) ∧
      Value (exec (.zext d a n) s) s d (((rv s a).setWidth (8 * 2 ^ n.toNat)).setWidth 128) ∧
      Value (exec (.bfx d a b false) s) s d ((rv s a >>> pos) &&& m) ∧
      Value (exec (.bfx d a b true) s) s d (((rv s a >>> pos).setWidth len).signExtend 128) ∧
      Value (exec (.bfi d a b) s) s d ((rv s d &&& ~~~(m <<< pos)) ||| ((rv s a &&& m) <<< pos)))

/-- R166: the immediate operations, with i the 10-bit immediate sign-extended to 128 bits, modulo 2^128; the shift immediates work at the
coded width with the amount below it. -/
def Obligations.ImmediateResults : Prop :=
  ∀ (s : State) (d a : BitVec 6) (i : BitVec 10) (c : BitVec 2) (m : BitVec 7) (w : Nat), Width c w → m.toNat < w →
    let v : Word := i.signExtend 128
    let x : BitVec w := (rv s a).setWidth w
    Value (exec (.addi d a i) s) s d (rv s a + v) ∧
    Value (exec (.andi d a i) s) s d (rv s a &&& v) ∧
    Value (exec (.ori d a i) s) s d (rv s a ||| v) ∧
    Value (exec (.xori d a i) s) s d (rv s a ^^^ v) ∧
    Value (exec (.slti d a i) s) s d (if (rv s a).slt v then 1 else 0) ∧
    Value (exec (.sltiu d a i) s) s d (if (rv s a).ult v then 1 else 0) ∧
    Value (exec (.muli d a i) s) s d (rv s a * v) ∧
    Integer (exec (.slli d a c m) s) s d (x <<< m.toNat) ∧
    Integer (exec (.srli d a c m) s) s d (x >>> m.toNat) ∧
    Integer (exec (.srai d a c m) s) s d (x.sshiftRight m.toNat)

/-- R133, R134, R136, R137, R161: hint words and what they widen. HX and HV issue and are remembered with the address of the sequence's
first word, the pc moving on; LDI loads and ADDL adds the immediate, sign-extended from 16, 38 or 60 bits by the HX words before it, and
uses the hints up. -/
def Obligations.HintsAndWideImmediates : Prop :=
  ∀ (s : State) (d : BitVec 6) (i : BitVec 16) (p q : BitVec 22),
    let x := cx s
    let hinted (h : Hint) (first : Nat) : State :=
      markIssued (setCx s { x with hint := h, hintPc := first, pc := (repAdvance ((x.pc + 4) % 65536) x.reps).1,
                                   reps := (repAdvance ((x.pc + 4) % 65536) x.reps).2 })
    (x.hint = .none →
      Completes (exec (.hx p) s) (hinted (.hx [p.toNat]) x.pc) ∧
      (∀ (t : Bool) (o : BitVec 8) (e : Bool) (m : BitVec 3) (z : BitVec 2) (r : BitVec 3) (f : Bool) (k : BitVec 3),
        Completes (exec (.hv t o e m z r f k) s)
          (hinted (.hv (BitVec.ofBool t ++ o ++ BitVec.ofBool e ++ m ++ z ++ r ++ BitVec.ofBool f ++ k).toNat) x.pc)) ∧
      Value (exec (.ldi d i) s) s d (i.signExtend 128) ∧
      Value (exec (.addl d i) s) s d (rv s d + i.signExtend 128)) ∧
    (x.hint = .hx [p.toNat] →
      Completes (exec (.hx q) s) (hinted (.hx [p.toNat, q.toNat]) x.hintPc) ∧
      Value (exec (.ldi d i) s) s d ((p ++ i).signExtend 128) ∧
      Value (exec (.addl d i) s) s d (rv s d + (p ++ i).signExtend 128)) ∧
    (x.hint = .hx [p.toNat, q.toNat] →
      Value (exec (.ldi d i) s) s d ((p ++ q ++ i).signExtend 128) ∧
      Value (exec (.addl d i) s) s d (rv s d + (p ++ q ++ i).signExtend 128))

/-! ## Exceptions (R331 to R340) and privilege (R141, R148) -/

open Sys2Proof Sys2Proof.Machine Sys2Proof.Claims

/-- R331, R333, R337: TRAP of the user context with traps enabled raises cause 0x80 + n, class 6, with %tval the register and %tpc the
TRAP's address, and the supervisor starts at its vector.
R336, R337: TRAP of the supervisor context while no supervisor trap is handled and traps are enabled. -/
def Obligations.SoftwareTraps : Prop :=
  (∀ (s : State) (a : BitVec 6) (i : BitVec 7), onSup s = false → (curCore s).tvec % 2 = 1 →
      Completes (exec (.trap a i) s) (userTrapped s (0x80 + i.toNat) 6 (rv s a))) ∧
  (∀ (s : State) (a : BitVec 6) (i : BitVec 7), onSup s = true → (curCore s).tvec % 2 = 1 → (curCore s).spend = false →
      Completes (exec (.trap a i) s) (supTrapped s (0x80 + i.toNat) (rv s a)))

/-- R333, R336: with traps off, a user trap kills the loaded user context with the trap's cause; a supervisor's trap then, or while SPEND is
set, is a double trap: the supervisor becomes idle, the core accepts only a CORESTART, and the management log is told. -/
def Obligations.TrapsOffAndDoubleTraps : Prop :=
  ∀ (s : State) (a : BitVec 6) (i : BitVec 7),
    (onSup s = false → (curCore s).tvec % 2 = 0 → (curCore s).uload = true → (curCore s).killing = false →
      let k := curCore s
      let held := setCore s s.cur { k with fwd := none, fwdh := [], walkFail := none, user := { (k.user.abortTx 3).detach with pc := restart k.user, hint := .none, waiting := none } }
      Completes (exec (.trap a i) s) (killDecided held (BitVec.ofNat 8 (0x80 + i.toNat)) (restart k.user) (rv s a))) ∧
    (onSup s = true → ((curCore s).tvec % 2 = 0 ∨ (curCore s).spend = true) →
      ∃ t, exec (.trap a i) s = .next t ∧ (Machine.core t s.cur).supOn = false ∧ (Machine.core t s.cur).dead = true ∧ (Machine.core t s.cur).repShadow = none ∧
        t.mgmt.logNew = true ∧ ((curCore s).uload = true → (Machine.core t s.cur).killing = true))

/-- R338: TRET returns from a user trap: PEND is cleared, the user context goes on at %tpc as after an IFENCE, with the bodies of its
repetitions to be captured afresh (R183), and the supervisor becomes idle; TRET.s returns from a supervisor trap, with the repetition state
of the shadow, its bodies captured afresh; TRET.k kills the user context with cause 0x67 and %tcause as the value.
R338: without the trap or the user context that it requires, a TRET of the supervisor raises context misuse.
Model choices: log entry 73. -/
def Obligations.ReturnsFromTraps : Prop :=
  (∀ s : State, onSup s = true →
      let k := curCore s
      let done : Core := { k with issued := true, took := false, sup := k.sup.advance }
      (k.uload = true →
        Completes (exec .tret s) (setCore s s.cur { done with pendT := false, supOn := false, user := { k.user.recapture with pc := k.tpc, stale := [] } }) ∧
        (k.killing = false →
          Completes (exec .tretK s)
            (killDecided (setCore s s.cur { done with pendT := false, supOn := false }) 0x67 k.user.pc (BitVec.ofNat 128 k.tcause)))) ∧
      (k.spend = true →
        Completes (exec .tretS s) (setCore s s.cur { done with
          spend := false, repShadow := none, smapOld := none
          sup := { k.sup.advance with pc := k.stpc, stale := [], reps := (k.repShadow.getD []).map fun r => { r with body := [] } } }))) ∧
  (∀ s : State, onSup s = true → (curCore s).tvec % 2 = 1 → (curCore s).spend = false →
      Completes (exec .tretS s) (supTrapped s 0x0B (issuedWord s)) ∧
      ((curCore s).uload = false →
        Completes (exec .tret s) (supTrapped s 0x0B (issuedWord s)) ∧ Completes (exec .tretK s) (supTrapped s 0x0B (issuedWord s))))

/-- R141, R148: what only the supervisor may do. A word of a supervisor's opcode that decodes to an instruction in the supervisor context, after
any hint words, decodes in the user context to the privileged-instruction fault after the same ones; and a word of another opcode decodes alike
in both. An SRD of a register that only the supervisor reads, and an SWR of one that only the supervisor reads or writes, raises cause 0x03 in
the user context. -/
def Obligations.Privilege : Prop :=
  (∀ (nolorn : Bool) (h : Hint) (w : Nat) (i : Instr), decode nolorn false h w = .ok i →
    (w / 2 ^ 22 ∈ [0x008, 0x00A, 0x00B, 0x0A6, 0x110, 0x111, 0x112, 0x113, 0x114, 0x115] → decode nolorn true h w = .privileged) ∧
    (w / 2 ^ 22 ∉ [0x008, 0x00A, 0x00B, 0x0A6, 0x110, 0x111, 0x112, 0x113, 0x114, 0x115] → decode nolorn true h w = .ok i)) ∧
  (∀ (s : State) (d : BitVec 6) (h : BitVec 16), onSup s = false → (curCore s).tvec % 2 = 1 →
    (h ∈ supervisorReads → Completes (exec (.srd d h) s) (userTrapped s 0x03 0 (issuedWord s))) ∧
    (h ∈ supervisorReads ++ supervisorWrites → Completes (exec (.swr d h) s) (userTrapped s 0x03 0 (issuedWord s))))

/-! ## Special registers (R148 to R150, R334, R361 to R371) -/

namespace Sys2Proof.Claims

open Sys2Proof.Machine

/-- The bank whose write trace ring %bwtc and %bwtr reach (R372): of the slot that %bwtc names, where its entry is VALID and attached. -/
def tracedBank (s : State) : Option Nat :=
  let e := tget (cx s).attach (cx s).dbg.bwtSlot {}
  if e.valid && e.st == 0 then some (s.cur / 64 * 512 + e.bank) else none

/-- What SRD gives for a register that reading does not change: its number, whether only the supervisor reads it, and its content (R148, R334,
R361, R363, R367, R372, R386, R387). -/
def registerReads (s : State) : List (BitVec 16 × Bool × Nat) :=
  let k := curCore s
  let x := cx s
  let flag (b : Bool) : Nat := if b then 1 else 0
  let block (base n : Nat) (sup : Bool) (f : Nat → Nat) : List (BitVec 16 × Bool × Nat) := (List.range n).map fun i => (BitVec.ofNat 16 (base + i), sup, f i)
  ([(0x00, false, flag x.dzt), (0x01, false, x.fmt), (0x02, false, x.fexc), (0x03, false, k.rseed.toNat), (0x10, false, x.instN % 2 ^ 32),
   (0x11, false, x.node), (0x12, false, x.rank), (0x13, false, x.trow0 % 2 ^ 32), (0x14, false, x.trows), (0x18, false, x.demand),
   (0x19, false, x.share), (0x1A, false, x.ownshr), (0x20, false, (ctxOf (settle s.cur s) s.cur (onSup s)).ctime % 2 ^ 128),
   (0x21, false, (s.elapsed - (die s (dieOf s.cur)).since) % 2 ^ 64), (0x22, false, x.acsel), (0x23, false, acval s x.acsel),
   (0x28, false, coreId s.cur), (0x30, true, flag k.umap + 2 * flag k.smap), (0x31, true, k.dtidx), (0x32, true, dtentry s k)] : List (BitVec 16 × Bool × Nat)) ++
  ([(0x100, true, k.tvec), (0x101, true, k.tcause), (0x102, true, k.tpc), (0x103, true, k.tval.toNat),
   (0x104, true, flag k.pendT + 2 * flag k.spend + 4 * flag k.uload + 8 * flag k.udisp + 16 * flag k.user.tx.isSome +
     32 * flag (match k.user.tx with | some g => g.abort != 0 | none => false)),
   (0x105, true, k.stcause), (0x106, true, k.stpc), (0x107, true, k.stval.toNat), (0x108, true, k.tlim)] : List (BitVec 16 × Bool × Nat)) ++
  ([(0x200, false, flag x.dbg.brkh), (0x201, false, x.dbg.reason + 16 * x.dbg.idx + 256 * flag x.dbg.halted + 65536 * restart x),
   (0x202, false, x.dbg.depth + 256 * flag x.dbg.beyond + 512 * flag x.dbg.under + 65536 * x.dbg.cur),
   (0x210, false, x.dbg.trctl), (0x211, false, x.dbg.trstart), (0x212, false, x.dbg.trstop), (0x213, false, x.dbg.trdrop), (0x214, true, x.dbg.trbuf),
   (0x230, false, x.dbg.bwtSlot + (match tracedBank s with
     | some g => let b := tget s.banks g {}; 256 * flag b.traceOn + 512 + 65536 * b.trace.length + 2 ^ 32 * b.drops
     | none => 0))] : List (BitVec 16 × Bool × Nat)) ++
  block 0x204 4 true (fun i => tget x.dbg.ibp i 0) ++ block 0x208 4 true (fun i => tget x.dbg.wpa i 0) ++
  block 0x20C 4 true (fun i => tget x.dbg.wpm i 0) ++ block 0x220 16 false (fun i => tget x.dbg.lbl i 0) ++
  ([(0x300, true, s.nolorn.fuse + 8 * flag s.nolorn.unlk + 16 * (if s.nolorn.unlk then 4 else s.nolorn.fuse) + 256 * flag s.nolorn.wiped +
     512 * flag s.nolorn.ext), (0x301, true, Config.devid.toNat), (0x310, true, (Config.dbgopen s.tick).toNat),
   (0x313, true, s.nolorn.nonce.toNat / 2 ^ 128)] : List (BitVec 16 × Bool × Nat)) ++
  block 0x304 8 true (fun i => (tget s.nolorn.meas (i / 2) 0).toNat / 2 ^ (128 * (i % 2)) % 2 ^ 128)

/-- The registers that a read changes: their numbers, whether only the supervisor reads them, the value read and the machine after it. %bwtr
takes the oldest record of its ring, bit 64 set, or reads as zero (R372); %nonce0 draws a nonce (R387). -/
def registerTakes (s : State) : List (BitVec 16 × Bool × Nat × State) :=
  let ring : Nat × State :=
    match tracedBank s with
    | some g =>
      let b := tget s.banks g {}
      ((match b.trace with | r :: _ => 2 ^ 64 + r.toNat | [] => 0), { s with banks := tset s.banks g { b with trace := b.trace.tail } })
    | none => (0, s)
  let drawn : BitVec 256 := Config.nonce s.nolorn.draws
  [(0x231, false, ring.1, ring.2),
   (0x312, true, drawn.toNat % 2 ^ 128, { s with nolorn := { s.nolorn with nonce := drawn, draws := s.nolorn.draws + 1 } })]

/-- The registers that nothing writes (R148, R334, R361, R386). -/
def readOnlyRegisters : List (BitVec 16) :=
  [0x10, 0x11, 0x12, 0x13, 0x14, 0x18, 0x19, 0x1A, 0x20, 0x21, 0x23, 0x28, 0x104, 0x201, 0x220, 0x221, 0x222, 0x223, 0x224, 0x225, 0x226, 0x227,
   0x228, 0x229, 0x22A, 0x22B, 0x22C, 0x22D, 0x22E, 0x22F, 0x231, 0x301, 0x304, 0x305, 0x306, 0x307, 0x308, 0x309, 0x30A, 0x30B, 0x312, 0x313]

/-- What SWR of a value does to a register: its number, whether only the supervisor writes it, whether the value is one that its field map
allows, and the machine with the register written. -/
def registerWrites (s : State) (v : Nat) : List (BitVec 16 × Bool × Bool × State) :=
  let k := curCore s
  let x := cx s
  let n := s.nolorn
  let only (mask : Nat) : Bool := v &&& mask == v
  let ctx (y : Ctx) : State := setCx s y
  let cor (y : Core) : State := setCore s s.cur y
  let dbg (d : Debug) : State := ctx { x with dbg := d }
  let four (base : Nat) (ok : Bool) (f : Nat → State) : List (BitVec 16 × Bool × Bool × State) :=
    (List.range 4).map fun i => (BitVec.ofNat 16 (base + i), true, ok, f i)
  let nol := s.cur == nolornCore
  let o := k.dtidx % 1024
  let table (t : AList (BitVec 16)) : AList (BitVec 16) := if v = map0Entry nol o then tdel t o else tset t o (BitVec.ofNat 16 v)
  let old : Core := { k with smapOld := some (k.smapOld.getD (k.smap, k.sup.dtab)) }
  let next (y : Core) : State := cor { y with dtidx := k.dtidx / 1024 * 1024 + (o + 1) % 1024 }
  let slot := dbg { x.dbg with bwtSlot := v % 64 }
  ([(0x00, true, only 1, ctx { x with dzt := v.testBit 0 }),
   (0x01, false, only 0x00FF1F1F && decide (v / 256 % 8 < 6) && packedFormat (v % 32), ctx { x with fmt := v }),
   (0x02, false, only 0x1F, ctx { x with fexc := v }),
   (0x03, false, only 0xFFFFFFFF, cor { k with rseed := if v = 0 then 1 else BitVec.ofNat 32 v }),
   (0x22, false, only 0x1FF && v / 128 % 4 != 3 && v / 32 % 4 != 3 && decide (v % 32 ≤ 27) && (v / 128 % 4 == 0 || onSup s), ctx { x with acsel := v }),
   (0x30, true, only 3, cor { (if v.testBit 1 = k.smap then k else old) with smap := v.testBit 1, umap := v.testBit 0 }),
   (0x31, true, only 0x7FF, cor { k with dtidx := v }),
   (0x32, true, decide (v < 2 ^ 16) && v / 1024 % 32 == 0 &&
      !((o == 0 || o == 0x3FF || (k.dtidx.testBit 10 && decide (o < 16))) && v != map0Entry nol o),
    if k.dtidx.testBit 10 then next { old with sup := { k.sup with dtab := table k.sup.dtab } }
    else next { k with user := { k.user with dtab := table k.user.dtab } })] : List (BitVec 16 × Bool × Bool × State)) ++
  ([(0x100, true, only 0xFE01, cor { k with tvec := v }), (0x101, true, only 0x1FF, cor { k with tcause := v }),
   (0x102, true, only 0xFFFC, cor { k with tpc := v }), (0x103, true, true, cor { k with tval := BitVec.ofNat 128 v }),
   (0x105, true, only 0x1FF, cor { k with stcause := v }), (0x106, true, only 0xFFFC, cor { k with stpc := v }),
   (0x107, true, true, cor { k with stval := BitVec.ofNat 128 v }), (0x108, true, only 0x1FFFF, cor { k with tlim := v }),
   (0x200, true, only 1, dbg { x.dbg with brkh := v.testBit 0 }),
   (0x202, true, only 0xFFFF03FF, dbg { x.dbg with beyond := v.testBit 8, under := v.testBit 9 }),
   (0x210, true, only 0xFFFFFFFF007F && v / 32 % 4 != 3,
    dbg { x.dbg with trctl := setBits v 1 1 (if v.testBit 0 then 0 else x.dbg.trctl / 2 % 2) }),
   (0x211, true, only 0xFFFF0007 && decide (v % 8 < 6), dbg { x.dbg with trstart := v }),
   (0x212, true, only 0xFFFF0007 && decide (v % 8 < 6), dbg { x.dbg with trstop := v }),
   (0x213, true, true, dbg { x.dbg with trdrop := 0 }),
   (0x214, true, only 0xF3FFFFFFFFF000 && v / 4096 % 2 ^ 38 * 4096 % 2 ^ (v / 2 ^ 52 % 16 + 12) == 0, dbg { x.dbg with trbuf := v }),
   (0x230, false, v / 64 % 4 == 0 && v / 1024 % 64 == 0 && v / 2 ^ 23 % 512 == 0 && decide (v < 2 ^ 64) && ((tracedBank slot).isSome || !v.testBit 8),
    match tracedBank slot with
    | some g => { slot with banks := tset slot.banks g { tget slot.banks g {} with traceOn := v.testBit 8 } }
    | none => slot)] : List (BitVec 16 × Bool × Bool × State)) ++
  four 0x204 (only 0x3FFFC && v / 65536 % 4 != 3) (fun i => dbg { x.dbg with ibp := tset x.dbg.ibp i v }) ++
  four 0x208 (only (2 ^ 57 - 1) && v / 2 ^ 55 % 4 != 3) (fun i => dbg { x.dbg with wpa := tset x.dbg.wpa i v }) ++
  four 0x20C (only (2 ^ 52 - 1)) (fun i => dbg { x.dbg with wpm := tset x.dbg.wpm i v }) ++
  ([(0x300, true, only 0x37F && decide (n.fuse < v % 8) && v % 8 != 4 && v % 8 != 5 && v % 8 != 6,
    { s with nolorn := { n with blowing := n.blowing ++ [(v % 8, s.elapsed + 1 + 100000)] }, flight := s.flight ++ [.fuseBlowDone] }),
   (0x310, true, v == 1 && (n.fuse == 2 || n.fuse == 3) && n.wiped && n.ext, { s with nolorn := { n with unlk := true } })] : List (BitVec 16 × Bool × Bool × State)) ++
  readOnlyRegisters.map fun h => (h, decide (h ∈ supervisorReads), false, s)

end Sys2Proof.Claims

open Sys2Proof Sys2Proof.Machine Sys2Proof.Claims

/-- R148, R150: SRD of every special register writes its content to kD with tag 0 and changes nothing else, in either context, or in the
supervisor's where only it may read; SRD of %rseed, which belongs to the core (R48), while no command before it has still to draw; SRD of
%bwtr takes the oldest write trace record, and SRD of %nonce0 draws a nonce.
R148, R150: SWR of every special register writes it where the value is allowed, and changes nothing else; a value that is not allowed, and
any value for a register that nothing writes, traps with cause 0x04 and leaves the register as it was. The security registers are the Nolorn
core's.
Model choices: log entries 68, 71; what %dbgopen reads as is free. -/
def Obligations.SpecialRegisters : Prop :=
  (∀ (s : State) (d : BitVec 6), ∀ p ∈ registerReads s, (p.2.1 = true → onSup s = true) → (0x300 ≤ p.1.toNat → s.cur = nolornCore) →
      (p.1 = 3 → rstoBusy (curCore s) = false) → Value (exec (.srd d p.1) s) s d (BitVec.ofNat 128 p.2.2)) ∧
  (∀ (s : State) (d : BitVec 6), ∀ p ∈ registerTakes s, (p.2.1 = true → onSup s = true) → (0x300 ≤ p.1.toNat → s.cur = nolornCore) →
      Value (exec (.srd d p.1) s) p.2.2.2 d (BitVec.ofNat 128 p.2.2.1)) ∧
  (∀ (s : State) (d : BitVec 6), ∀ p ∈ registerWrites s (rv s d).toNat, (p.2.1 = true → onSup s = true) → (0x300 ≤ p.1.toNat → s.cur = nolornCore) →
      (p.1 = 3 → rstoBusy (curCore s) = false) →
      (p.2.2.1 = true → Completes (exec (.swr d p.1) s) (completed p.2.2.2 (cx p.2.2.2))) ∧
      (p.2.2.1 = false → (curCore s).tvec % 2 = 1 →
        (onSup s = false → Completes (exec (.swr d p.1) s) (userTrapped s 0x04 0 (issuedWord s))) ∧
        (onSup s = true → (curCore s).spend = false → Completes (exec (.swr d p.1) s) (supTrapped s 0x04 (issuedWord s)))))

/-! ## Branches, jumps, repetition and the other control words (R123, R128, R176 to R186, R339, R365, R368) -/

namespace Sys2Proof.Claims

open Sys2Proof.Machine

/-- A branch completes: to PC + 4 x off modulo 2^16, every active repetition ending, where it is taken; to the next word where not (R176,
R182). -/
def Branches (o : Out) (s : State) (taken : Bool) (off : BitVec 10) : Prop :=
  Completes o (if taken then transferred s (cx s) (((cx s).pc + 4 * off.toInt) % 65536).toNat else completed s (cx s))

/-- The conditions of BC and BNC (R177): number, selector and truth. -/
def conditions (s : State) (e : BitVec 6) : List (BitVec 6 × Bool) :=
  let x := cx s
  let g := tget x.guards e.toNat .free
  [(0, !x.inbox.isEmpty), (1, !(tget x.ports e.toNat []).isEmpty), (2, portAccepts s s.cur e.toNat),
   (3, (slotRing s s.cur x e.toNat).any fun r => decide (0 < r.filled)), (4, (slotRing s s.cur x e.toNat).any fun r => decide (0 < r.free)),
   (5, (tget x.attach e.toNat {}).valid && (tget x.attach e.toNat {}).st == 0), (6, g == .isTrue), (7, g == .isTrue || g == .isFalse)]

/-- A command of a queue bound to guard `g`'s pending resolution runs or is discarded as that resolves (R184, R185). -/
def bound (g : Nat) (v : Bool) (b : Binding) : Binding := if b = .pend g then (if v then .run else .discard) else b

end Sys2Proof.Claims

open Sys2Proof Sys2Proof.Machine Sys2Proof.Claims

/-- R176: the compare branches, signed or unsigned on all 128 bits; R177: BC and BNC on each condition, which they do not change. -/
def Obligations.BranchOutcomes : Prop :=
  ∀ (s : State) (a b : BitVec 6) (o : BitVec 10),
    Branches (exec (.beq a b o) s) s (decide (rv s a = rv s b)) o ∧
    Branches (exec (.bne a b o) s) s (decide (rv s a ≠ rv s b)) o ∧
    Branches (exec (.blt a b o) s) s (decide ((rv s a).toInt < (rv s b).toInt)) o ∧
    Branches (exec (.bge a b o) s) s (decide ((rv s b).toInt ≤ (rv s a).toInt)) o ∧
    Branches (exec (.bltu a b o) s) s (decide ((rv s a).toNat < (rv s b).toNat)) o ∧
    Branches (exec (.bgeu a b o) s) s (decide ((rv s b).toNat ≤ (rv s a).toNat)) o ∧
    ∀ p ∈ conditions s b, Branches (exec (.bc p.1 b o) s) s p.2 o ∧ Branches (exec (.bnc p.1 b o) s) s (!p.2) o

/-- R178: J and JAL jump by their offset, JAL with the return address in k63; JR jumps to the low 16 bits of kA, read before the link is
written to kD, and to a misaligned target it traps with cause 0x06. -/
def Obligations.Jumps : Prop :=
  ∀ (s : State) (d a : BitVec 6) (o : BitVec 22),
    let pc := (cx s).pc
    let link : Reg := { val := BitVec.ofNat 128 ((pc + 4) % 65536) }
    let target := ((pc + 4 * o.toInt) % 65536).toNat
    Completes (exec (.j o) s) (transferred s (cx s) target) ∧
    Completes (exec (.jal o) s) (transferred s (setReg (cx s) 63 link) target) ∧
    ((rv s a).toNat % 4 = 0 → Completes (exec (.jr d a) s) (transferred s (setReg (cx s) d.toNat link) ((rv s a).toNat % 65536))) ∧
    ((rv s a).toNat % 4 ≠ 0 → Traps (exec (.jr d a) s) s 0x06 0 (issuedWord s))

/-- R180, R182: REP on fewer than two active repetitions, with a body that neither ends on a control transfer or hint word nor runs beyond
the outer body, starts its first pass at the next word; with a count of 0 the body is skipped. Otherwise it traps with cause 0x05.
R126: on an attached follower it has no effect. -/
def Obligations.RepetitionStarts : Prop :=
  ∀ (s : State) (d : BitVec 6) (c : BitVec 8) (t n : BitVec 4),
    let x := cx s
    let len := n.toNat + 1
    let count := if d = 0 then c.toNat else (rv s d).toNat % 2 ^ 32
    let body := endsBody (bodyOpcode s ((x.pc + 4 * len) % 65536)) || beyondOuter x.pc len x.reps
    ((∀ l, x.role ≠ .attached l) → x.reps.length < 2 → body = false →
      (count ≠ 0 → Completes (exec (.rep d c t n) s)
        (markIssued (setCx s { x with
          pc := (x.pc + 4) % 65536
          reps := { start := (x.pc + 4) % 65536, n := len, stride := t.toNat, count := count } :: x.reps }))) ∧
      (count = 0 → Completes (exec (.rep d c t n) s)
        (markIssued (setCx s { x with pc := (repAdvance ((x.pc + 4 + 4 * len) % 65536) x.reps).1
                                      reps := (repAdvance ((x.pc + 4 + 4 * len) % 65536) x.reps).2 })))) ∧
    ((∀ l, x.role ≠ .attached l) → (2 ≤ x.reps.length ∨ body = true) → Traps (exec (.rep d c t n) s) s 0x05 0 (issuedWord s)) ∧
    (∀ l, x.role = .attached l → Completes (exec (.rep d c t n) s) (completed s x))

/-- R180, R182: where the next word is. Outside a body, the following word; at the end of a body, its first word with the pass raised while
passes are left, else the word after it, where an outer body that ends there too advances in the same way.
R179, R123, R368, R185, R339: NOP changes nothing; IFENCE lets later fetches see every earlier write; LBLPUSH and LBLPOP work on the
label stack of 16 entries whose depth counts to 255; GCLR opens a resolution; GSET resolves the guard and the commands bound to it at
the end of its cycle; GWAIT frees a guard that no incomplete command is bound to (R151); IDLE completes where the inbox holds
an item and no group is open.
R365, R362: BRK halts before itself in a user context with BRKH set while the debug port is open; otherwise it raises cause 0x50 with
its own address; a RECV or PROBE that waits keeps what is left of its time-out through the halt.
Model choices: log entries 11, 69. -/
def Obligations.ControlWords : Prop :=
  ((∀ x : Ctx, x.reps = [] → x.advance.pc = (x.pc + 4) % 65536) ∧
    (∀ (x : Ctx) (r : Rep) (rs : List Rep), x.reps = r :: rs → (x.pc + 4) % 65536 ≠ (r.start + 4 * r.n) % 65536 →
      x.advance.pc = (x.pc + 4) % 65536 ∧ x.advance.reps = x.reps) ∧
    (∀ (x : Ctx) (r : Rep) (rs : List Rep), x.reps = r :: rs → (x.pc + 4) % 65536 = (r.start + 4 * r.n) % 65536 → r.pass + 1 < r.count →
      x.advance.pc = r.start ∧ x.advance.reps = { r with pass := r.pass + 1 } :: rs) ∧
    (∀ (x : Ctx) (r : Rep) (rs : List Rep), x.reps = r :: rs → (x.pc + 4) % 65536 = (r.start + 4 * r.n) % 65536 → ¬ r.pass + 1 < r.count →
      x.advance.pc = ({ x with reps := rs }.advance).pc ∧ x.advance.reps = ({ x with reps := rs }.advance).reps) ∧
    (∀ x : Ctx, x.advance.hint = .none ∧ x.advance.regs = x.regs ∧ x.advance.guards = x.guards)) ∧
  (∀ (s : State) (i : BitVec 16) (g a : BitVec 6),
      let x := cx s
      let d := x.dbg
      let v := decide (rv s a ≠ 0)
      let done (y : Ctx) : State := completed s y
      let fenced := setCore s s.cur { curCore s with smapOld := none }
      Completes (exec .nop s) (done x) ∧
      Completes (exec .ifence s) (if onSup s then completed fenced { x with stale := [] } else done { x with stale := [] }) ∧
      Completes (exec (.lblpush i) s) (done { x with dbg :=
        if d.depth < 16 then { d with lbl := tset d.lbl d.depth i.toNat, depth := d.depth + 1 }
        else { d with beyond := true, depth := Nat.min 255 (d.depth + 1) } }) ∧
      Completes (exec .lblpop s) (done { x with dbg := if d.depth = 0 then { d with under := true } else { d with depth := d.depth - 1 } }) ∧
      Completes (exec (.gclr g) s) (done { x with guards := tset x.guards g.toNat .pending }) ∧
      Completes (exec (.gset g a) s) (done { x with
        guards := tset x.guards g.toNat (if v then .isTrue else .isFalse)
        vq := x.vq.map fun m => { m with bind := bound g.toNat v m.bind }
        mq := x.mq.map fun m => { m with bind := bound g.toNat v m.bind }
        cq := x.cq.map fun m => { m with bind := bound g.toNat v m.bind } }) ∧
      ((∀ m ∈ x.vq, m.grd ≠ some g.toNat) → (∀ m ∈ x.mq, m.grd ≠ some g.toNat) → (∀ m ∈ x.cq, m.grd ≠ some g.toNat) →
        (∀ m ∈ x.fills, m.cmd.grd ≠ some g.toNat) → (∀ m ∈ x.mstores, m.cmd.grd ≠ some g.toNat) → (∀ m ∈ x.mmas, m.grd ≠ some g.toNat) →
        some g.toNat ∉ x.msnds →
        Completes (exec (.gwait g) s) (done { x with guards := tset x.guards g.toNat .free })) ∧
      (x.tx = none → x.inbox ≠ [] → Completes (exec .idle s) (done x))) ∧
  (∀ s : State, onSup s = false →
      let k := curCore s
      (k.user.dbg.brkh = true → portOpen s = true →
        Completes (exec .brk s) (haltedState s 3 0)) ∧
      ((k.user.dbg.brkh = false ∨ portOpen s = false) → k.tvec % 2 = 1 →
        Completes (exec .brk s) (userTrapped s 0x50 4 (BitVec.ofNat 128 k.user.pc))))

/-- R179, R128, R315: EXIT, with its engines idle and no group open: the supervisor becomes idle, and with no user context loaded the core's
idle time begins (R119); a user context of its own is killed with
the task-exit cause. JOIN is complete at once for the supervisor, a context of its own and an attached follower; for a leader once every
detached follower has joined; a detached follower waits joining at its address. -/
def Obligations.ExitAndJoin : Prop :=
  ∀ s : State,
    let k := curCore s
    let x := cx s
    (x.tx = none → enginesBusy x = false →
      (onSup s = true → x.region = none →
        ∃ n, (k.uload = true → n = k.idleSince) ∧ Completes (exec .exit s) (setCore s s.cur { k with
          supOn := false, issued := true, idleSince := n, sup := { k.sup with hint := .none, waiting := none } })) ∧
      (onSup s = false → x.role = .single → k.uload = true → k.killing = false →
        Completes (exec .exit s) (killDecided s 0x66 x.pc 0))) ∧
    ((onSup s = true ∨ x.role = .single ∨ (∃ l, x.role = .attached l)) → Completes (exec .join s) (completed s x)) ∧
    (∀ l, onSup s = false → x.role = .detached l → Completes (exec .join s) (setCx s { x with role := .joining l x.pc })) ∧
    (∀ fs, onSup s = false → x.role = .leader fs → followersAway s fs = false →
      Completes (exec .join s) (completed (joinAll x.pc fs s) (cx (joinAll x.pc fs s))))

/-! ## Capabilities (R146, R173 to R175) -/

namespace Sys2Proof.Claims

open Sys2Proof.Machine

/-- The bounds of a capability (R146), [base, top), on exact integers: BASE, TOP and EXP around the address. -/
def boundsOf (c : Word) : Int × Int :=
  let e := (c.extractLsb' 80 6).toNat
  let base := (c.extractLsb' 52 14).toNat
  let top := (c.extractLsb' 66 14).toNat
  let a := (c.extractLsb' 0 52).toNat
  let hi : Int := (a / 2 ^ (e + 14) : Nat) - (if a / 2 ^ e % 2 ^ 14 < base then 1 else 0)
  ((hi * 2 ^ 14 + base) * 2 ^ e, (hi * 2 ^ 14 + base + top) * 2 ^ e)

end Sys2Proof.Claims

open Sys2Proof Sys2Proof.Machine Sys2Proof.Claims

/-- R174, R175: CPERM, COFF and CSEAL change one part of a capability and keep the tag only as the rule's table says; the reading
instructions give a field whether or not the register is tagged; CCLRT clears the tag, CAPMV keeps it.
R173: CSETB narrows the bounds to [ADDR, ADDR + K[b]) rounded outward at the least exponent that holds them; the result is tagged only
where the parent is tagged and unsealed and its bounds hold the new ones, and for CSETB.x where they are exact; with no exponent that holds
them, the value is unchanged without its tag. -/
def Obligations.Capabilities : Prop :=
  (∀ (s : State) (d a b : BitVec 6),
      let c := rv s a
      let t := (rk s a).tag
      let unsealed := t && c.extractLsb' 102 4 == 0
      let moved : Int := (c.extractLsb' 0 52).toNat + (rv s b).toInt
      let n : Word := c.extractLsb' 52 76 ++ BitVec.ofInt 52 moved
      Writes (exec (.cperm d a b) s) s d
        { val := c.extractLsb' 94 34 ++ (c.extractLsb' 86 8 &&& (rv s b).extractLsb' 0 8) ++ c.extractLsb' 0 86, tag := unsealed } ∧
      Writes (exec (.coff d a b) s) s d
        { val := n, tag := unsealed && decide (0 ≤ moved) && decide (moved < 2 ^ 52) && decide (boundsOf n = boundsOf c) } ∧
      Writes (exec (.cseal d a) s) s d { val := c.extractLsb' 106 22 ++ (1 : BitVec 4) ++ c.extractLsb' 0 102, tag := unsealed } ∧
      Value (exec (.cgadr d a) s) s d ((c.extractLsb' 0 52).setWidth 128) ∧
      Value (exec (.cgbas d a) s) s d (BitVec.ofInt 128 (boundsOf c).1) ∧
      Value (exec (.cglen d a) s) s d (BitVec.ofInt 128 ((boundsOf c).2 - (boundsOf c).1)) ∧
      Value (exec (.cgprm d a) s) s d ((BitVec.ofBool t ++ c.extractLsb' 102 4 ++ c.extractLsb' 86 8).setWidth 128) ∧
      Value (exec (.cclrt d a) s) s d c ∧
      Writes (exec (.capmv d a) s) s d { val := c, tag := t }) ∧
  (∀ (s : State) (d a b : BitVec 6) (exact : Bool),
      let c := rv s a
      let base := (c.extractLsb' 0 52).toNat
      let stop := base + (rv s b).toNat
      let up (e : Nat) : Nat := (stop + 2 ^ e - 1) / 2 ^ e
      let fits (e : Nat) : Prop := up e - base / 2 ^ e ≤ 16383
      (∀ e, e ≤ 38 → fits e → (∀ e' < e, ¬ fits e') →
        Writes (exec (.csetb d a b exact) s) s d
          { val := c.extractLsb' 86 42 ++ BitVec.ofNat 6 e ++ BitVec.ofNat 14 (up e - base / 2 ^ e) ++ BitVec.ofNat 14 (base / 2 ^ e) ++ c.extractLsb' 0 52
            tag := (rk s a).tag && c.extractLsb' 102 4 == 0 && decide ((boundsOf c).1 ≤ (base / 2 ^ e * 2 ^ e : Nat)) &&
              decide ((up e * 2 ^ e : Nat) ≤ (boundsOf c).2) && decide (up e * 2 ^ e ≤ 2 ^ 52) &&
              !(exact && (base / 2 ^ e * 2 ^ e != base || up e * 2 ^ e != stop)) }) ∧
      ((∀ e, e ≤ 38 → ¬ fits e) → Writes (exec (.csetb d a b exact) s) s d { val := c, tag := false }))

/-! ## Number formats, rounding and the scalar float instructions (R36 to R55, R167 to R171) -/

namespace Sys2Proof.Claims

open Sys2Proof.Machine

/-- The rational number that a finite value stands for (R36): (-1)^neg x m x 2^e. -/
def ratOf : FV → ℚ
  | .fin neg m e => (if neg then -1 else 1) * m * (2 : ℚ) ^ e
  | _ => 0

/-- A value is finite. -/
def Finite : FV → Prop
  | .fin _ _ _ => True
  | _ => False

/-- A register read in a scalar float format (R38): its low bits. -/
def operand (s : State) (f : BitVec 2) (r : BitVec 6) : FV := valueOf f.toNat ((rv s r).toNat % 2 ^ elemBits f.toNat)

/-- A word writes a pattern to kD, raises flags in %fexc and leaves the core's generator as the rounding left it; nothing else changes (R48,
R49). -/
def Rounds (o : Out) (s : State) (d : BitVec 6) (r : Nat × NumSt) : Prop :=
  Completes o (completed (setCore s s.cur { curCore s with rseed := r.2.seed }) (setReg { cx s with fexc := (cx s).fexc ||| r.2.flags } d.toNat { val := BitVec.ofNat 128 r.1 }))

end Sys2Proof.Claims

open Sys2Proof Sys2Proof.Machine Sys2Proof.Claims

/-- R167, R168, R171: FADD, FSUB, FMUL and FFMA round the exact result once to the coded format under the mode of the hint or %fmt, never
saturating; FCVT converts under %fmt.SAT; each writes kD, ORs its flags into %fexc and changes nothing else; in mode rsto once every
earlier command has drawn.
Model choices: log entry 19. -/
def Obligations.FloatArithmetic : Prop :=
  ∀ (s : State) (d a b : BitVec 6) (f : BitVec 2) (sf tf : BitVec 5), (roundMode (cx s) = 5 → rstoBusy (curCore s) = false) →
    let x := operand s f a
    let y := operand s f b
    let m := roundMode (cx s)
    let out (r : FV × Nat) : Nat × NumSt := convert f.toNat r.1 m false { seed := (curCore s).rseed, flags := r.2 }
    Rounds (exec (.fadd d a b f) s) s d (out (addV x y m)) ∧
    Rounds (exec (.fsub d a b f) s) s d (out (addV x (y.withSign (!y.neg)) m)) ∧
    Rounds (exec (.fmul d a b f) s) s d (out (mulV x y)) ∧
    Rounds (exec (.ffma d a b f) s) s d (out (fmaV x y (operand s f d) m)) ∧
    Rounds (exec (.fcvt d a sf tf) s) s d
      (convert tf.toNat (valueOf sf.toNat ((rv s a).toNat % 2 ^ elemBits sf.toNat)) m (fmtSat (cx s).fmt) { seed := (curCore s).rseed, flags := 0 })

/-- R169, R170: FMIN and FMAX write one of the operands, the comparisons a truth value, NV for a signalling NaN (FLT and FLE: for any NaN);
FCLAS sets one bit of 9:0; FSGNJ joins kA's exponent and fraction to a sign made of the two signs, on patterns and with no flag.
Model choices: log entries 19, 21. -/
def Obligations.FloatComparesAndClasses : Prop :=
  ∀ (s : State) (d a b : BitVec 6) (f v : BitVec 2) (c : BitVec 4) (w : Nat),
    (f = 0 ∧ w = 32) ∨ (f = 1 ∧ w = 19) ∨ (f = 2 ∧ w = 16) ∨ (f = 3 ∧ w = 16) →
    let x := operand s f a
    let y := operand s f b
    let seed := (curCore s).rseed
    let nan := x.isNan || y.isNan
    let sig := x.isSig || y.isSig
    let truth (t : Bool) (nv : Bool) : Nat × NumSt := (if t then 1 else 0, { seed := seed, flags := if nv then 1 else 0 })
    let ka := (rv s a).toNat
    let sa := ka.testBit (w - 1)
    let sb := (rv s b).toNat.testBit (w - 1)
    let sign := if v = 0 then sb else if v = 1 then !sb else xor sa sb
    Rounds (exec (.fmin d a b f) s) s d (convert f.toNat (minmaxV false x y).1 0 false { seed := seed, flags := if sig then 1 else 0 }) ∧
    Rounds (exec (.fmax d a b f) s) s d (convert f.toNat (minmaxV true x y).1 0 false { seed := seed, flags := if sig then 1 else 0 }) ∧
    Rounds (exec (.feq d a b f) s) s d (truth (!nan && cmpV x y == .eq) sig) ∧
    Rounds (exec (.flt d a b f) s) s d (truth (!nan && cmpV x y == .lt) nan) ∧
    Rounds (exec (.fle d a b f) s) s d (truth (!nan && cmpV x y != .gt) nan) ∧
    (∃ k, k < 10 ∧ k = classOf c.toNat ka ∧ Value (exec (.fclas d a c) s) s d (BitVec.ofNat 128 (2 ^ k))) ∧
    Value (exec (.fsgnj d a b v f) s) s d (BitVec.ofNat 128 (ka % 2 ^ (w - 1) + if sign then 2 ^ (w - 1) else 0))

/-- R62, R168: sums, products and fused products of finite values are exact, and raise no flag.
R168, R169: the order of finite values is the order of the numbers they stand for, a zero's sign not counting; for FMIN and FMAX -0 lies
below +0. -/
def Obligations.ArithmeticAndComparisonAreExact : Prop :=
  (∀ (a b d : FV) (mode : Nat), Finite a → Finite b → Finite d →
      ratOf (addV a b mode).1 = ratOf a + ratOf b ∧ (addV a b mode).2 = 0 ∧
      ratOf (mulV a b).1 = ratOf a * ratOf b ∧ (mulV a b).2 = 0 ∧
      ratOf (fmaV a b d mode).1 = ratOf a * ratOf b + ratOf d ∧ (fmaV a b d mode).2 = 0) ∧
  (∀ (a b : FV), Finite a → Finite b →
      (cmpV a b = .lt ↔ ratOf a < ratOf b) ∧ (cmpV a b = .eq ↔ ratOf a = ratOf b) ∧ (cmpV a b = .gt ↔ ratOf b < ratOf a) ∧
      ratOf (minmaxV false a b).1 = min (ratOf a) (ratOf b) ∧ ratOf (minmaxV true a b).1 = max (ratOf a) (ratOf b) ∧
      (a.isZero = true → b.isZero = true → (minmaxV false a b).1.neg = (a.neg || b.neg) ∧ (minmaxV true a b).1.neg = (a.neg && b.neg)))

/-- R168: the special cases of a fused product, in their order: a zero times an infinity, a NaN, an infinite product with a finite addend,
with an infinite one of its sign and of the opposite sign, a finite product with an infinite addend; and the signs of exact zeros. -/
def Obligations.FusedSpecialCases : Prop :=
  ∀ (a b d : FV) (mode : Nat),
    (zeroTimesInf a b = true → fmaV a b d mode = (.nan false, 1)) ∧
    (zeroTimesInf a b = false → (a.isNan || b.isNan || d.isNan) = true →
      fmaV a b d mode = (.nan false, if a.isSig || b.isSig || d.isSig then 1 else 0)) ∧
    (a.isNan = false → b.isNan = false → zeroTimesInf a b = false → (a.isInf || b.isInf) = true →
      let sign := xor a.neg b.neg
      (Finite d → fmaV a b d mode = (.inf sign, 0)) ∧ fmaV a b (.inf sign) mode = (.inf sign, 0) ∧ fmaV a b (.inf (!sign)) mode = (.nan false, 1)) ∧
    (∀ p, Finite a → Finite b → fmaV a b (.inf p) mode = (.inf p, 0)) ∧
    (Finite a → Finite b → ratOf a = - ratOf b → (a.isZero && b.isZero && a.neg == b.neg) = false →
      (addV a b mode).1 = .fin (mode == 3) 0 0) ∧
    (a.isZero = true → b.isZero = true → a.neg = b.neg → (addV a b mode).1 = .fin a.neg 0 0)

/-- R36 to R39, R47, R51: a finite value that a format holds converts to its own pattern, in any mode but rsto, with no flag. -/
def Obligations.FormatsRoundTrip : Prop :=
  ∀ (fmt p mode : Nat) (sat : Bool) (n : NumSt), fmt ≤ 16 → p < 2 ^ elemBits fmt → mode < 5 → Finite (valueOf fmt p) →
    convert fmt (valueOf fmt p) mode sat n = (p, n)

/-- R47, R50: what a rounding that does not overflow gives. In modes rne and rna no finite value of the format is nearer; in rz the result is
the greatest magnitude not beyond the exact one; in rup the least value not below it; in rdn the greatest not above it. NX is raised exactly
where the result differs from the exact value.
R52: overflow. Where a finite value's rounded magnitude exceeds the largest finite one, OF and NX are raised, and the result is the
largest of its sign when saturating; when not, an infinity or the largest as the mode directs, E4M3's NaN, or the largest of a format with
neither.
Model choices: log entry 20. -/
def Obligations.RoundingAndOverflow : Prop :=
  (∀ (fmt : Nat) (f : FFmt) (neg : Bool) (m : Nat) (e : Int) (mode : Nat) (sat : Bool) (seed : BitVec 32), floatFmt fmt = some f → mode < 5 →
      let v := ratOf (.fin neg m e)
      let r := convert fmt (.fin neg m e) mode sat { seed := seed, flags := 0 }
      let q := ratOf (valueOf fmt r.1)
      r.2.flags &&& flagOF = 0 →
      r.1 < 2 ^ elemBits fmt ∧ Finite (valueOf fmt r.1) ∧ (r.2.flags &&& flagNX = 0 ↔ q = v) ∧
      ∀ p, p < 2 ^ elemBits fmt → Finite (valueOf fmt p) →
        let w := ratOf (valueOf fmt p)
        (mode = 0 ∨ mode = 4 → |q - v| ≤ |w - v|) ∧ (mode = 1 → |q| ≤ |v| ∧ (|w| ≤ |v| → |w| ≤ |q|)) ∧
        (mode = 2 → v ≤ q ∧ (v ≤ w → q ≤ w)) ∧ (mode = 3 → q ≤ v ∧ (w ≤ v → w ≤ q))) ∧
  (∀ (fmt : Nat) (f : FFmt) (neg : Bool) (m : Nat) (e : Int) (mode : Nat) (sat : Bool) (seed : BitVec 32), floatFmt fmt = some f → mode < 5 →
      let r := convert fmt (.fin neg m e) mode sat { seed := seed, flags := 0 }
      let big : FV := .fin neg (largest f).1 (largest f).2
      r.2.flags &&& flagOF ≠ 0 →
      r.2.flags = flagOF ||| flagNX ∧
      (sat = true ∨ f.kind = 2 → valueOf fmt r.1 = big) ∧
      (sat = false → f.kind = 1 → r.1 = 0x7F) ∧
      (sat = false → f.kind = 0 → valueOf fmt r.1 = if mode = 1 ∨ (mode = 2 ∧ neg) ∨ (mode = 3 ∧ ¬ neg) then big else .inf neg))

/-! ## Local and global accesses (R189 to R194, R208, R216 to R232) -/

namespace Sys2Proof.Claims

open Sys2Proof.Machine

/-- The checks of LocalAccess pass for `n` bytes at `va` (R208): aligned, a place is behind it, and no watchpoint meets it. `need` is the
permission (R194): 1 to read, 2 to write. -/
def LocalOk (s : State) (va n need : Nat) (p : Place) : Prop :=
  va % n = 0 ∧ localMap s s.cur (onSup s) (cx s) va need true = .ok p ∧ watchHit (cx s).dbg 0 need va n [0, 1, 2, 3] = none

/-- The value of a load of `n` bytes (R32, R208): little-endian, sign- or zero-extended. -/
def loaded (sg : Bool) (n : Nat) (b : List Byte) : Word :=
  if sg then (BitVec.ofNat (8 * n) (ofBytes b)).signExtend 128 else BitVec.ofNat 128 (ofBytes b)

/-- The local loads with an immediate: size, sign extension. -/
def localLoads (d a : BitVec 6) (i : BitVec 10) : List (Instr × Nat × Bool) :=
  [(.ldBS d a i, 1, true), (.ldBZ d a i, 1, false), (.ldHS d a i, 2, true), (.ldHZ d a i, 2, false), (.ldWS d a i, 4, true),
   (.ldWZ d a i, 4, false), (.ldDS d a i, 8, true), (.ldDZ d a i, 8, false), (.ldQ d a i, 16, false)]

/-- The local stores with an immediate: size. -/
def localStores (d a : BitVec 6) (i : BitVec 10) : List (Instr × Nat) :=
  [(.stB d a i, 1), (.stH d a i, 2), (.stW d a i, 4), (.stD d a i, 8), (.stQ d a i, 16)]

/-- Size and sign extension by fn of an indexed load (R208, R228). -/
def indexedLoads : List (BitVec 4 × Nat × Bool) :=
  [(0, 1, true), (1, 1, false), (2, 2, true), (3, 2, false), (4, 4, true), (5, 4, false), (6, 8, true), (7, 8, false), (8, 16, false)]

/-- The address of a local access by an immediate (R208): modulo 2^32, the immediate in units of the size. -/
def localAddr (s : State) (a : BitVec 6) (i : BitVec 10) (n : Nat) : Nat := (((rv s a).toNat + i.toInt * n) % 2 ^ 32).toNat

/-- A store of `n` bytes to a place by the context in issue, complete. -/
def stored (s : State) (p : Place) (n : Nat) (d : BitVec 6) : State :=
  let t := writePlace s.cur 0 p (toBytes n (rv s d).toNat) s
  completed t (cx t)

/-- The checks of GlobalAccess pass for `n` bytes at offset `off` from kA (R228): tag, seal, permission, bounds, alignment, core space,
translation (which leaves `t`), physical range and watchpoints. -/
def GlobalOk (s : State) (a : BitVec 6) (off : Int) (n : Nat) (rd wr : Bool) (perm : Nat → Bool) (pa : Nat) (t : State) : Prop :=
  let c := (rv s a).toNat
  let va : Int := capAddr c + off
  let v := (va % 2 ^ 52).toNat
  (rk s a).tag = true ∧ capSeal c = 0 ∧ perm c = true ∧ capIn c va n = true ∧ v % n = 0 ∧ inCoreSpace v = false ∧
  translate v rd wr s = .ok pa t ∧ physOk t pa = true ∧ watchHit (cx t).dbg 1 (b2n rd + 2 * b2n wr) v n [0, 1, 2, 3] = none

/-- The checks of GlobalAccess pass for an atomic of `n` bytes at the address of kA in a context whose addresses are not translated (R221,
R228, R231). -/
def DirectOk (s : State) (a : BitVec 6) (n : Nat) (perm : Nat → Bool) : Prop :=
  let c := (rv s a).toNat
  let v := capAddr c
  (rk s a).tag = true ∧ capSeal c = 0 ∧ perm c = true ∧ capIn c v n = true ∧ v % n = 0 ∧ inCoreSpace v = false ∧ translates s (cx s) = none ∧
  physOk s v = true ∧ watchHit (cx s).dbg 1 3 v n [0, 1, 2, 3] = none

/-- A load of `n` bytes is posted to the buffer of its home, and kD names an outstanding result (R229, R293). -/
def loadPosted (t : State) (d a : BitVec 6) (pa n : Nat) (sg : Bool) : State :=
  let u := pendReg d 21 (post { id := 0, core := t.cur, sup := onSup t, eng := 0, dest := .home pa, size := n, born := t.tick
                                reg := some d.toNat, sg := sg, lc := (rv t a).getLsbD 88 } t)
  completed u (cx u)

/-- A store of `n` bytes is posted to the buffer of its home; a tag goes with 16 bytes that the capability lets it (R218, R229). -/
def storePosted (t : State) (d a : BitVec 6) (pa n : Nat) : State :=
  let u := post { id := 0, core := t.cur, sup := onSup t, eng := 0, dest := .home pa, size := n, born := t.tick
                  write := some (toBytes n (rv t d).toNat), tags := if n = 16 then [(rk t d).tag && (rv t a).getLsbD 89] else [] } t
  completed u (cx u)

/-- An atomic operation is posted to its home with its operands; where it returns the old value, kD names an outstanding result (R230, R231). -/
def amoPosted (t : State) (op : Nat) (d a b : BitVec 6) (pa n : Nat) (ret : Bool) : State :=
  let u := post { id := 0, core := t.cur, sup := onSup t, eng := 0, dest := .home pa, size := n, born := t.tick
                  amo := some { op := op, y := rk t b, cmp := rv t d, sc := (rv t a).getLsbD 89 }
                  reg := if ret then some d.toNat else none, sg := true, lc := (rv t a).getLsbD 88 } t
  let u := if ret then pendReg d 21 u else u
  completed u (cx u)

def globalLoads (d a : BitVec 6) (i : BitVec 10) : List (Instr × Nat × Bool) :=
  [(.ldxBS d a i, 1, true), (.ldxBZ d a i, 1, false), (.ldxHS d a i, 2, true), (.ldxHZ d a i, 2, false), (.ldxWS d a i, 4, true),
   (.ldxWZ d a i, 4, false), (.ldxDS d a i, 8, true), (.ldxDZ d a i, 8, false), (.ldxQ d a i, 16, false)]

def globalStores (d a : BitVec 6) (i : BitVec 10) : List (Instr × Nat) :=
  [(.stxB d a i, 1), (.stxH d a i, 2), (.stxW d a i, 4), (.stxD d a i, 8), (.stxQ d a i, 16)]

/-- The atomics that return the old value: the operation at the home (R230). -/
def atomics (d a b : BitVec 6) (n : BitVec 2) : List (Instr × Nat) :=
  [(.aadd d a b n, 0), (.amin d a b false n, 1), (.amax d a b false n, 2), (.amin d a b true n, 3), (.amax d a b true n, 4), (.aand d a b n, 5),
   (.aor d a b n, 6), (.axor d a b n, 7), (.aswp d a b n, 8), (.acas d a b n, 9)]

/-- Size by fn of an indexed store (R208, R228). -/
def indexedStores : List (BitVec 4 × Nat) := [(0, 1), (1, 2), (2, 4), (3, 8), (4, 16)]

/-- The words that access global memory: the offset from the address of kA, the bytes, whether the word reads and writes, and the permissions
that its capability must give (R228, R230, R231). -/
def globalWords (s : State) (d a b : BitVec 6) (i : BitVec 10) (n : BitVec 2) : List (Instr × Int × Nat × Bool × Bool × (Nat → Bool)) :=
  let byReg := (rv s b).toInt
  let size := 2 ^ (n.toNat + 2)
  (globalLoads d a i).map (fun l => (l.1, i.toInt * l.2.1, l.2.1, true, false, capLD)) ++
  indexedLoads.map (fun l => (.ldxIndexed d a b l.1, byReg, l.2.1, true, false, capLD)) ++
  (globalStores d a i).map (fun l => (l.1, i.toInt * l.2, l.2, false, true, capSD)) ++
  indexedStores.map (fun l => (.stxIndexed d a b l.1, byReg, l.2, false, true, capSD)) ++
  (atomics d a b n).map (fun l => (l.1, 0, size, true, true, fun c => capAT c && capSD c && capLD c)) ++
  [(.radd a b n, 0, size, true, true, fun c => capAT c && capSD c), (.fradd a b, 0, 4, true, true, fun c => capAT c && capSD c)]

end Sys2Proof.Claims

open Sys2Proof Sys2Proof.Machine Sys2Proof.Claims

/-- R208: every local load, by immediate and by register, writes the little-endian value at its address, extended, and changes nothing
else but the clock of the core's die, which that of the place reaches (R295).
R208: every local store, by immediate and by register, writes the low bytes of kD at its place, and changes nothing else.
Model choices: log entries 5, 30, 130. -/
def Obligations.LocalLoadsAndStores : Prop :=
  (∀ (s : State) (d a b : BitVec 6) (i : BitVec 10) (p : Place),
      (∀ l ∈ localLoads d a i, LocalOk s (localAddr s a i l.2.1) l.2.1 1 p →
        Value (exec l.1 s) (readClock s.cur p l.2.1 s) d (loaded l.2.2 l.2.1 (placeBytes s p l.2.1))) ∧
      (∀ l ∈ indexedLoads, LocalOk s (((rv s a).toNat + (rv s b).toNat) % 2 ^ 32) l.2.1 1 p →
        Value (exec (.ldIndexed d a b l.1) s) (readClock s.cur p l.2.1 s) d (loaded l.2.2 l.2.1 (placeBytes s p l.2.1)))) ∧
  (∀ (s : State) (d a b : BitVec 6) (i : BitVec 10) (p : Place),
      (∀ l ∈ localStores d a i, LocalOk s (localAddr s a i l.2) l.2 2 p → Completes (exec l.1 s) (stored s p l.2 d)) ∧
      (∀ l ∈ indexedStores, LocalOk s (((rv s a).toNat + (rv s b).toNat) % 2 ^ 32) l.2 2 p →
        Completes (exec (.stIndexed d a b l.1) s) (stored s p l.2 d)))

/-- The frame of a local store: with the memories canonical, each stored byte reads as written and every other byte of bank memory and of the
Nolorn SRAM, all of module memory and every instruction store read as before; no register changes; of the banks only the write trace ring of
the bank written may (R302).
Model choices: log entries 5, 31. -/
def Obligations.LocalStoreFrame : Prop :=
  ∀ (s : State) (p : Place) (n : Nat) (d : BitVec 6), memoriesWf s = true →
    let t := stored s p n d
    let v := (rv s d).toNat
    let byte (k : Nat) : Byte := BitVec.ofNat 8 (v / 256 ^ k)
    (∀ i, p = .bank i → (∀ j, memGet t.bankMem j = if i ≤ j ∧ j < i + n then byte (j - i) else memGet s.bankMem j) ∧ t.sram = s.sram ∧
      ∀ gb, gb ≠ i / 32768 → tget t.banks gb {} = tget s.banks gb {}) ∧
    (∀ i, p = .sram i → (∀ j, memGet t.sram j = if i ≤ j ∧ j < i + n then byte (j - i) else memGet s.sram j) ∧ t.bankMem = s.bankMem ∧
      t.banks = s.banks) ∧
    t.mem = s.mem ∧ t.istore = s.istore ∧ t.tags = s.tags ∧ (∀ m, reg (cx t) m = reg (cx s) m) ∧ memoriesWf t = true

/-- R189, R192, R194, R380: where a local address of an ordinary core's slot window lies, and when it does not: a slot with no attached bank
traps as detached, a missing permission as such, a draining slot makes its owner wait, one staged in an open group is misuse (R350); beyond
the window and below the striped one there is no address; the Nolorn core has its 256 KiB SRAM.
R208: a local access that is not aligned to its size traps with cause 0x10, class 1 and its address, before anything else.
Model choices: log entry 9. -/
def Obligations.LocalAddressesAndAlignment : Prop :=
  (∀ (s : State) (c va need : Nat) (sup : Bool) (x : Ctx),
      let e := tget x.attach (va / 32768) {}
      (c < 4096 → va < 0x200000 → x.tx = none → e.valid = true → e.st ≠ 1 → e.st ≠ 3 → e.perm &&& need = need →
        localMap s c sup x va need true = .ok (.bank ((c / 64 * 512 + e.bank) * 32768 + va % 32768))) ∧
      (c < 4096 → va < 0x200000 → x.tx = none → (e.valid = false ∨ e.st = 3) → localMap s c sup x va need true = .bad 0x13) ∧
      (c < 4096 → va < 0x200000 → x.tx = none → e.valid = true → e.st = 1 → localMap s c sup x va need true = .wait) ∧
      (c < 4096 → va < 0x200000 → x.tx = none → e.valid = true → e.st ≠ 1 → e.st ≠ 3 → e.perm &&& need ≠ need →
        localMap s c sup x va need true = .bad 0x14) ∧
      (c < 4096 → va < 0x200000 → x.staged (va / 32768) = true → localMap s c sup x va need true = .bad 0x0A) ∧
      (c < 4096 → 0x200000 ≤ va → va < 0x1000000 → localMap s c sup x va need true = .bad 0x11) ∧
      (va < 0x40000 → localMap s 4208 sup x va need true = .ok (.sram va)) ∧
      (0x200000 ≤ va → localMap s 4208 sup x va need true = .bad 0x11)) ∧
  (∀ (s : State) (d a : BitVec 6) (i : BitVec 10), onSup s = false → (curCore s).tvec % 2 = 1 →
      (∀ l ∈ localLoads d a i, localAddr s a i l.2.1 % l.2.1 ≠ 0 →
        Completes (exec l.1 s) (userTrapped s 0x10 1 (BitVec.ofNat 128 (localAddr s a i l.2.1)))) ∧
      (∀ l ∈ localStores d a i, localAddr s a i l.2 % l.2 ≠ 0 →
        Completes (exec l.1 s) (userTrapped s 0x10 1 (BitVec.ofNat 128 (localAddr s a i l.2)))))

/-- R228, R229: every global load and store that passes the checks is complete at its issue: its access is posted toward its home, the
load's register outstanding until the reply.
Model choices: log entry 15. -/
def Obligations.GlobalLoadsAndStores : Prop :=
  ∀ (s t : State) (d a b : BitVec 6) (i : BitVec 10) (pa : Nat),
    let byReg := (rv s b).toInt
    (∀ l ∈ globalLoads d a i, GlobalOk s a (i.toInt * l.2.1) l.2.1 true false capLD pa t →
      Completes (exec l.1 s) (loadPosted t d a pa l.2.1 l.2.2)) ∧
    (∀ l ∈ indexedLoads, GlobalOk s a byReg l.2.1 true false capLD pa t →
      Completes (exec (.ldxIndexed d a b l.1) s) (loadPosted t d a pa l.2.1 l.2.2)) ∧
    (∀ l ∈ globalStores d a i, GlobalOk s a (i.toInt * l.2) l.2 false true capSD pa t → Completes (exec l.1 s) (storePosted t d a pa l.2)) ∧
    (∀ l ∈ indexedStores, GlobalOk s a byReg l.2 false true capSD pa t →
      Completes (exec (.stxIndexed d a b l.1) s) (storePosted t d a pa l.2))

/-- R230, R231: every atomic that passes the checks, which need read and write permission of the page for RADD and FRADD too (R223), is posted
to its home with its operation, operand and comparand; RADD and FRADD return nothing and leave no register outstanding. So is each of them
where no stage translates the address.
Model choices: log entry 15. -/
def Obligations.AtomicsPosted : Prop :=
  ∀ (s t : State) (d a b : BitVec 6) (n : BitVec 2) (pa : Nat),
    let size := 2 ^ (n.toNat + 2)
    (∀ l ∈ atomics d a b n, GlobalOk s a 0 size true true (fun c => capAT c && capSD c && capLD c) pa t →
      Completes (exec l.1 s) (amoPosted t l.2 d a b pa size true)) ∧
    (GlobalOk s a 0 size true true (fun c => capAT c && capSD c) pa t → Completes (exec (.radd a b n) s) (amoPosted t 0 0 a b pa size false)) ∧
    (GlobalOk s a 0 4 true true (fun c => capAT c && capSD c) pa t → Completes (exec (.fradd a b) s) (amoPosted t 10 0 a b pa 4 false)) ∧
    (DirectOk s a size (fun c => capAT c && capSD c && capLD c) →
      let posted (op : Nat) : State := amoPosted s op d a b (capAddr (rv s a).toNat) size true
      Completes (exec (.aadd d a b n) s) (posted 0) ∧
      (∀ u, Completes (exec (.amin d a b u n) s) (posted (if u then 3 else 1)) ∧ Completes (exec (.amax d a b u n) s) (posted (if u then 4 else 2))) ∧
      Completes (exec (.aand d a b n) s) (posted 5) ∧ Completes (exec (.aor d a b n) s) (posted 6) ∧ Completes (exec (.axor d a b n) s) (posted 7) ∧
      Completes (exec (.aswp d a b n) s) (posted 8) ∧ Completes (exec (.acas d a b n) s) (posted 9)) ∧
    (DirectOk s a size (fun c => capAT c && capSD c) →
      Completes (exec (.radd a b n) s) (amoPosted s 0 0 a b (capAddr (rv s a).toNat) size false)) ∧
    (DirectOk s a 4 (fun c => capAT c && capSD c) → Completes (exec (.fradd a b) s) (amoPosted s 10 0 a b (capAddr (rv s a).toNat) 4 false))

/-- R228: the checks of a global access in their order, for every load, store and atomic of every size and form: tag, seal, permissions, bounds,
alignment, core space, each trapping with its cause, class 2 and the address computed; then the translation, which waits or traps with the cause
that it found; the physical range; and a watchpoint (R364), which traps with class 4 and the byte that matched or, where it says so and the
port is open, halts the user context.
Model choices: log entries 15, 30. -/
def Obligations.GlobalChecksInOrder : Prop :=
  ∀ (s : State) (d a b : BitVec 6) (i : BitVec 10) (size : BitVec 2), ∀ w ∈ globalWords s d a b i size,
    let c := (rv s a).toNat
    let va : Int := capAddr c + w.2.1
    let v := (va % 2 ^ 52).toNat
    let n := w.2.2.1
    let rd := w.2.2.2.1
    let wr := w.2.2.2.2.1
    let perm := w.2.2.2.2.2
    let o := exec w.1 s
    let early (cause : Nat) : Prop := Traps o s cause 2 (BitVec.ofInt 128 va)
    ((rk s a).tag = false → early 0x20) ∧
    ((rk s a).tag = true → capSeal c ≠ 0 → early 0x21) ∧
    ((rk s a).tag = true → capSeal c = 0 → perm c = false → early 0x22) ∧
    ((rk s a).tag = true → capSeal c = 0 → perm c = true →
      (capIn c va n = false → early 0x23) ∧
      (capIn c va n = true → v % n ≠ 0 → early 0x24) ∧
      (capIn c va n = true → v % n = 0 → inCoreSpace v = true → early 0x25) ∧
      (capIn c va n = true → v % n = 0 → inCoreSpace v = false →
        (∀ t, translate v rd wr s = .wait t → Completes o t) ∧
        (∀ t cause val, translate v rd wr s = .trap cause val t → Traps o t cause (causeClass cause) (BitVec.ofNat 128 val)) ∧
        (∀ t pa, translate v rd wr s = .ok pa t →
          (physOk t pa = false → Traps o t 0x26 2 (BitVec.ofInt 128 va)) ∧
          (∀ act ix byte, physOk t pa = true → watchHit (cx t).dbg 1 (b2n rd + 2 * b2n wr) v n [0, 1, 2, 3] = some (act, ix, byte) →
            (act = 2 → portOpen t = true → onSup t = false → Completes o (haltedState t 5 ix)) ∧
            ((act ≠ 2 ∨ portOpen t = false ∨ onSup t = true) → Traps o t 0x52 4 (BitVec.ofNat 128 byte))))))

/-- R230, R231: what an atomic leaves at its home, at each width: sum, signed and unsigned minimum and maximum, logic, exchange, and compare
and exchange. -/
def Obligations.AtomicResults : Prop :=
  ∀ (n : Nat) (x y cmp : BitVec (8 * n)), n ∈ [4, 8, 16] →
    let r (op : Nat) : BitVec (8 * n) := BitVec.ofNat (8 * n) (amoResult op n x.toNat y.toNat cmp.toNat)
    r 0 = x + y ∧ r 1 = (if y.slt x then y else x) ∧ r 2 = (if x.slt y then y else x) ∧ r 3 = (if y.ult x then y else x) ∧
    r 4 = (if x.ult y then y else x) ∧ r 5 = x &&& y ∧ r 6 = x ||| y ∧ r 7 = x ^^^ y ∧ r 8 = y ∧ r 9 = if x = cmp then y else x

/-! ## Streams and the vector engine (R210 to R214, R245 to R262, R265, R327) -/

namespace Sys2Proof.Claims

open Sys2Proof.Machine

/-- The vector words that read no register: the operation queued, the x, y and z fields, and whether the word takes the lane mask (R248,
R253). -/
def vectorWords (g : Option (BitVec 3)) (x y z k : BitVec 3) (w f : Bool) (c : BitVec 5) : List (Instr × VOp × BitVec 3 × BitVec 3 × BitVec 3 × Bool) :=
  ([(.vadd g x y z w, .arith 0 w, x, y, z, true), (.vsub g x y z w, .arith 1 w, x, y, z, true), (.vmul g x y z w, .arith 2 w, x, y, z, true),
    (.vmin g x y z, .arith 3 false, x, y, z, true), (.vmax g x y z, .arith 4 false, x, y, z, true), (.vfma g x y z w, .fma w, x, y, z, true),
    (.vabs g x y w, .unary false w, x, y, 0, true), (.vneg g x y w, .unary true w, x, y, 0, true), (.vcmp g x y z k, .cmp k.toNat, x, y, z, true),
    (.vsel g x y z k, .sel k.toNat, x, y, z, true)] : List (Instr × VOp × BitVec 3 × BitVec 3 × BitVec 3 × Bool)) ++
  ([(.vand g x y z, .logic 0, x, y, z, true), (.vor g x y z, .logic 1, x, y, z, true), (.vxor g x y z, .logic 2, x, y, z, true),
    (.vsll g x y z, .shift 0, x, y, z, true), (.vsrl g x y z, .shift 1, x, y, z, true), (.vsra g x y z, .shift 2, x, y, z, true),
    (.vcvt g x y, .cvt, x, y, 0, true), (.vqnt g x y w f, .qnt f w, x, y, 0, false), (.vdqnt g x y z w f, .dqnt f w, x, y, z, true),
    (.vred g x y k c, .red k.toNat c.toNat, x, y, 0, true)] : List (Instr × VOp × BitVec 3 × BitVec 3 × BitVec 3 × Bool)) ++
  ([(.vscan g x y k w, .scan k.toNat w, x, y, 0, true), (.vperm g x y z, .perm, x, y, z, true), (.vmov g x y, .mov, x, y, 0, true),
    (.mand g x y z, .mlogic 0, x, y, z, false), (.mor g x y z, .mlogic 1, x, y, z, false), (.mxor g x y z, .mlogic 2, x, y, z, false),
    (.mnot g x y, .mlogic 3, x, y, 0, false), (.msetU g x, .mset true, x, 0, 0, false), (.baddq g x y z w f, .baddq f w, x, y, z, false)] :
    List (Instr × VOp × BitVec 3 × BitVec 3 × BitVec 3 × Bool))

/-- The special-function words: the number of the function (R265). -/
def specialWords (g : Option (BitVec 3)) (x y z : BitVec 3) (t : Bool) : List (Instr × Nat) :=
  [(.vrcp g x y z t, 0), (.vrsq g x y z t, 1), (.vexp2 g x y z t, 2), (.vlog2 g x y z t, 3), (.vtanh g x y z t, 4), (.vsigm g x y z t, 5),
   (.vsin g x y z t, 6), (.vcos g x y z t, 7)]

/-- The command that a word queues: its operation and fields, the number handling of the hint and %fmt as they stand (R248, R150), its
guard as that stands (R184), and the place and time of its issue. -/
def command (s : State) (g : Option (BitVec 3)) (op : VOp) (x y z : BitVec 3) (mask : Bool) : VCmd :=
  { op := op, x := x.toNat, y := y.toNat, z := z.toNat, env := numEnv (cx s) mask, bind := bindTo (cx s) g, grd := g.map (·.toNat)
    pc := (cx s).pc, seq := s.tick }

/-- A vector command is queued (R151, R249): there is room, no stream is used against its direction, the operands are allowed, no slot
staged in an open group is touched (R350); then the command stands behind the others, and the register that it is to write (VRED's, VDQNT's
with a sum) names an outstanding result. -/
def Queues (o : Out) (s : State) (v : VCmd) (target : Option Nat) : Prop :=
  let x := cx s
  x.vq.length < 16 → directionFault x v = none → operandsOk x v = true → v.staged x = false →
    Completes o (completed s { x with vq := x.vq ++ [v], pend := match target with | some n => tset x.pend n 8 | none => x.pend })

end Sys2Proof.Claims

open Sys2Proof Sys2Proof.Machine Sys2Proof.Claims

/-- R151, R245, R248, R249, R253: every vector, mask, quantising and reducing word queues its command with its operation, fields, number
handling and guard, and changes nothing else; MSET, VBCST and the special functions read their registers at issue.
R211, R249: a command that would use a stream against its direction traps at issue with cause 0x16 and the stream's base; one whose
formats are not those its description allows, with cause 0x40 and its own address; one that touches a staged slot, with cause 0x0A (R350).
Model choices: log entries 27, 32, 98. -/
def Obligations.VectorWordsQueue : Prop :=
  (∀ (s : State) (g : Option (BitVec 3)) (x y z k : BitVec 3) (w f : Bool) (c : BitVec 5),
      let ky := reg (cx s) (48 + y.toNat)
      let kz := reg (cx s) (48 + z.toNat)
      (∀ p ∈ vectorWords g x y z k w f c,
        Queues (exec p.1 s) s (command s g p.2.1 p.2.2.1 p.2.2.2.1 p.2.2.2.2.1 p.2.2.2.2.2)
          (match p.2.1 with | .red _ _ => some (48 + x.toNat) | .dqnt true _ => some (48 + z.toNat) | _ => none)) ∧
      (∀ p ∈ specialWords g x y z w,
        let v := command s g (.special p.2) x y z true
        Queues (exec p.1 s) s (if w then { v with env := { v.env with tol := kz.val.toNat % 256 } } else v) none) ∧
      Queues (exec (.vbcst g x y c) s) s { command s g (.bcst c.toNat) x y 0 true with k1 := ky } none ∧
      (ky.val.toNat % 4 = 0 → Queues (exec (.mset g x y z) s) s { command s g (.mset false) x y z false with k1 := ky, k2 := kz } none)) ∧
  (∀ (s : State) (g : Option (BitVec 3)) (x y z : BitVec 3) (w : Bool), onSup s = false → (curCore s).tvec % 2 = 1 → (cx s).vq.length < 16 →
      let v := command s g (.arith 0 w) x y z true
      (∀ base, directionFault (cx s) v = some base → Completes (exec (.vadd g x y z w) s) (userTrapped s 0x16 1 (BitVec.ofNat 128 base))) ∧
      (directionFault (cx s) v = none → operandsOk (cx s) v = false →
        Completes (exec (.vadd g x y z w) s) (userTrapped s 0x40 3 (BitVec.ofNat 128 (cx s).pc))) ∧
      (directionFault (cx s) v = none → operandsOk (cx s) v = true → v.staged (cx s) = true →
        Completes (exec (.vadd g x y z w) s) (userTrapped s 0x0A 0 (issuedWord s))))

/-- R246 to R248, R254 to R257: what one lane stores. An on lane's value is rounded once to the destination's format; logic acts on
patterns, whose bits beyond the element are stored as zero (R34, R38); an off lane is left as it is under the merge policy and stored as
zero under the zero policy, and draws nothing.
Model choices: log entry 21. -/
def Obligations.VectorLanes : Prop :=
  ∀ (v : VCmd) (f : Nat) (wraps sel : Bool) (ys : List Elem) (y z w : Elem) (rest : List (Elem × Elem × Elem × Bool × Bool)) (n : NumSt),
    let m := v.env.mode
    let sat := f ≠ 0 && v.env.sat
    let rounded (r : FV × Nat) : Nat × NumSt := let q := convert f r.1 m sat (n.raise r.2); (stored f q.1, q.2)
    (lanes v f wraps ys ((y, z, w, sel, false) :: rest) n =
      ((if v.env.zero then some 0 else none) :: (lanes v f wraps ys rest n).1, (lanes v f wraps ys rest n).2)) ∧
    (let p := laneValue v f wraps ys y z w sel n
     lanes v f wraps ys ((y, z, w, sel, true) :: rest) n = (some p.1 :: (lanes v f wraps ys rest p.2).1, (lanes v f wraps ys rest p.2).2)) ∧
    (∀ b, v.op = .arith 0 b → wraps = false → laneValue v f wraps ys y z w sel n = rounded (addV y.val z.val m)) ∧
    (∀ b, v.op = .arith 1 b → wraps = false → laneValue v f wraps ys y z w sel n = rounded (addV y.val (z.val.withSign (!z.val.neg)) m)) ∧
    (∀ b, v.op = .arith 2 b → wraps = false → laneValue v f wraps ys y z w sel n = rounded (mulV y.val z.val)) ∧
    (∀ b, v.op = .fma b → wraps = false → laneValue v f wraps ys y z w sel n = rounded (fmaV y.val z.val w.val m)) ∧
    (∀ b, v.op = .arith 3 b → wraps = false → laneValue v f wraps ys y z w sel n = rounded (minmaxV false y.val z.val)) ∧
    (∀ b, v.op = .arith 4 b → wraps = false → laneValue v f wraps ys y z w sel n = rounded (minmaxV true y.val z.val)) ∧
    (v.op = .cvt → wraps = false → laneValue v f wraps ys y z w sel n = rounded (y.val, 0)) ∧
    (∀ k, v.op = .sel k → wraps = false → laneValue v f wraps ys y z w sel n = rounded (if sel then y.val else z.val, 0)) ∧
    (v.op = .logic 0 → laneValue v f wraps ys y z w sel n = (storedClean f (y.raw &&& z.raw), n)) ∧
    (v.op = .logic 1 → laneValue v f wraps ys y z w sel n = (storedClean f (y.raw ||| z.raw), n)) ∧
    (v.op = .logic 2 → laneValue v f wraps ys y z w sel n = (storedClean f (y.raw ^^^ z.raw), n)) ∧
    (v.op = .mov → laneValue v f wraps ys y z w sel n = (storedClean f y.raw, n))

/-- R48, R49, R250, R252: the steps of the vector engine on the queue of a core that it serves, whose context is not halted and whose engines
Saffron has not stopped: the head command, once its guard lets it run and the generator is granted to it, is taken with its length; each group is
run and its cycles pass; the complete command leaves the queue, its streams moved on and its flags raised, a mask bound by MSET, and its register
written, if it has one; a group that faults stops it, and then its cause waits for the boundary.
Model choices: log entries 3, 5, 7, 99, 127. -/
def Obligations.VectorEngineSteps : Prop :=
  ∀ (s : State) (c : Nat) (v : VCmd) (r : List VCmd),
    let k := Machine.core s c
    let sup := vectorSide k
    let x := ctxOf s c sup
    let len := v.length x
    x.vq = v :: r → x.dbg.halted = false → k.enginesStop sup = false →
    (v.bind = .run → v.run = none → v.ungranted k = false →
      exec (.vectorCommandTake c) s =
        .next (spendOn c none (some (if len = 0 then 2 else if v.readsBank then 10 else 8)) none
          (setCtxOf (taken (.vectorCommandTake c) s) c sup (setDirs { x with vq := { v with run := some { len := len } } :: r } v)))) ∧
    (∀ u, v.run = some u → u.fault = none → u.done < u.len →
      let t := taken (.vectorGroup c) s
      (∀ t' n, runGroup c sup x v u t = .next t' n → exec (.vectorGroup c) s = .next (spendGroup c n t')) ∧
      (∀ cause, runGroup c sup x v u t = .wait cause → exec (.vectorGroup c) s = .next (spendOn c none (some cause) none t)) ∧
      (∀ cause, runGroup c sup x v u t = .stop cause →
        exec (.vectorGroup c) s = .next (spendOn c none (some 8) none (setCtxOf t c sup { x with
          vq := { v with run := some { u with fault := some (cause, BitVec.ofNat 128 v.pc) } } :: r })))) ∧
    (∀ u, v.run = some u →
      let t := taken (.vectorCommandComplete c) s
      let a := advanceStreams { x with vq := r } v u
      let y : Ctx := match v.op with | .mset unb => bindMask a v unb | _ => a
      let p := v.result x u { seed := k.rseed, flags := u.flags }
      (u.fault = none → u.len ≤ u.done → v.target = none →
        exec (.vectorCommandComplete c) s = .next (putNum c sup { seed := k.rseed, flags := u.flags } (setCtxOf t c sup y))) ∧
      (∀ n, u.fault = none → u.len ≤ u.done → v.target = some n →
        let w := deliver c sup n (BitVec.ofNat 128 p.1) (putNum c sup p.2 (setCtxOf t c sup y))
        exec (.vectorCommandComplete c) s = .next (setCtxOf w c sup (stillPending (ctxOf w c sup)))) ∧
      (∀ cause val, u.fault = some (cause, val) → v.target = none →
        exec (.vectorCommandComplete c) s =
          .next (raiseImprecise c sup cause val (setCtxOf t c sup (stillPending { y with fexc := y.fexc ||| u.flags })))))

/-- R210, R213, R259: SBIND, once no queued command names the stream, binds it with its count and position 0; a base or stride that it
refuses traps with cause 0x15; SQRY reads a binding; MCNT of an unbound mask stream reads as unbound. -/
def Obligations.StreamBindings : Prop :=
  ∀ (s : State) (f : BitVec 5) (d a b : BitVec 6) (n : BitVec 4),
    let x := cx s
    let v := (rv s a).toNat
    let stride : Int := if n = 15 then ((rv s a).extractLsb' 32 32).toInt else n.toNat
    let t : Stream := { fmt := f.toNat, base := v % 2 ^ 32, stride := stride, count := (rv s b).toNat % 2 ^ 32, ring := v.testBit 64 }
    (streamBusy x d.toNat = false →
      (sbindBad s f.toNat (v % 2 ^ 32) stride (v.testBit 64) = false →
        Completes (exec (.sbind f d a b n) s) (completed s { x with streams := tset x.streams d.toNat t })) ∧
      (sbindBad s f.toNat (v % 2 ^ 32) stride (v.testBit 64) = true → onSup s = false → (curCore s).tvec % 2 = 1 →
        Completes (exec (.sbind f d a b n) s) (userTrapped s 0x15 1 (BitVec.ofNat 128 (v % 2 ^ 32))))) ∧
    (streamBusy x a.toNat = false →
      (tfind x.streams a.toNat = none → Value (exec (.sqry d a 0) s) s d 0 ∧ Value (exec (.sqry d a 1) s) s d 0) ∧
      (∀ u, tfind x.streams a.toNat = some u →
        Value (exec (.sqry d a 0) s) s d (BitVec.ofNat 128 ((u.count - u.pos) + u.pos % 2 ^ 32 * 2 ^ 32 + u.dir * 2 ^ 64 + 2 ^ 66 +
          (if u.ring then 2 ^ 67 else 0))) ∧
        Value (exec (.sqry d a 1) s) s d (BitVec.ofNat 128 (u.base + (u.stride % 2 ^ 32).toNat * 2 ^ 32 + u.fmt * 2 ^ 64)))) ∧
    (maskBusy x a.toNat = false →
      (tfind x.masks a.toNat = none → Value (exec (.mcnt d a) s) s d (BitVec.ofNat 128 (2 ^ 64))) ∧
      (∀ m k, tfind x.masks a.toNat = some m → countMask s m (m.count - m.pos) 0 0 = .ok k →
        Value (exec (.mcnt d a) s) s d (BitVec.ofNat 128 ((m.count - m.pos) + k * 2 ^ 32))))

/-! ## Packed words (R58, R59, R263, R264) -/

/-- R263, R264: PADD, PSUB, PMUL and PFMA work lane by lane in the format PW of %fmt and pack their lanes from lane 0 upward; PMIN and PMAX
pick; each writes kD, %fexc and the generator and nothing else.
Model choices: log entry 21. -/
def Obligations.PackedLanes : Prop :=
  ∀ (s : State) (d a b : BitVec 6) (w : Bool), (roundMode (cx s) = 5 → rstoBusy (curCore s) = false) →
    let pw := (cx s).fmt % 32
    let m := roundMode (cx s)
    let n := 128 / elemBits pw
    let at_ (r : BitVec 6) (i : Nat) : FV := valueOf pw ((rv s r).toNat / 2 ^ (elemBits pw * i) % 2 ^ elemBits pw)
    let out (wrapInt : Bool) (mode : Nat) (f : Nat → FV × Nat) : Nat × NumSt :=
      let q := packAll pw wrapInt mode (fmtSat (cx s).fmt) ((List.range n).map f) { seed := (curCore s).rseed, flags := 0 }
      (packLanes (elemBits pw) q.1, q.2)
    Rounds (exec (.padd d a b w) s) s d (out w m fun i => addV (at_ a i) (at_ b i) m) ∧
    Rounds (exec (.psub d a b w) s) s d (out w m fun i => addV (at_ a i) ((at_ b i).withSign (!(at_ b i).neg)) m) ∧
    Rounds (exec (.pmul d a b w) s) s d (out w m fun i => mulV (at_ a i) (at_ b i)) ∧
    Rounds (exec (.pfma d a b w) s) s d (out w m fun i => fmaV (at_ a i) (at_ b i) (at_ d i) m) ∧
    Rounds (exec (.pmin d a b) s) s d (out false 0 fun i => minmaxV false (at_ a i) (at_ b i)) ∧
    Rounds (exec (.pmax d a b) s) s d (out false 0 fun i => minmaxV true (at_ a i) (at_ b i))

/-- R264: PDOT sums exact products, in 32 bits where PW is an integer format and rounded once to FP32 where it is not; PCVT converts the
lanes of a part, PSCL scales by an E8M0 scale (0xFF gives zeros), PQNT quantises a part and gives its scale in the companion register; a
reserved part traps with cause 0x01.
Model choices: log entries 21, 28. -/
def Obligations.PackedConversions : Prop :=
  ∀ (s : State) (d a b f : BitVec 6) (w e : Bool) (p k : BitVec 2), (roundMode (cx s) = 5 → rstoBusy (curCore s) = false) →
    let pw := (cx s).fmt % 32
    let m := roundMode (cx s)
    let num : NumSt := { seed := (curCore s).rseed, flags := 0 }
    let sat := fmtSat (cx s).fmt
    let vals (r : BitVec 6) : List FV := laneVals pw (rv s r).toNat
    (isIntFmt pw = true →
      Value (exec (.pdot d a b false k) s) s d (BitVec.ofNat 128 (((List.zipWith (fun (x y : FV) => x.at 0 * y.at 0) (vals a) (vals b)).sum % 2 ^ 32).toNat))) ∧
    (isIntFmt pw = true → onSup s = false → (curCore s).tvec % 2 = 1 →
      Completes (exec (.pdot d a b true k) s) (userTrapped s 0x01 0 (issuedWord s))) ∧
    (isIntFmt pw = false →
      let scale (n : Nat) : Nat := if e then (reg (cx s) n).val.toNat % 256 else 127
      let r := sumSpecial (List.zipWith (fun x y => mulV (scaled8 (scale (48 + 2 * k.toNat)) x) (scaled8 (scale (49 + 2 * k.toNat)) y)) (vals a) (vals b))
      Rounds (exec (.pdot d a b e k) s) s d (convert 0 r.1 0 false { num with flags := r.2 })) ∧
    ((rv s b).toNat % 256 = 255 → Value (exec (.pscl d a b w) s) s d 0) ∧
    ((rv s b).toNat % 256 ≠ 255 →
      let q := packAll pw w m sat ((vals a).map fun v => (v.scale ((((rv s b).toNat % 256 : Nat) : Int) - 127), 0)) num
      Rounds (exec (.pscl d a b w) s) s d (packLanes (elemBits pw) q.1, q.2)) ∧
    (∀ l first, partLanes f.toNat pw p.toNat (rv s a).toNat = some (l, first) →
      (let q := packAll pw w m sat (l.map fun v => (v, 0)) num
       Rounds (exec (.pcvt d a f w p) s) s d (packLanes (elemBits pw) (placeLanes (128 / elemBits pw) first q.1), q.2)) ∧
      (pqntScale pw l ≠ 255 →
        let q := packAll pw false m sat (l.map fun v => (v.scale (127 - (pqntScale pw l : Int)), 0)) num
        Completes (exec (.pqnt d a f k p) s) (completed (setCore s s.cur { curCore s with rseed := q.2.seed })
          (setReg (setReg { cx s with fexc := (cx s).fexc ||| q.2.flags } d.toNat
          { val := BitVec.ofNat 128 (packLanes (elemBits pw) (placeLanes (128 / elemBits pw) first q.1)) }) (48 + 2 * k.toNat)
          { val := BitVec.ofNat 128 (pqntScale pw l) }))) ∧
      (pqntScale pw l = 255 → Completes (exec (.pqnt d a f k p) s)
        (completed s (setReg (setReg (cx s) d.toNat {}) (48 + 2 * k.toNat) { val := 255 })))) ∧
    (partLanes f.toNat pw p.toNat (rv s a).toNat = none → onSup s = false → (curCore s).tvec % 2 = 1 →
      Completes (exec (.pcvt d a f w p) s) (userTrapped s 0x01 0 (issuedWord s)) ∧
      Completes (exec (.pqnt d a f k p) s) (userTrapped s 0x01 0 (issuedWord s)))

/-! ## Copies, the matrix unit and banks (R192 to R207, R233 to R241, R270 to R288) -/

namespace Sys2Proof.Claims

open Sys2Proof.Machine

/-- The copy words: operation, operand fields, byte barrier, scope, release, acquire and counter. -/
def copyWords (g : Option (BitVec 3)) (x y z : BitVec 3) (b : BitVec 2) (p : BitVec 3) (r q : Bool) (n : BitVec 2) :
    List (Instr × COp × BitVec 3 × BitVec 3 × BitVec 3 × Nat) :=
  [(.cpy g x y z b p r q n, .cpy, x, y, z, b.toNat), (.cgth g x y z p r q n, .cgth, x, y, z, 0), (.csct g x y z p r q n, .csct, x, y, z, 0),
   (.cdst g x y z b p r q n, .cdst, x, y, z, b.toNat), (.cmcst g x y z b p r q n, .cmcst, x, y, z, b.toNat), (.cfnc g p r q n, .cfnc, 0, 0, 0, 0)]

/-- The matrix words and the command that each makes of its fields and of the registers it reads (R270 to R284). -/
def matrixWords (s : State) (g : Option (BitVec 3)) (x y z : BitVec 3) (a : BitVec 2) (i c r e : Bool) (n : BitVec 2) (l f : Bool) (p : BitVec 3)
    (q t : Bool) : List (Instr × MCmd) :=
  let kx := reg (cx s) (48 + x.toNat)
  let ky := reg (cx s) (48 + y.toNat)
  let ky1 := reg (cx s) (49 + y.toNat)
  let kz := reg (cx s) (48 + z.toNat)
  let kz1 := reg (cx s) (49 + z.toNat)
  let o : Order := { acq := q, rel := r, scope := p.toNat }
  ([(.mclm g x a, { op := .mclm (2 ^ a.toNat), x := x.toNat, y := 0, z := 0 }), (.mrel g x, { op := .mrel, x := x.toNat, y := 0, z := 0 }),
    (.mld g x y z p r q, { op := .mld o, x := x.toNat, y := y.toNat, z := z.toNat, k1 := ky, k2 := kz }),
    (.mma g x y z i c r e n, { op := .mma n.toNat e r c i, x := x.toNat, y := y.toNat, z := z.toNat }),
    (.mdrn g x y z l f p r q i t,
      { op := .mdrn t i o f l, x := x.toNat, y := y.toNat, z := z.toNat, k1 := ky, k2 := ky1, k3 := kz, env := numEnv (cx s) false }),
    (.mspl g x y p r q, { op := .mspl o, x := x.toNat, y := y.toNat, z := 0, k1 := ky })] : List (Instr × MCmd)) ++
  ([(.mrst g x y p r q, { op := .mrst o, x := x.toNat, y := y.toNat, z := 0, k1 := ky }),
    (.msnd g x y z, { op := .msnd, x := x.toNat, y := y.toNat, z := z.toNat, k1 := kx, k2 := ky, k3 := kz, k4 := kz1 }),
    (.mzacc g x, { op := .mzacc, x := x.toNat, y := 0, z := 0 }), (.mmov g x y, { op := .mmov 0, x := x.toNat, y := y.toNat, z := 0 }),
    (.mmovG g x z, { op := .mmov 1, x := x.toNat, y := 0, z := z.toNat, k1 := kz }),
    (.mmovT g x y, { op := .mmov 2, x := x.toNat, y := y.toNat, z := 0 })] : List (Instr × MCmd))

/-- A bank or synchronisation word ends with a status and a bank in kD (R195), after an effect that has left the state `t`. -/
def Answers (o : Out) (t : State) (d : BitVec 6) (code bank : Nat) : Prop :=
  Completes o (completed t (setReg (cx t) d.toNat { val := BitVec.ofNat 128 (code + bank % 512 * 256) }))

end Sys2Proof.Claims

open Sys2Proof Sys2Proof.Machine Sys2Proof.Claims

/-- R151, R233, R234: every copy word queues its command with its operands as they stand, its flags and its guard, and raises its completion
counter at issue, where the queue holds fewer than 16. R240: CWCNT completes with the fault word once the counter is at most kB's value,
with the byte barrier once that is at least kB's, and with ARG for byte barrier 0. R241: CQRY reads counters, byte barriers, fault words and
occupancy, and clears what it is asked to clear. R151, R270 to R284, R359: every matrix word queues its command with its fields and the
registers it reads, where fewer than 8 commands have not completed, and nothing takes it in its cycle (entry 12). R350: a copy or matrix
word that touches a slot which the open group has staged traps with cause 0x0A. R286: MQRY reads the slots' states, a group's description,
the fault word (also clearing it), a coefficient, and the occupancy. R287: MWAIT completes with the fault word once no matrix command is
outstanding and every access of theirs has been performed.
Model choices: log entries 12, 36. -/
def Obligations.CopyAndMatrixWords : Prop :=
  (∀ (s : State) (g : Option (BitVec 3)) (x y z : BitVec 3) (b : BitVec 2) (p : BitVec 3) (r q : Bool) (n : BitVec 2) (d a w : BitVec 6),
      let k := cx s
      let v := (rv s a).toNat
      let i := v % 4
      (∀ c ∈ copyWords g x y z b p r q n, k.cq.length < 16 →
        let m : CCmd := { op := c.2.1, seq := s.tick, dst := reg k (48 + c.2.2.1.toNat), src := reg k (48 + c.2.2.2.1.toNat)
                          len := reg k (48 + c.2.2.2.2.1.toNat), cnt := n.toNat, bb := c.2.2.2.2.2
                          o := { acq := q, rel := r, scope := p.toNat }, bind := bindTo k g, grd := g.map (·.toNat), pc := k.pc }
        (k.tx = none ∨ m.staged s.cur (onSup s) k = false →
          Completes (exec c.1 s) (completed s { k with cq := k.cq ++ [m], cnt := tset k.cnt n.toNat (tget k.cnt n.toNat 0 + 1) })) ∧
        (k.tx ≠ none → m.staged s.cur (onSup s) k = true → Traps (exec c.1 s) s 0x0A 0 (issuedWord s))) ∧
      (v / 4 % 2 = 0 → tget k.cnt i 0 ≤ (rv s w).toNat % 2 ^ 32 → Writes (exec (.cwcnt d a w) s) s d { val := tget k.cfault i 0 }) ∧
      (v / 4 % 2 = 1 → i = 0 → Writes (exec (.cwcnt d a w) s) s d { val := 8 }) ∧
      (v / 4 % 2 = 1 → i ≠ 0 → (rv s w).toNat % 2 ^ 64 ≤ tget k.barr i 0 →
        Writes (exec (.cwcnt d a w) s) s d { val := BitVec.ofNat 128 (tget k.barr i 0) }) ∧
      (v / 4 % 4 = 0 → Writes (exec (.cqry d a) s) s d { val := BitVec.ofNat 128 (tget k.cnt i 0) }) ∧
      (v / 4 % 4 = 1 → i = 0 → Writes (exec (.cqry d a) s) s d { val := 8 }) ∧
      (v / 4 % 4 = 1 → i ≠ 0 → Completes (exec (.cqry d a) s) (completed s
        (setReg (if v / 16 % 2 = 1 then { k with barr := tdel k.barr i } else k) d.toNat { val := BitVec.ofNat 128 (tget k.barr i 0) }))) ∧
      (v / 4 % 4 = 2 → Completes (exec (.cqry d a) s) (completed s
        (setReg (if v / 16 % 2 = 1 then { k with cfault := tdel k.cfault i } else k) d.toNat { val := tget k.cfault i 0 }))) ∧
      (v / 4 % 4 = 3 → Writes (exec (.cqry d a) s) s d { val := BitVec.ofNat 128 (k.copies.length + k.cq.length * 256) })) ∧
  (∀ (s : State) (g : Option (BitVec 3)) (x y z : BitVec 3) (a : BitVec 2) (i c r e : Bool) (n : BitVec 2) (l f : Bool) (p : BitVec 3)
      (q t : Bool) (d w : BitVec 6),
      let k := cx s
      let v := (rv s w).toNat
      let h := mslot k (v / 16 % 8)
      (∀ m ∈ matrixWords s g x y z a i c r e n l f p q t, matrixUsed k < 8 →
        let cmd : MCmd := { m.2 with bind := bindTo k g, grd := g.map (·.toNat), pc := k.pc, seq := s.tick }
        (k.tx = none ∨ cmd.staged k = false → Completes (exec m.1 s) (completed s { k with mq := k.mq ++ [cmd] })) ∧
        (k.tx ≠ none → cmd.staged k = true → Traps (exec m.1 s) s 0x0A 0 (issuedWord s))) ∧
      (v % 8 = 0 → Writes (exec (.mqry d w) s) s d
        { val := BitVec.ofNat 128 (((List.range 8).map fun j => ((mslot k j).st + (if isHead k j then 8 else 0)) * 16 ^ j).sum) }) ∧
      (v % 8 = 1 → Writes (exec (.mqry d w) s) s d
        { val := BitVec.ofNat 128 (h.rowsp + h.kv * 2 ^ 8 + Nat.log2 h.span * 2 ^ 17 + h.st * 2 ^ 24 + partMask h * 2 ^ 32) }) ∧
      (v % 8 = 2 → Writes (exec (.mqry d w) s) s d { val := k.mfault }) ∧
      (v % 8 = 3 → Completes (exec (.mqry d w) s) (completed s (setReg { k with mfault := 0 } d.toNat { val := k.mfault }))) ∧
      (v % 8 = 4 → Writes (exec (.mqry d w) s) s d { val := BitVec.ofNat 128 (gammaOf k (v / 16 % 4)) }) ∧
      (v % 8 = 5 → Writes (exec (.mqry d w) s) s d { val := BitVec.ofNat 128 (matrixUsed k + k.fills.length * 16) }) ∧
      (6 ≤ v % 8 → Writes (exec (.mqry d w) s) s d { val := 8 }) ∧
      (k.mq = [] → k.fills = [] → k.mstores = [] → k.mmas = [] → k.msnds = [] →
        (∀ q ∈ ctxAccesses s s.cur (onSup s), q.eng = 2 → performedAt s 6 q = true) → Writes (exec (.mwait d) s) s d { val := k.mfault }))

/-- R269, R270, R274, R277, R278: what the matrix unit does with the command at the head of a queue. MCLM claims a span of FREE slots; MREL
frees a group, at once where no fill and no store of it is in flight, and leaves it RELEASING until then where one is; MMA of two loaded tiles
keeps each new cell, and the flags it will raise, for its write-back; MZACC zeroes, MMOV copies, MMOV.T transposes an accumulator with no
cells under way, and MMOV.G sets its coefficient.
Model choices: log entries 12, 45. -/
def Obligations.MatrixCommands : Prop :=
  ∀ (s : State) (c : Nat) (sup : Bool) (m : MCmd),
    let x := ctxOf s c sup
    let y (n : Nat) : Ctx := ctxOf (popMatrix c sup (matrixCycles c n s)) c sup
    let done (n : Nat) (z : Ctx) : Took := .done (setCtxOf (popMatrix c sup (matrixCycles c n s)) c sup z)
    (∀ span, m.op = .mclm span → (∀ i, i < span → (mslot x (m.x + i)).st = 0) →
      takeHead c sup m s = done 1 ((y 1).putGroup m.x { st := 1, head := m.x, span := span })) ∧
    (m.op = .mrel → isHead x m.x = true → (mslot x m.x).st ≠ 6 →
      let z := ((y 1).putGroup m.x { st := 6, head := m.x, span := (mslot x m.x).span }).endWork m.x
      let busy := ((y 1).fills.any fun f => f.slot == m.x) || ((y 1).mstores.any fun p => p.groups.contains m.x)
      takeHead c sup m s = done 1 z ∧ (0 < (mslot x m.x).span → (mslot z m.x).st = if busy then 6 else 0)) ∧
    (∀ n e r cm int, m.op = .mma n e r cm int → isHead x m.y = true → isHead x m.z = true → (mslot x m.y).st = 3 → (mslot x m.z).st = 3 →
      let a := mslot x m.y
      let b := mslot x m.z
      let q := mmaCells (accTable x m.x) (if e then some (gammaOf x m.x) else none) a b (n == 1) r cm int
      let w := mmaCycles (tileFmts a) (tileFmts b) (Nat.min a.kv b.kv)
      (int = true → ∀ f ∈ tileFmts a ++ tileFmts b, 9 ≤ f ∧ f ≤ 13) →
      takeHead c sup m s = done w { (y w) with fresh := tset (y w).fresh m.x q.1, mmas := (y w).mmas ++ [⟨m.x, m.grd, m.remote, q.2⟩] }) ∧
    (m.op = .mzacc → takeHead c sup m s = done 1 (((y 1).writeback m.x).putCells m.x [])) ∧
    (m.op = .mmov 0 → accBusy x m.y = false →
      takeHead c sup m s = done 32 (((y 32).writeback m.x).putCells m.x (accTable x m.y))) ∧
    (m.op = .mmov 1 → takeHead c sup m s = done 1 { (y 1) with gamma := tset (y 1).gamma m.x (m.k1.val.setWidth 32) }) ∧
    (m.op = .mmov 2 → accBusy x m.y = false →
      takeHead c sup m s = done 32 (((y 32).writeback m.x).putCells m.x
        (cellTable fun i => (tget (accTable x m.y) (32 * (i % 32) + i / 32) 0#32).toNat)))

/-- R192 to R206, outside a group: ATT of a fresh, a shared and an expected bank and of an entry's attributes; DET; HAND, whose request goes
to the target while the entry drains; RING; BQRY; REVK of a slot and of a hold-list entry; DET and a RING without a ring wait at a slot that is
being handed over. The refusals of each come first: SLOTBUSY, NOBANKS,
BUDGET, EMPTY, CLASS, REACH.
Model choices: log entries 40, 42, 43, 102. -/
def Obligations.BankWords : Prop :=
  ∀ (s : State) (d a b : BitVec 6), (cx s).tx = none → s.cur < 4096 →
    let c := s.cur
    let sup := onSup s
    let v := (rv s a).toNat
    let w := (rv s b).toNat
    let slot := v % 64
    let e := entry (cx s) slot
    let cl := c / 64
    let free : Bool := !e.valid && e.st == 0 && (sup || !slotReserved s c slot)
    let attr : Entry := { hslot := v / 2 ^ 22 % 64, hcore := v / 2 ^ 16 % 64, rpol := v / 2 ^ 14 % 4, perm := v / 2 ^ 8 % 16, valid := true }
    (v / 2 ^ 14 % 4 = 3 → Answers (exec (.att d a b) s) s d 8 0) ∧
    (v / 2 ^ 14 % 4 ≠ 3 → v / 2 ^ 12 % 4 < 2 → v / 64 % 4 = 0 →
      (e.valid = true → Answers (exec (.att d a b) s) s d 2 0) ∧
      (free = true → freshBank s c cl = none → Answers (exec (.att d a b) s) s d 3 0) ∧
      (∀ n, freshBank s c cl = some n → free = true →
        (withinBudget s cl 1 (rcbOf (cx s)) = false → Answers (exec (.att d a b) s) s d 4 0) ∧
        (withinBudget s cl 1 (rcbOf (cx s)) = true → Answers (exec (.att d a b) s)
          (holdBy (512 * cl + n) (2 * c + b2n sup) (rcbOf (cx s)) (putEntry c sup slot { attr with cls := v / 2 ^ 12 % 4, bank := n } s)) d 0 n))) ∧
    (v / 2 ^ 14 % 4 ≠ 3 → v / 2 ^ 12 % 4 < 2 → v / 64 % 4 = 1 → free = true →
      (bankAt s (512 * cl + w % 512)).holders.any (fun h => h.1 == 2 * c + b2n sup) = false → joinable s cl (w % 512) (tenantOf (cx s)) = true →
      ((bankAt s (512 * cl + w % 512)).holders.length < 64 → Answers (exec (.att d a b) s)
        (holdBy (512 * cl + w % 512) (2 * c + b2n sup) (rcbOf (cx s)) (putEntry c sup slot { attr with cls := 1, bank := w % 512 } s)) d 0 (w % 512)) ∧
      (64 ≤ (bankAt s (512 * cl + w % 512)).holders.length → Answers (exec (.att d a b) s) s d 3 (w % 512))) ∧
    (v / 2 ^ 14 % 4 ≠ 3 → v / 2 ^ 12 % 4 < 2 → v / 64 % 4 = 2 → free = true → attachable s cl (w % 512) = true →
      Answers (exec (.att d a b) s) (putEntry c sup slot { st := 1, bank := w % 512 } s) d 0 (w % 512)) ∧
    (v / 2 ^ 14 % 4 ≠ 3 → v / 64 % 4 = 3 → e.valid = true → e.st = 0 →
      Answers (exec (.att d a b) s) (putEntry c sup slot { attr with perm := e.perm &&& (v / 2 ^ 8 % 16), cls := e.cls, bank := e.bank } s) d 0 e.bank) ∧
    (e.valid = false → e.st = 0 → (cx s).staged slot = false → Answers (exec (.det d a) s) s d 10 0) ∧
    (e.valid = true → e.st ≠ 1 → e.st ≠ 3 → (cx s).staged slot = false → drained s c sup slot = true →
      Answers (exec (.det d a) s) (endAttachment c sup slot 1 s) d 0 e.bank) ∧
    (w % 4096 / 64 ≠ cl → Answers (exec (.hand d a b) s) s d 1 (if e.valid then e.bank else 0)) ∧
    (w % 4096 / 64 = cl → e.valid = true → e.st = 0 → e.cls ≠ 2 → (cx s).staged slot = false → drained s c sup slot = true →
      let t := pendReg d 8 (putEntry c sup slot { e with st := 1 } s)
      Completes (exec (.hand d a b) s)
        (send (.handoverRequest (handReq 0 c sup slot e (w % 4096) (w / 2 ^ 16 % 64) d.toNat (cx s))) (completed t (cx t)))) ∧
    (e.valid = true → e.st = 0 → e.cls ≠ 0 → e.cls ≠ 2 → w / 2 ^ 8 % 512 ≠ 0 → Answers (exec (.ring d a b) s) s d 9 e.bank) ∧
    (e.valid = true → e.st = 0 → (e.cls = 0 ∨ e.cls = 2) → ringBusy s c sup slot = false → drained s c sup slot = true →
      7 ≤ w % 16 → w / 2 ^ 8 % 512 ≠ 0 → 2 ^ (w % 16) * (w / 2 ^ 8 % 512) ≤ 32768 →
      let gb := bankOf c e.bank
      Answers (exec (.ring d a b) s) (putEntry c sup slot { e with cls := 2 }
        (setBank s gb { bankAt s gb with ring := some { sz := w % 16, cnt := w / 2 ^ 8 % 512, free := w / 2 ^ 8 % 512 } })) d 0 e.bank) ∧
    (e.valid = true → (e.st = 1 ∨ e.st = 3) →
      Completes (exec (.det d a) s) s ∧ (w / 2 ^ 8 % 512 = 0 → Completes (exec (.ring d a b) s) s)) ∧
    (w / 2 ^ 8 % 512 = 0 → e.valid = true → e.st ≠ 1 → e.st ≠ 3 → e.cls = 2 → drained s c sup slot = true →
      let gb := bankOf c e.bank
      Answers (exec (.ring d a b) s) (putEntry c sup slot { e with cls := 0 } (setBank s gb { bankAt s gb with ring := none })) d 0 e.bank) ∧
    ((v / 64 % 4 ≠ 2 ∨ sup = true) → Writes (exec (.bqry d a) s) s d { val := BitVec.ofNat 128 (bqryWord s v) }) ∧
    (v / 64 % 2 = 0 → (entry (Machine.core s c).user slot).valid = false → Answers (exec (.revk d a b) s) s d 10 0) ∧
    (v / 64 % 2 = 0 → (entry (Machine.core s c).user slot).valid = true → (entry (Machine.core s c).user slot).st = 0 → w % 4 = 0 →
      Answers (exec (.revk d a b) s) (settleBank c slot false 0 2 true s) d 0 (entry (Machine.core s c).user slot).bank) ∧
    (∀ h, tfind (Machine.core s c).hold slot = some h → v / 64 % 2 = 1 → w % 4 = 0 → s.flight.any (holdAsked c slot) = false →
      Answers (exec (.revk d a b) s) (returnBank (bankOf c h.1) (setCore s c { Machine.core s c with hold := tdel (Machine.core s c).hold slot })) d 0 h.1)

/-! ## Messages, barriers, chains, tasks, groups, save areas and security (R297, R306 to R325, R348 to R353, R389) -/

namespace Sys2Proof.Claims

open Sys2Proof.Machine

/-- A word that may not stand where it does traps as misuse of a group (R350): cause 0x0A, where user traps are on. -/
def Misused (s : State) (i : Instr) : Prop := Completes (exec i s) (userTrapped s 0x0A 0 (issuedWord s))

/-- The message that a SEND of legal operands makes (R306, R307). -/
def message (s : State) (d a b : BitVec 6) : Msg :=
  { src := s.cur, sup := onSup s, target := (rv s a).toNat % 4096, payload := rv s b, tag := (rv s a).toNat / 2 ^ 16 % 2 ^ 16, reg := d.toNat
    tenant := tenantOf (cx s), clock := (die s (dieOf s.cur)).vc, sent := s.tick }

/-- A word is staged in the open group `t` (R351): kD takes STAGED and the action's index; the group remembers the word's address. -/
def Staged (s : State) (t : Tx) (d : BitVec 6) (i : Instr) (k : TxKind) (st bank : Nat) : Prop :=
  Completes (exec i s) (completed s (setReg { cx s with tx := some { t with acts := t.acts ++ [{ kind := k, reg := d.toNat, status := st, bank := bank, pc := (cx s).pc }] } }
    d.toNat { val := BitVec.ofNat 128 (21 + t.acts.length * 2 ^ 24) }))

/-- A security word ends with a status in kD after an effect that has left the state `t` (R389). -/
def Replies (o : Out) (d : BitVec 6) (t : State) (code : Nat) : Prop :=
  Completes o (completed t (setReg (cx t) d.toNat { val := BitVec.ofNat 128 code }))

end Sys2Proof.Claims

open Sys2Proof Sys2Proof.Machine Sys2Proof.Claims

/-- R297, R306 to R312: outside a group, with every earlier access performed at the scope asked for, FENCE completes and SEND sends its message
to the inbox or the tag matching of its target, its status outstanding; the port forms move a word to or from a neighbour port; RECV and RECV.T
take the oldest message; PRECV posts a receive; PROBE and PROBE.T report one.
Model choices: log entries 14, 49. -/
def Obligations.MessageWords : Prop :=
  ∀ (s : State) (d a b : BitVec 6) (n : BitVec 4) (p p' : BitVec 6) (w : Word) (r : List Word) (i : InboxItem) (is : List InboxItem) (h : Precv),
    let x := cx s
    let v := (rv s a).toNat
    let m := message s d a b
    let port : AList (List Word) := if r.isEmpty then tdel x.ports p.toNat else tset x.ports p.toNat r
    let posted : Precv := { handle := freeHandle x, src := v % 4096, anys := v.testBit 12, tag := v / 2 ^ 16 % 2 ^ 16, anyt := v.testBit 32
                            addr := (rv s b).toNat % 2 ^ 32 }
    (released s n.toNat = true → Completes (exec (.fence n) s) (completed s x)) ∧
    (x.tx = none → released s n.toNat = true → x.sends < 8 → v / 2 ^ 13 % 8 = 0 → v / 2 ^ 12 % 2 = 0 → v / 2 ^ 16 % 2 ^ 16 = 0 →
      (Machine.core s m.target).mappedOut = false →
      let t := wakeCore m.target (send (.messageArrival m) (pendReg d 8 s))
      Completes (exec (.send d a b n) s) (completed t { cx t with sends := (cx t).sends + 1 })) ∧
    (x.tx = none → released s n.toNat = true → x.sends < 8 → v / 2 ^ 13 % 8 = 0 → v / 2 ^ 12 % 2 = 1 → (Machine.core s m.target).mappedOut = false →
      let t := wakeCore m.target (send (.taggedMessageArrival m) (pendReg d 8 s))
      Completes (exec (.send d a b n) s) (completed t { cx t with sends := (cx t).sends + 1 })) ∧
    (x.tx = none → released s n.toNat = true → x.sends < 8 → v / 2 ^ 13 % 4 ≠ 0 → Writes (exec (.send d a b n) s) s d { val := 8 }) ∧
    (x.tx = none → portAccepts s s.cur p.toNat = true →
      let t := portSend p.toNat (rv s b) s
      Completes (exec (.sendPort p b) s) (completed t (cx t))) ∧
    (tget x.ports p.toNat [] = w :: r →
      Completes (exec (.recvPort d p) s) (completed s (setReg { x with ports := port } d.toNat { val := w }))) ∧
    (tget x.ports p.toNat [] = w :: r → portAccepts s s.cur p'.toNat = true →
      let t := portSend p'.toNat w (setCx s { x with ports := port })
      Completes (exec (.recvF d p' p) s) (completed t (setReg (cx t) d.toNat { val := w }))) ∧
    (x.inbox = i :: is →
      let t := letIn s.cur (takeItem s.cur (onSup s) i (setCx s { x with inbox := is }))
      let e := completed t (setReg (setReg (cx t) d.toNat { val := i.word }) a.toNat { val := BitVec.ofNat 128 i.header })
      Completes (exec (.recv d a b) s) e ∧ Completes (exec (.recvT d a) s) e) ∧
    (x.inbox = [] → Completes (exec (.recvT d a) s) (completed s (setReg (setReg x d.toNat { val := 0 }) a.toNat { val := 0xFF }))) ∧
    (v / 2 ^ 15 % 2 = 0 → (rv s b).toNat % 16 = 0 → x.precvs.length < 32 →
      (∀ g ∈ x.tagq, ¬ ((v.testBit 12 = true ∨ g.src = v % 4096) ∧ (v.testBit 32 = true ∨ g.tag = v / 2 ^ 16 % 2 ^ 16))) →
      Completes (exec (.precv d a b) s)
        (completed s (setReg { x with precvs := x.precvs ++ [posted] } d.toNat { val := BitVec.ofNat 128 (posted.handle * 256) }))) ∧
    (v / 2 ^ 15 % 2 = 0 → (rv s b).toNat % 16 ≠ 0 → Writes (exec (.precv d a b) s) s d { val := 8 }) ∧
    (∀ g, h.done = some g → x.precvs.find? (fun u => u.handle == v / 2 ^ 8 % 32) = some h →
      let e := completed s (setReg { x with precvs := x.precvs.filter fun u => u.handle != v / 2 ^ 8 % 32 } d.toNat
        { val := BitVec.ofNat 128 (g.1 + sourceName g.2.1 + g.2.2 * 2 ^ 32) })
      Completes (exec (.probe d a b) s) e ∧ Completes (exec (.probeT d a) s) e) ∧
    (x.precvs.find? (fun u => u.handle == v / 2 ^ 8 % 32) = some h → h.done = none → Writes (exec (.probeT d a) s) s d { val := 16 }) ∧
    (x.precvs.find? (fun u => u.handle == v / 2 ^ 8 % 32) = none →
      Writes (exec (.probe d a b) s) s d { val := 8 } ∧ Writes (exec (.probeT d a) s) s d { val := 8 })

/-- R314, R316, R317: BAR with illegal operands completes with ARG; with legal ones, released at its scope, the first arrival opens the
episode and a later one joins it, the last of them releasing it, and the word waits for that. FOLLOW adds a reservation. LEAD reads its list and
its tile, and sends the tile's lines to the first member of the chain.
Model choices: log entries 51, 52. -/
def Obligations.BarrierAndChainWords : Prop :=
  ∀ (s : State) (d a b : BitVec 6) (e : Barrier) (ps qs : List (Place × Nat)) (xs : List Nat), (cx s).tx = none → s.cur < 4096 →
    let x := cx s
    let c := s.cur
    let v := (rv s a).toNat
    let w := (rv s b).toNat
    let sc := v % 4
    let id := v / 4 % 16
    let n := v / 2 ^ 8 % 128
    let key := barrierKey c sc id
    let len := v / 2 ^ 32 % 2 ^ 32
    let line (k : Nat) : ChainLine := { lead := c, sup := onSup s, reg := d.toNat, tag := v / 2 ^ 64 % 2 ^ 16, len := len, off := 128 * k
                                        bytes := ((runBytes s qs).drop (128 * k)).take 128, members := xs, index := 0, failed := none, last := k + 1 == len / 128 }
    (sc = 3 → x.waiting = none → Writes (exec (.bar d a) s) s d { val := 8 }) ∧
    (x.waiting = none → sc < 3 → id < barrierCount sc → n = 1 → released s (sc + 1) = true → tfind s.barriers key = none →
      Completes (exec (.bar d a) s) (send (.barrierLeave key)
        (setCx { s with barriers := tset s.barriers key { n := n, region := rcbOf x, arrived := [(c, onSup s)], released := true } }
          { x with waiting := some (.bar key d.toNat) }))) ∧
    (x.waiting = none → sc < 3 → barrierCount sc ≤ id → Writes (exec (.bar d a) s) s d { val := 8 }) ∧
    (x.waiting = none → sc < 3 → (n = 0 ∨ 64 < n) → Writes (exec (.bar d a) s) s d { val := 8 }) ∧
    (x.waiting = none → sc < 3 → id < barrierCount sc → 1 < n → n ≤ 64 → released s (sc + 1) = true → tfind s.barriers key = none →
      Completes (exec (.bar d a) s) (setCx { s with barriers := tset s.barriers key { n := n, region := rcbOf x, arrived := [(c, onSup s)] , released := false } }
        { x with waiting := some (.bar key d.toNat) })) ∧
    (tfind s.barriers key = some e → x.waiting = none → sc < 3 → id < barrierCount sc → 0 < n → n ≤ 64 → released s (sc + 1) = true →
      (e.released = false → (e.n ≠ n ∨ e.region ≠ rcbOf x) → Writes (exec (.bar d a) s) s d { val := 14 }) ∧
      (e.released = false → e.n = n → e.region = rcbOf x → e.arrived.length + 1 < n →
        Completes (exec (.bar d a) s) (setCx { s with barriers := tset s.barriers key { e with arrived := e.arrived ++ [(c, onSup s)], released := false } }
          { x with waiting := some (.bar key d.toNat) })) ∧
      (e.released = false → e.n = n → e.region = rcbOf x → e.arrived.length + 1 = n →
        Completes (exec (.bar d a) s) (send (.barrierLeave key)
          (setCx { s with barriers := tset s.barriers key { e with arrived := e.arrived ++ [(c, onSup s)], released := true } }
            { x with waiting := some (.bar key d.toNat) })))) ∧
    (v % 128 = 0 → len % 128 = 0 → 128 ≤ len → len ≤ 2 ^ 21 → w / 2 ^ 16 % 4 ≠ 0 → x.resv.length < 4 →
      Completes (exec (.follow d a b) s) (completed s (setReg
        { x with resv := x.resv ++ [{ addr := v % 2 ^ 32, len := len, tag := w % 2 ^ 16, bar := w / 2 ^ 16 % 4 }] } d.toNat { val := 0 }))) ∧
    (v % 128 = 0 → len % 128 = 0 → 128 ≤ len → len ≤ 2 ^ 21 → w / 2 ^ 32 % 16 ≠ 0 → w % 2 = 0 →
      spanOf s c (onSup s) x permR true (w % 2 ^ 32) (2 * (w / 2 ^ 32 % 16)) = .ok ps → xs = halfwords (w / 2 ^ 32 % 16) (runBytes s ps) →
      xs.Nodup → (∀ k ∈ xs, k ≠ c ∧ clusterOf k = clusterOf c) →
      spanOf s c (onSup s) x permR true (v % 2 ^ 32) len = .ok qs → released s 3 = true →
      let t := pendReg d 8 s
      Completes (exec (.lead d a b) s)
        (completed { t with flight := t.flight ++ (List.range (len / 128)).map fun k => Event.chainLineArrival (line k) } (cx t)))

/-- R319 to R325: TSPAWN and TDEC send their requests to the counter slice, outside a group; TDONE of a task whose work is complete goes to
the slice, and the supervisor's ends its run; TDEM and TERR compute codes; TQRY reads a segment's header and tail; TRED outside a dispatched
task answers NOSRC; in one it asks the slice, waits, and takes the answer, which raises the share, or where it is unmet and the task's UPOL
is set traps with cause 0x44.
Model choices: log entries 55, 56, 60. -/
def Obligations.TaskWords : Prop :=
  ∀ (s : State) (d a b : BitVec 6) (n : BitVec 4) (w : Bool) (p : Place) (o : Inst × Launch × Node) (r : InstRef) (st : Nat),
    let x := cx s
    let c := s.cur
    let u := (rv s a).toNat
    let v := (rv s b).toNat
    let i := o.1
    let l := o.2.1
    let nd := o.2.2
    let j := u % 4096
    let va := u % 2 ^ 32
    let unknown (t w' : Nat) : Bool := t == 255 || w' == 255
    let share : Nat := bits x.share (8 * (u % 8) + 7) (8 * (u % 8))
    (x.tx = none → released s 5 = true →
      let t := send (.tspawnExpansion { core := c, sup := onSup s, reg := d.toNat, tpl := u % 2 ^ 52, dst := u / 2 ^ 64 % 2 ^ 52, rcs := v % 2 ^ 52
                                        node := v / 2 ^ 52 % 4096, cnt := v / 2 ^ 64 % 2 ^ 13 }) (pendReg d 19 s)
      Completes (exec (.tspawn d a b) s) (completed t (cx t))) ∧
    (ownInst s = none → x.tx = none → released s 5 = true → Writes (exec (.tdec d a) s) s d { val := 8 }) ∧
    (ownInst s = some o → x.tx = none → released s 5 = true →
      (nd.succs.length ≤ j → Writes (exec (.tdec d a) s) s d { val := 8 }) ∧
      (j < nd.succs.length → (i.decd.contains j = true ∨ i.rearmed = true) → Writes (exec (.tdec d a) s) s d { val := 18 }) ∧
      (j < nd.succs.length → i.decd.contains j = false → i.rearmed = false →
        let t := pendReg d 19 (send (.dependenceDecrement { target := { i.ref with node := nd.succs.getD j 0 }, byNode := i.ref.node, core := c, pc := x.pc
                                                            reg := some d.toNat }) (onInst i.ref (fun i => { i with decd := j :: i.decd }) s))
        Completes (exec (.tdec d a) s) (completed t (cx t)))) ∧
    (x.tx = none → onSup s = false → x.waiting = none → x.role = .single → taskQuiet s c false = true →
      Completes (exec (.tdone a) s) (send (.tdoneCommit c) (setCx s { x with waiting := some (.tdone (u % 2 ^ 64)) }))) ∧
    (x.tx = none → onSup s = true → taskQuiet s c true = true → (Machine.core s c).sup.region = none →
      let k := Machine.core s c
      ∃ m, (k.uload = true → m = k.idleSince) ∧ Completes (exec (.tdone a) s)
        (setCore s c { k with supOn := false, issued := true, idleSince := m, sup := { k.sup with hint := .none, waiting := none } })) ∧
    (n = 0 → Writes (exec (.tdem d a b n) s) s d
      { val := BitVec.ofNat 128 (if unknown (u % 256) (v / 2 ^ 8 % 256) then 255 else ((u % 256 : Int) + (v / 2 ^ 8 % 256 : Nat) + (BitVec.ofNat 8 v).toInt).toNat.min 254) }) ∧
    (n = 1 → Writes (exec (.tdem d a b n) s) s d
      { val := BitVec.ofNat 128 (if unknown (u % 256) (v / 2 ^ 8 % 256) then 255 else (u % 256 + v / 2 ^ 8 % 256).min 254) }) ∧
    (n = 2 → Writes (exec (.tdem d a b n) s) s d { val := BitVec.ofNat 128 (Nat.max (u % 256) (v % 256)) }) ∧
    (n = 0 → Writes (exec (.terr d a b n) s) s d { val := if v % 256 = 255 then (if u % 256 = 255 then 1 else 0) else if v % 256 ≤ u % 256 then 1 else 0 }) ∧
    (n = 1 → Writes (exec (.terr d a b n) s) s d { val := BitVec.ofNat 128 (errCode (scalarVal 0 u) (scalarVal 0 v)) }) ∧
    (va % (if w then 64 else 256) = 0 → localMap s c (onSup s) x va 1 true = .ok p → watchHit x.dbg 0 1 va 2 [0, 1, 2, 3] = none →
      watchHit x.dbg 0 1 (va + 62) 2 [0, 1, 2, 3] = none →
      let q := placeBytes s p 64
      let h := segHead w (q.getD 0 0).toNat (q.getD 1 0).toNat
      (h = .z → Writes (exec (.tqry d a w) s) s d { val := BitVec.ofNat 128 (31 + (q.getD 1 0).toNat * 256) }) ∧
      (h ≠ .z → h ≠ .malformed → Writes (exec (.tqry d a w) s) s d
      { val := BitVec.ofNat 128 ((q.getD 0 0).toNat + (q.getD 1 0).toNat * 2 ^ 8 + (q.getD 62 0).toNat * 2 ^ 16 + (q.getD 63 0).toNat % 8 * 2 ^ 24) })) ∧
    (x.tx = none → x.inst = none → Writes (exec (.tred d a b) s) s d { val := BitVec.ofNat 128 (5 + share * 256) }) ∧
    (x.tx = none → x.inst = some r → inst s r = some i → launch s r.die r.launch = some l → nodeOf l r.node = some nd →
      u % 8 < (sensOf l.tpl nd).ins.length →
      (tfind i.tred x.rank = none → Completes (exec (.tred d a b) s)
        (onInst r (fun q => { q with tred := tset q.tred x.rank 255 }) (send (.redemand { consumer := r, rank := x.rank, input := u % 8, code := v % 256 }) s))) ∧
      (tfind i.tred x.rank = some 255 → Completes (exec (.tred d a b) s) s) ∧
      (tfind i.tred x.rank = some st → st ≠ 255 → 2 ≤ st →
        let t := onInst r (fun q => { q with tred := tdel q.tred x.rank }) s
        ((sensOf l.tpl nd).upol = true → Traps (exec (.tred d a b) s) t 0x44 3 (BitVec.ofNat 128 st)) ∧
        ((sensOf l.tpl nd).upol = false → Writes (exec (.tred d a b) s) t d { val := BitVec.ofNat 128 (st + share * 256) }))) ∧
    (x.tx = none → x.inst = some r → inst s r = some i → launch s r.die r.launch = some l → nodeOf l r.node = some nd →
      u % 8 < (sensOf l.tpl nd).ins.length → tfind i.tred x.rank = some st → st < 2 →
      let t := onInst r (fun q => { q with tred := tdel q.tred x.rank }) s
      let x := cx t
      let k := setBits x.share (8 * (u % 8) + 7) (8 * (u % 8)) (Nat.max (bits x.share (8 * (u % 8) + 7) (8 * (u % 8))) (v % 256))
      Completes (exec (.tred d a b) s) (completed t (setReg { x with share := k } d.toNat
        { val := BitVec.ofNat 128 (st + bits k (8 * (u % 8) + 7) (8 * (u % 8)) * 256) })))

/-- R350 to R353: TXB opens a group and TXA closes it; TXC goes to the slice once its release is done; TXB inside a group, TXA and TXC
outside one, and inside a group the words that may not stand there, and a ninth action, are misuse. Inside an open group TDEC, TSPAWN, SEND,
ATT, DET and HAND are staged, checked as far as they are before the commit: kD takes STAGED and the action's index.
R348, R349: CTXSV and CTXLD refuse what is not an area, a core with nothing to save, a core that has a user context, and a region that does
not resolve; else CTXSV saves the user context, and CTXLD loads one with the region that the area's block gives.
Model choices: log entries 41, 76. -/
def Obligations.GroupAndAreaWords : Prop :=
  ∀ (s : State) (d a b : BitVec 6) (n : Bool) (t : Tx) (m : BitVec 4),
    let x := cx s
    let area := (rv s a).toNat % 2 ^ 50
    (x.tx = none → Completes (exec .txb s) (completed s { x with tx := some { since := x.ctime } })) ∧
    (x.tx = some t → Completes (exec .txa s) (completed s { x with tx := none })) ∧
    (x.tx = some t → x.waiting = none → released s 5 = true → Completes (exec (.txc d n) s)
      (send (.txCommit s.cur) (setCx s { x with tx := some { t with accounts := n }, waiting := some (.commit d.toNat) }))) ∧
    (onSup s = false → (curCore s).tvec % 2 = 1 → (x.tx = none → Misused s .txa ∧ Misused s (.txc d n))) ∧
    (onSup s = false → (curCore s).tvec % 2 = 1 → (x.tx = some t →
      Misused s .txb ∧ Misused s .idle ∧ Misused s (.bar d a) ∧ Misused s (.follow d a b) ∧ Misused s (.lead d a b) ∧ Misused s (.tdone a) ∧ Misused s (.tred d a b) ∧
      Misused s (.ring d a b))) ∧
    (x.tx = some t → t.abort = 0 → t.acts.length < 8 →
      Staged s t d (.tdec d a) (.tdec ((rv s a).toNat % 4096)) 0 0 ∧ Staged s t d (.tspawn d a b) (.tspawn (spawnReq d a b s)) 0 0) ∧
    (x.tx = some t → t.abort = 0 → t.acts.length < 8 →
      let v := (rv s a).toNat
      let w := (rv s b).toNat
      let c := s.cur
      let sup := onSup s
      let slot := v % 64
      let e := entry x slot
      let q := attCheck s c sup v (w % 512)
      let bank := if e.valid then e.bank else 0
      let r := handReq 0 c sup slot e (w % 4096) (w / 2 ^ 16 % 64) d.toNat x
      Staged s t d (.att d a b) (.att v q.bank) q.status q.bank ∧
      (v / 2 ^ 13 % 8 = 0 → v / 2 ^ 12 % 2 = 0 → v / 2 ^ 16 % 2 ^ 16 = 0 →
        Staged s t d (.send d a b m) (.send (message s d a b) false) (stagedSend s (message s d a b)) 0) ∧
      (v / 2 ^ 13 % 8 = 0 → v / 2 ^ 12 % 2 = 1 → Staged s t d (.send d a b m) (.send (message s d a b) true) (stagedSend s (message s d a b)) 0) ∧
      (x.staged slot = false → (e.valid = true → e.st ≠ 1 ∧ e.st ≠ 3 ∧ drained s c sup slot = true) →
        Staged s t d (.det d a) (.det slot) (if e.valid || e.st == 1 then 0 else 10) (if e.valid || e.st == 1 then e.bank else 0)) ∧
      (c < 4096 → w % 4096 / 64 = c / 64 → e.valid = true → e.st = 0 → e.cls ≠ 2 → x.staged slot = false → drained s c sup slot = true →
        Staged s t d (.hand d a b) (.hand r) (handCheck s r true) bank) ∧
      (w % 4096 / 64 ≠ c / 64 → Staged s t d (.hand d a b) (.hand r) 1 bank)) ∧
    (onSup s = false → (curCore s).tvec % 2 = 1 → (x.tx = some t → t.abort = 0 → 8 ≤ t.acts.length →
      Misused s (.tdec d a) ∧ Misused s (.tspawn d a b) ∧ Misused s (.send d a b m) ∧ Misused s (.att d a b) ∧ Misused s (.det d a) ∧
      Misused s (.hand d a b))) ∧
    (x.tx = some t → t.abort ≠ 0 → Writes (exec (.tdec d a) s) s d { val := 22 } ∧ Writes (exec (.send d a b m) s) s d { val := 22 }) ∧
    (x.tx = none → (area % 2 ^ 20 ≠ 0 ∨ physExtent s area (2 ^ 20) = false) →
      Writes (exec (.ctxsv d a) s) s d { val := 8 } ∧ Writes (exec (.ctxld d a) s) s d { val := 8 }) ∧
    (x.tx = none → area % 2 ^ 20 = 0 → physExtent s area (2 ^ 20) = true → (curCore s).uload = false → Writes (exec (.ctxsv d a) s) s d { val := 5 }) ∧
    (x.tx = none → area % 2 ^ 20 = 0 → physExtent s area (2 ^ 20) = true → (curCore s).uload = true → (curCore s).udisp = true →
      Writes (exec (.ctxsv d a) s) s d { val := 23 }) ∧
    (x.tx = none → area % 2 ^ 20 = 0 → physExtent s area (2 ^ 20) = true → (curCore s).uload = true → (curCore s).udisp = false →
      (curCore s).killing = false → stopped (setPreempt true s s.cur) s.cur = true →
      Answers (exec (.ctxsv d a) s) (saveUser s.cur area (setPreempt true s s.cur)) d 0 0) ∧
    (x.tx = none → area % 2 ^ 20 = 0 → physExtent s area (2 ^ 20) = true → (curCore s).uload = true → (curCore s).udisp = false →
      ((curCore s).killing = true ∨ stopped (setPreempt true s s.cur) s.cur = false) →
      Completes (exec (.ctxsv d a) s) (setPreempt true s s.cur)) ∧
    (x.tx = none → area % 2 ^ 20 = 0 → physExtent s area (2 ^ 20) = true →
      let u := lostToCtx s.cur x area 64 s
      let rcb := bits (homeRead s area 64) 113 64
      let q := loadArea s.cur area (homeRead s area 64) u
      (areaBad u area = true → Answers (exec (.ctxld d a) s) u d 8 0) ∧
      (areaBad u area = false → (curCore u).uload = true → Answers (exec (.ctxld d a) s) u d 11 0) ∧
      (areaBad u area = false → (curCore u).uload = false → rcb ≠ 0 → (regionStatus u none rcb).1 ≠ 0 → Answers (exec (.ctxld d a) s) u d 24 0) ∧
      (areaBad u area = false → (curCore u).uload = false → (rcb = 0 ∨ (regionStatus u none rcb).1 = 0) →
        (q.1 ≠ 0 → Answers (exec (.ctxld d a) s) q.2 d q.1 0) ∧
        (q.1 = 0 → Completes (exec (.ctxld d a) s) (setPreempt false (completed q.2 (setReg (cx q.2) d.toNat { val := 0 })) s.cur))))

/-- R389, R393: SHASH stores the SM3 digest of its bytes; SVERF says whether an SM2 signature verifies under a public key; SSIGN stores a
signature by a private key; SCRYP stores its bytes encrypted or decrypted under a tenant key; SKEY loads and wipes tenant keys, and a wipe of
all of them sets WIPED; SMEXT extends a measurement register, which for register 3 after a wipe sets EXT. Bad operands answer ARG, a bad key
its own status. SM2, SM3 and SM4 are those of their standards (entry 18).
Model choices: log entry 75. -/
def Obligations.SecurityWords : Prop :=
  ∀ (s : State) (d a b : BitVec 6) (k : Key),
    let v := (rv s a).toNat
    let w := (rv s b).toNat
    let src := v % 2 ^ 32
    let n := v / 2 ^ 32 % 2 ^ 32
    let bytes := memBytes s.sram src n
    let dst := w % 2 ^ 32
    let slot := w / 2 ^ 32 % 64
    let stored (b : List Byte) : State := { s with sram := memPut s.sram dst b }
    let key := toBytes 64 k.bytes.toNat
    let z := s.nolorn
    (n ≤ 2 ^ 20 → src + n ≤ 0x40000 → dst + 32 ≤ 0x40000 → Replies (exec (.shash d a b) s) d (stored (sm3 bytes)) 0) ∧
    (2 ^ 20 < n → Replies (exec (.shash d a b) s) d s 8) ∧
    (n = 96 → src + n ≤ 0x40000 → z.fuse ≠ 7 → tfind z.keys slot = some k → k.kind = 1 →
      Replies (exec (.sverf d a b) s) d s
        (if sm2Verify (ofBytesBE (key.take 32), ofBytesBE (key.drop 32)) (bytes.take 32) ((bytes.drop 32).take 32) (bytes.drop 64) then 0 else 25)) ∧
    (n = 32 → src + n ≤ 0x40000 → dst + 64 ≤ 0x40000 → z.fuse ≠ 7 →
      (tfind z.keys slot = some k → k.kind = 0 → Replies (exec (.ssign d a b) s) d (stored ((sm2Sign (key.take 32) bytes 256 0).getD [])) 0) ∧
      (tfind z.keys slot = some k → k.kind ≠ 0 → Replies (exec (.ssign d a b) s) d s 26) ∧
      (tfind z.keys slot = none → Replies (exec (.ssign d a b) s) d s 27)) ∧
    (n % 16 = 0 → n ≤ 2 ^ 20 → src + n ≤ 0x40000 → dst + n ≤ 0x40000 → z.fuse ≠ 7 → tfind z.keys slot = some k → k.kind = 3 →
      Replies (exec (.scryp d a b) s) d (stored (sm4Xts false (key.take 16) ((key.drop 16).take 16) (w / 2 ^ 64 % 2 ^ 64) bytes)) 0 ∧
      Replies (exec (.scrypDec d a b) s) d (stored (sm4Xts true (key.take 16) ((key.drop 16).take 16) (w / 2 ^ 64 % 2 ^ 64) bytes)) 0) ∧
    (n = 64 → src + n ≤ 0x40000 → z.fuse ≠ 7 → 16 ≤ slot → Replies (exec (.skey d a b) s) d
      { s with nolorn := { z with keys := tset z.keys slot { kind := 3, bytes := BitVec.ofNat 512 (ofBytes bytes) }, wiped := false } } 0) ∧
    (n = 64 → src + n ≤ 0x40000 → (z.fuse = 7 ∨ slot < 16) → Replies (exec (.skey d a b) s) d s 26) ∧
    (z.fuse ≠ 7 →
      let hi := w / 2 ^ 40 % 64
      let all : Bool := decide (slot ≤ 16) && hi == 63
      Replies (exec (.skeyWipe d a b) s) d { s with nolorn := { z with
        keys := z.keys.filter fun p => !(decide (slot ≤ p.1) && decide (p.1 ≤ hi)), wiped := z.wiped || all, ext := z.ext && !all } } 0) ∧
    (n = 32 → src + n ≤ 0x40000 →
      let i := w / 2 ^ 32 % 4
      let m := BitVec.ofNat 256 (ofBytes (sm3 (toBytes 32 (tget z.meas i 0).toNat ++ bytes)))
      Replies (exec (.smext d a b) s) d
        { s with nolorn := { z with meas := if m = 0 then tdel z.meas i else tset z.meas i m, ext := z.ext || (i == 3 && z.wiped) } } 0)

/-! ## The steps of accesses and translations, of banks and messages, of the engines (R126, R151, R188 to R203, R225 to R227, R234, R273 to
R298, R305 to R317, R326, R375) -/

/-- R293 to R298: the steps of an access. The oldest one of its buffer for a slice enters the slice's lane, the oldest of a lane goes to the
slice's queue or to the die link, the oldest entry of a link, messages among them, to the slice or the bank port; a port performs its oldest
access, unless that has to wait; a home serves a read, applies a write with its clock, and performs an atomic operation in one step, the old
value of one that returns it being served; a served value goes to its register, and its clock to its die. R225 to R227, R244, R375: when a
walk ends, so does every miss that joined it: one whose page translates puts its leaf into its core's buffer; one that finds an absent entry
queues a page request, or goes on waiting with the walk where the queue is full; one that fails for another reason leaves the cause for the
access that meets it, a malformed table being logged for the walk. A response, once the writes that its function posted have been performed,
or the time-out of 2^26 cycles, ends a page request. An invalidation is outstanding at once where none is, and its completion drops what it
names.
Model choices: log entries 4, 15, 80. -/
def Obligations.AccessAndTranslationSteps : Prop :=
  (∀ (s : State) (a : Access) (pa : Nat) (b : List Byte) (m : Amo),
      let id := a.id
      let old (f : Access → Bool) : Bool := (before id s.accesses).all fun q => !f q
      (access s id = some a → a.stage = .buffer → old (fun q => q.stage == .buffer && a.sameSource q && sameSlice s a q) = true →
        exec (.accessForward id) s = .next (moveAccess { a with stage := .lane } (taken (.accessForward id) s))) ∧
      (access s id = some a → a.stage = .lane → old (fun q => q.stage == .lane && a.core == q.core && sameSlice s a q) = true →
        exec (.accessSend id) s =
          .next (moveAccess { a with stage := if destDie s a.dest = a.die then .slice else .link, linked := s.tick } (taken (.accessSend id) s))) ∧
      (access s id = some a → a.stage = .link → a.dest = .home pa → msgAhead (taken (.linkCross id) s) a = false →
        old (fun q => q.stage == .link && q.die == a.die && destDie s q.dest == destDie s a.dest) = true →
        exec (.linkCross id) s = .next (moveAccess { a with stage := .slice } (taken (.linkCross id) s))) ∧
      (access s id = some a → a.stage = .link → (∀ q, a.dest ≠ .home q) → msgAhead (taken (.linkCross id) s) a = false →
        old (fun q => q.stage == .link && q.die == a.die && destDie s q.dest == destDie s a.dest) = true →
        exec (.linkCross id) s = .next (moveAccess { a with stage := .port } (taken (.linkCross id) s))) ∧
      (access s id = some a → a.stage = .port → portTurn s a = true → portWaits s a = false → behindFill s a = false →
        exec (.bankPerform id) s = .next (performPort a (taken (.bankPerform id) s))) ∧
      (access s id = some a → a.stage = .slice → a.dest = .home pa → homeTurn s a = true → cxlDead s pa = false →
        let t := taken (.homeApply id) s
        (a.write = none → a.amo = none → exec (.homeApply id) s = .next (putAccess
          { a with stage := .served, clock := locationClock t pa a.size, val := homeBytes t pa a.size, vtags := unitTags t pa a.size } t)) ∧
        (a.write = some b → a.eng = 0 → exec (.homeApply id) s =
          .next (setLocationClock pa a.size a.clock (setTags (pa / 16) a.tags (homeWrite (dropAccess id t) pa b)))) ∧
        (a.write = none → a.amo = some m → a.reg = none → exec (.homeApply id) s =
          .next (dropAccess id (setLocationClock pa a.size a.clock (applyAmo a m pa t).1))) ∧
        (a.write = none → a.amo = some m → a.reg ≠ none → exec (.homeApply id) s =
          .next (putAccess { a with stage := .served, clock := locationClock t pa a.size, val := toBytes a.size (homeRead t pa a.size)
                                    vtags := [a.size == 16 && homeTag t pa] }
            (setLocationClock pa a.size a.clock (applyAmo a m pa t).1)))) ∧
      (access s id = some a → a.stage = .slice → a.dest = .home pa → homeTurn s a = true → cxlDead s pa = true →
        exec (.homeApply id) s = .next (performHome a pa (lossRecord a.core a.sup 4 pa (taken (.homeApply id) s)))) ∧
      (access s id = some a → a.stage = .served → a.eng = 0 → ∀ n, a.reg = some n → exec (.readReturn id) s =
        .next (returnToReg a n (mergeClock a.die a.clock (dropAccess id (taken (.readReturn id) s)))))) ∧
  (∀ (s : State) (w : Walk) (n : Miss) (ms left : List Miss) (r : Walked) (st2 : Bool) (x e fn group code : Nat) (q : Prq) (t : State),
      let s0 := taken (.translationWalk w.id) s
      let miss := walkAll s w.die w.fn w.va n.rd n.wr
      let asked := pageRequest w.fn st2 x n.wr [{ core := n.core, vpage := w.va / 4096, eng := 0, wr := n.wr }]
        (lostToCtx n.core (Machine.core s n.core).user e 8 s)
      let failed (cause : Nat) : State := setCore s n.core { Machine.core s n.core with walkFail := some ⟨w.va / 4096, n.wr, cause, x⟩ }
      let answer : Event := .pageRequestResponse fn group code
      (s.walks.find? (fun v => v.id == w.id) = some w → exec (.translationWalk w.id) s =
        .next (retryWhere (fun _ => true) (endWalk w w.misses [] { s0 with walks := s0.walks.filter fun v => v.id != w.id }))) ∧
      endWalk w [] [] s = s ∧
      endWalk w [] (n :: left) s = { s with walks := s.walks ++ [{ w with misses := n :: left }] } ∧
      endWalk w (n :: ms) left s = endWalk w ms (if (endMiss w n s).2 then left ++ [n] else left) (endMiss w n s).1 ∧
      (miss = .ok r → endMiss w n s = (setCore (cacheWalk r.used s) n.core (tlbAdd
        { fn := w.fn, vpage := w.va / 4096, ppage := r.pa / 4096, gpage := r.gpage, rd := r.rd, wr := r.wr, size := r.size } (Machine.core s n.core)), false)) ∧
      (miss = .error (.absent st2 x e) → asked = some t → endMiss w n s = (t, false)) ∧
      (miss = .error (.absent st2 x e) → asked = none → endMiss w n s = (s, true)) ∧
      (miss = .error (.malformed st2 x) → endMiss w n s =
        (if w.misses.head? = some n then logMalformed n.core (.malformed st2 x) (failed (if st2 then 0x2A else 0x29)) else failed (if st2 then 0x2A else 0x29), false)) ∧
      (miss = .error (.perm st2 x) → endMiss w n s = (failed (if st2 then 0x28 else 0x27), false)) ∧
      (hostWrites s fn = false → exec (.pageRequestResponse fn group code) s = .next (answerPage fn group (code == 0) (taken answer s))) ∧
      (hostWrites s fn = true → exec (.pageRequestResponse fn group code) s = .next (if s.flight.contains answer then s else send answer s)) ∧
      ((func s fn).prq.find? (fun p => p.group == group) = some q → q.sent + 2 ^ 26 ≤ s.elapsed →
        exec (.pageRequestTimeout fn group) s = .next (answerPage fn group false (taken (.pageRequestTimeout fn group) s))) ∧
      ((func s fn).inval = [] →
        exec (.invalFunction fn st2) s = .next (send (.invalComplete fn)
          (setFunc (taken (.invalFunction fn st2) s) fn { func s fn with inval := [(0, st2, 0)] })) ∧
        exec (.invalPage fn st2 x) s = .next (send (.invalComplete fn)
          (setFunc (taken (.invalPage fn st2 x) s) fn { func s fn with inval := [(1, st2, x)] })) ∧
        exec (.invalRegion fn st2 x) s = .next (send (.invalComplete fn)
          (setFunc (taken (.invalRegion fn st2 x) s) fn { func s fn with inval := [(2, st2, x)] }))) ∧
      ((func s fn).inval = [(code, st2, x)] → exec (.invalComplete fn) s =
        .next (dropEntries fn code st2 x (setFunc (taken (.invalComplete fn) s) fn { func s fn with inval := [] }))))

/-- R77, R200, R201: what the target's table answers a hand-over: REACH outside the cluster, NOTASK with no user context there or a kill
under way, TENANT where the tags differ, SLOTBUSY where the slot is taken, else OK.
R188, R196, R200, R203: a hand-over request, the first of its kind under way, is answered by the target's table, and an accepted one moves
the bank; one whose bank has left its place meanwhile is answered EMPTY; the answer writes the register that waits, and a refused HAND's
entry is attached again. A scrub ends with the bank's bytes zero and the bank free. A pool configuration is written where it moves no bank
or no bank is in use, and one that changes anything ends the scrubs and zeroes the banks that were or become common; one with a reserved bit
set, with CBL above 8, or that would move banks while one is in use only sets WERR.
Model choices: log entries 6, 44, 94. -/
def Obligations.BankSteps : Prop :=
  (∀ (s : State) (r : HandReq),
      let k := Machine.core s r.target
      let e := entry k.user r.tslot
      (r.target / 64 ≠ r.core / 64 → handCheck s r true = 1) ∧
      (r.target / 64 = r.core / 64 → (k.uload = false ∨ k.killing = true) → handCheck s r true = 5) ∧
      (r.target / 64 = r.core / 64 → k.uload = true → k.killing = false →
        (∀ p g, r.tenant = some p → k.user.region = some g → (g.tenant ^^^ p.1) &&& p.2 ≠ 0 → handCheck s r true = 6) ∧
        (tenantOk r.tenant k.user = true → (e.valid = true ∨ (e.st = 1 ∧ e.bank ≠ r.bank)) → handCheck s r true = 2) ∧
        (tenantOk r.tenant k.user = true → e.valid = false → (e.st = 1 → e.bank = r.bank) → slotReserved s r.target r.tslot = false →
          r.cls ≠ 1 → handCheck s r true = 0))) ∧
  (∀ (s : State) (r : HandReq) (st bank cl : Nat) (v : BitVec 64),
      let e : Event := .handoverRequest r
      let u := taken e s
      let ans : HandAns := { req := r, status := st }
      let w := taken (.handoverAnswer ans) s
      let k := cluster s cl
      let n := v.toNat
      let k' : Cluster := { k with werr := false, owner := n / 2 ^ 8 % 2 ^ 50 * 2 ^ 8, cbl := n / 16 % 16, en := n.testBit 0 }
      let moves : Bool := k'.cbl != k.cbl || k'.en != k.en
      (r.target ≤ 4208 → r.core ≤ 4208 →
        s.flight.find? (fun f => match f with | .handoverRequest q => q.target == r.target && q.core == r.core | _ => false) = some e →
        (sourceHolds u r = false → exec (.handoverRequest r) s = .next (send (.handoverAnswer { req := r, status := 10 }) u)) ∧
        (sourceHolds u r = true → handCheck u r true = 0 → exec (.handoverRequest r) s = .next (send (.handoverAnswer { req := r, status := 0 }) (handAccept r u))) ∧
        (sourceHolds u r = true → handCheck u r true ≠ 0 → exec (.handoverRequest r) s = .next (send (.handoverAnswer { req := r, status := handCheck u r true }) u))) ∧
      (r.core ≤ 4208 → r.origin = 0 → (Machine.core s r.core).killing = false → st = 0 →
        exec (.handoverAnswer ans) s = .next (deliver r.core r.sup r.reg (BitVec.ofNat 128 (r.bank % 512 * 256)) w)) ∧
      (r.core ≤ 4208 → r.origin = 0 → (Machine.core s r.core).killing = false → st ≠ 0 →
        (entry (ctxOf s r.core r.sup) r.slot).valid = true → (entry (ctxOf s r.core r.sup) r.slot).bank = r.bank →
        exec (.handoverAnswer ans) s = .next (deliver r.core r.sup r.reg (BitVec.ofNat 128 (st + r.bank % 512 * 256))
          (putEntry r.core r.sup r.slot { entry (ctxOf s r.core r.sup) r.slot with st := 0 } w))) ∧
      (bank < 32768 → (bankAt s bank).cond = .scrubbing → (bankAt s bank).marked = false →
        exec (.bankScrubDone bank) s = .next (zeroBank bank (setBank (taken (.bankScrubDone bank) s) bank { cond := .free, marked := false }))) ∧
      (cl < 64 → n / 2 ^ 58 % 32 = 0 → n / 2 % 8 = 0 → n / 16 % 16 ≤ 8 → (moves = true → banksInUse s cl = false) → exec (.cpoolWrite cl v) s =
        (let t := setCluster (taken (.cpoolWrite cl v) s) cl k'
         let scrubbed := (List.range 512).foldl (fun t b => scrubNow t (512 * cl + b)) t
         let zeroed := (commonBanks s cl ++ commonBanks scrubbed cl).foldl (fun t b => zeroBank (512 * cl + b) t) scrubbed
         .next (if moves = false ∧ k'.owner = k.owner then t else if k.en && !k'.en then touchCluster cl zeroed else zeroed))) ∧
      (cl < 64 → (n / 2 ^ 58 % 32 ≠ 0 ∨ n / 2 % 8 ≠ 0 ∨ 8 < n / 16 % 16 ∨ (moves = true ∧ banksInUse s cl = true)) → exec (.cpoolWrite cl v) s = .next (setCluster (taken (.cpoolWrite cl v) s) cl { k with werr := true })))

/-- R305 to R317, R326, R126: a message, the first of its sender to its target, joins those at the target's interface, and they enter as room
allows; a tagged one is matched, queued or refused. A port word comes behind those before it. The participants of a released barrier leave. A
chain's line is performed at a member that has a reservation for it; where there is none the first line waits and a later one is passed on as
failed, as is one to a member with no resident context or with one that is being killed. A RECV and a PROBE whose time-out has
expired complete with 0xFE and TIMEOUT. A probe that returns proves a cycle, and the cycle is recorded. A follower takes the oldest word. A
block notice comes behind its contribution, and waits while its link retrains (R382).
Model choices: log entries 48, 50, 51, 53. -/
def Obligations.MessageSteps : Prop :=
  ∀ (s : State) (m : Msg) (c port key d h tmo start wb : Nat) (w : Word) (b : Barrier) (l : ChainLine) (r : Resv) (rest : List Resv) (p : Precv)
    (cs : List Nat) (f : FwdWord) (fs : List FwdWord) (n : BlockNotice) (ps : List (Place × Nat)),
    let i := 7 * n.die + n.link
    let q : Bq := tget s.mgmt.bq i {}
    let cc := 4096 + 28 * n.die + 4 * n.link + n.block % 4
    let size := 2 ^ (q.bs + 7)
    let addr := (q.base + n.rank % 4 * size) % 2 ^ 32
    let bn := taken (.blockNoticeArrival n) s
    (m.target ≤ 4208 → m.src ≤ 4208 → powered (Machine.core s m.target) = true →
      (msgBehind (.messageArrival m) m s = false → exec (.messageArrival m) s =
        (let t := mergeClock (dieOf m.target) m.clock (taken (.messageArrival m) s)
         .next (admitAll m.target ((Machine.core t m.target).niq ++ [m]) t))) ∧
      (msgBehind (.taggedMessageArrival m) m s = false → exec (.taggedMessageArrival m) s =
        .next (takeTagged m (mergeClock (dieOf m.target) m.clock (taken (.taggedMessageArrival m) s))))) ∧
    (c < 4096 → port < 4 → residentOf (Machine.core s c) = some false →
      s.flight.find? (fun e => match e with | .portWordArrival c' p' _ => c' == c && p' == port | _ => false) = some (.portWordArrival c port w) →
      exec (.portWordArrival c port w) s =
        (let t := taken (.portWordArrival c port w) s
         let x := (Machine.core t c).user
         .next (setCtxOf t c false { x with ports := tset x.ports port (tget x.ports port [] ++ [w]) }))) ∧
    (tfind s.barriers key = some b → b.released = true →
      exec (.barrierLeave key) s =
        .next (leaveAll key 0 b.arrived { taken (.barrierLeave key) s with barriers := tdel s.barriers key })) ∧
    (l.members = c :: cs → l.members.all isCore = true →
      s.flight.find? (fun e => match e with | .chainLineArrival q => q.lead == l.lead && q.sup == l.sup && q.members.head? == l.members.head? | _ => false)
        = some (.chainLineArrival l) → residentOf (Machine.core s c) = some true →
      (takeFirst (lineMeets l) (Machine.core s c).sup.resv = some (r, rest) →
        exec (.chainLineArrival l) s = .next (performLine l c true r rest (taken (.chainLineArrival l) s))) ∧
      (takeFirst (lineMeets l) (Machine.core s c).sup.resv = none →
        exec (.chainLineArrival l) s = .next (if l.off = 0 then s else passLine l false (taken (.chainLineArrival l) s)))) ∧
    (l.members = c :: cs → l.members.all isCore = true →
      s.flight.find? (fun e => match e with | .chainLineArrival q => q.lead == l.lead && q.sup == l.sup && q.members.head? == l.members.head? | _ => false)
        = some (.chainLineArrival l) →
      (residentOf (Machine.core s c) = none ∨ (residentOf (Machine.core s c) = some false ∧ (Machine.core s c).killing = true)) →
      exec (.chainLineArrival l) s = .next (passLine l false (taken (.chainLineArrival l) s))) ∧
    (c ≤ 4208 → (Machine.core s c).sup.waiting = none → (Machine.core s c).user.waiting = some (.recv d h tmo start) → tmo ≠ 0 →
      start + tmo ≤ (Machine.core s c).user.ctime → (Machine.core s c).user.inbox = [] →
      exec (.recvTimeout c) s = .next (completeWord c false (fun x => setReg (setReg x d {}) h { val := 0xFE }) (taken (.recvTimeout c) s))) ∧
    (c ≤ 4208 → (Machine.core s c).sup.waiting = none → (Machine.core s c).user.waiting = some (.probe d h tmo start wb false) → tmo ≠ 0 → start + tmo ≤ (Machine.core s c).user.ctime →
      (Machine.core s c).user.precvs.find? (fun p => p.handle == h) = some p → p.done = none →
      exec (.probeTimeout c) s = .next (completeWord c false (fun x => setReg x d { val := 15 }) (taken (.probeTimeout c) s))) ∧
    (c ≤ 4208 → cycleOf s c = some cs → s.flight.contains (.receiveCycle cs) = false →
      exec (.waitForProbe c) s = .next (send (.receiveCycle cs) (taken (.waitForProbe c) s))) ∧
    (cycleOf s c = some (c :: cs) → (c :: cs).all isCore = true → exec (.receiveCycle (c :: cs)) s =
      (let t := taken (.receiveCycle (c :: cs)) s
       let low := (c :: cs).foldl Nat.min c
       let x := ctxOf t low (Machine.core t low).supOn
       .next (logFor low x 0x64 false x.pc (Config.cycleVal ((c :: cs).map fun k => (k, (ctxOf t k (Machine.core t k).supOn).pc)))
         ((c :: cs).foldl markReported t)))) ∧
    (c ≤ 4208 → (Machine.core s c).user.role = .attached wb → (Machine.core s c).fwd = none → (Machine.core s c).user.fwdq = f :: fs → userIssues (Machine.core s c) = true →
      powered (Machine.core s c) = true → (Machine.core s c).supOn = false → exec (.forwardedWordIssue c) s =
        .next { setCore (taken (.forwardedWordIssue c) s) c { Machine.core s c with fwd := some f, user := { (Machine.core s c).user with fwdq := fs, pc := f.pc } } with
          cur := c, order := [] }) ∧
    (n.die < 4 → 3 ≤ n.link → n.link < 7 → n.rank < q.p → (link s (4 * n.die + (n.link - 3))).retraining = true →
      exec (.blockNoticeArrival n) s = .next (if s.flight.contains (.blockNoticeArrival n) then s else send (.blockNoticeArrival n) s)) ∧
    (n.die < 4 → n.link < 7 → (3 ≤ n.link → (link s (4 * n.die + (n.link - 3))).retraining = false) → n.rank < q.p →
      tget q.open_ n.block 0 = 2 * n.rank → residentOf (Machine.core s cc) = some true → inboxRoom s cc true = true →
      spanOf bn cc true (ctxOf bn cc true) permW false addr size = .ok ps →
      exec (.blockNoticeArrival n) s =
        (let t := writeRuns cc 3 ps (n.bytes.take size) bn
         .next (notify cc true (.block (blockWord addr q.p n.rank n.block))
           { t with mgmt := { t.mgmt with bq := tset t.mgmt.bq i { q with open_ := tset q.open_ n.block (2 * n.rank + 3) } } })))

/-- R151, R234, R241, R273, R278, R281, R284: a copy starts where its command may, with its parts, its name and its whole-command status; a
copy whose parts are done leaves its counter, with its fault word. A fill whose page has failed leaves its group FAULTED and empty; one
whose tile can be read leaves it FULL with that tile. An MMA's cells are written back. A store is complete when its writes have been
performed. A remote command enters the target's queue. An engine discards a head command whose guard is FALSE. After each, the matrix unit
takes what it may (entry 12).
Model choices: log entry 7. -/
def Obligations.EngineSteps : Prop :=
  ∀ (s : State) (c : Nat) (m : CCmd) (ms : List CCmd) (srcs parts : List (Nat × Nat)) (ix : List Int) (st el : Nat) (p : Copy) (slot ac : Nat)
    (f : MWork) (t : AList (BitVec 32)) (u : MStore) (r : MsndReq) (k : MCmd) (ks : List MCmd) (v : VCmd) (vs : List VCmd), c ≤ 4208 →
    let x := (Machine.core s c).user
    let cs := taken (.copyStart c) s
    let new : Copy := { id := s.nextId, cmd := m, parts := parts, srcs := srcs, index := ix, keep := keepsTags m, status := st, elem := el }
    (x.cq = m :: ms → m.bind = .run → x.dbg.halted = false → (Machine.core s c).preempt = false → x.copies.length < 64 →
      x.copies.all (fun p => p.cmd.op != .cfnc) = true → acquired cs c false m.o m.seq = true → beginCopy cs c false m = .ok srcs parts ix st el →
      exec (.copyStart c) s = .next (startReads c false new srcs.length 0
        (setCtxOf { cs with nextId := s.nextId + 1 } c false { x with cq := ms, copies := x.copies ++ [new] }))) ∧
    (copyOf s c false p.id = some p → copyComplete (taken (.copyComplete c p.id) s) c false p = true →
      exec (.copyComplete c p.id) s = .next (setCtxOf (taken (.copyComplete c p.id) s) c false
        ({ x with copies := x.copies.filter fun q => q.id != p.id }.countDown p.cmd p.status p.elem))) ∧
    (x.fills.find? (fun f => f.slot == slot) = some f →
      exec (.mldFillComplete c slot) s = .next (advanceMatrix c (completeFill c false f (taken (.mldFillComplete c slot) s)))) ∧
    (0 < (mslot x f.cmd.x).span → (mslot x f.cmd.x).st ≠ 6 →
      let after := mslot (Machine.core (completeFill c false f s) c).user f.cmd.x
      (f.failed ≠ none → after.st = 4 ∧ after.kv = 0 ∧ after.rowsp = 0 ∧ after.rows = []) ∧
      (∀ base rec_ cap rows, f.failed = none → f.use = some (base, rec_, cap) → fillBehind s c false f.cmd.seq ⟨base, rec_, cap⟩ f.cmd.k2.val.toNat = false →
        (fillLines ⟨base, rec_, cap⟩ f.cmd.k2.val.toNat).all (lineReady s c false) = true →
        fillTile s c false ⟨base, rec_, cap⟩ f.cmd.k2.val.toNat = .ok rows →
        after.st = 3 ∧ after.kv = mldKv rec_ f.cmd.k2.val.toNat ∧ after.rowsp = rows.length ∧ after.rows = rows)) ∧
    (tfind x.fresh ac = some t →
      exec (.accumulatorWriteback c ac) s = .next (advanceMatrix c (setCtxOf (taken (.accumulatorWriteback c ac) s) c false
        (({ x with fresh := tdel x.fresh ac, mmas := x.mmas.filter fun a => a.acc != ac }.putCells ac t).raise
          ((x.mmas.filter fun a : MMul => a.acc == ac).foldl (fun n (a : MMul) => n ||| a.flags) 0))))) ∧
    (x.mstores.find? (storeComplete (taken (.matrixStoreComplete c) s) c false) = some u → u.status = 0 →
      exec (.matrixStoreComplete c) s =
        .next (advanceMatrix c (setCtxOf (taken (.matrixStoreComplete c) s) c false
          (u.groups.foldl Ctx.endWork { x.raise u.flags with mstores := x.mstores.filter fun q => q.id != u.id })))) ∧
    (x.mstores.find? (storeComplete (taken (.matrixStoreComplete c) s) c false) = some u → u.status ≠ 0 →
      exec (.matrixStoreComplete c) s =
        .next (advanceMatrix c (matrixFault c false u.cmd.pc u.status u.elem (setCtxOf (taken (.matrixStoreComplete c) s) c false
          (u.groups.foldl Ctx.endWork { x.raise u.flags with mstores := x.mstores.filter fun q => q.id != u.id }))))) ∧
    (r.target = c →
      s.flight.find? (fun f => match f with | .msndAccept q => q.src == r.src && q.sup == r.sup && q.target == r.target | _ => false) = some (.msndAccept r) →
      powered (Machine.core s c) = true → (Machine.core s c).uload = true → (Machine.core s c).killing = false → (Machine.core s c).preempt = false →
      tenantOk r.tenant x = true → matrixUsed x < 8 → remoteCmd r x s.tick = some k → exec (.msndAccept r) s =
        .next (advanceMatrix c (msndAnswer r true (setCtxOf (mergeClock (dieOf c) r.clock (taken (.msndAccept r) s)) c false { x with mq := x.mq ++ [k] })))) ∧
    (r.target = c →
      s.flight.find? (fun f => match f with | .msndAccept q => q.src == r.src && q.sup == r.sup && q.target == r.target | _ => false) = some (.msndAccept r) →
      powered (Machine.core s c) = true →
      ((Machine.core s c).uload = false ∨ (Machine.core s c).killing = true ∨ (Machine.core s c).preempt = true ∨ tenantOk r.tenant x = false) →
      exec (.msndAccept r) s = .next (msndAnswer r false (taken (.msndAccept r) s))) ∧
    (x.vq = v :: vs → v.bind = .discard → x.dbg.halted = false → vectorSide (Machine.core s c) = false →
      let t := spendOn c none (some 5) none (taken (.guardFalseDiscard c 1) s)
      exec (.guardFalseDiscard c 1) s = .next (setCtxOf t c false (stillPending { ctxOf t c false with
        vq := vs, pend := match v.target with | some n => tdel x.pend n | none => x.pend }))) ∧
    (x.cq = m :: ms → m.bind = .discard →
      exec (.guardFalseDiscard c 3) s = .next (setCtxOf (taken (.guardFalseDiscard c 3) s) c false ({ x with cq := ms }.countDown m 0 0))) ∧
    (x.mq = k :: ks → k.bind = .discard → matrixSide (Machine.core s c) = false → exec (.guardFalseDiscard c 2) s =
      .next (advanceMatrix c (popMatrix c false (spendFor c 1 none none (some 5) (taken (.guardFalseDiscard c 2) s)))))

/-! ## The steps of tasks, of Saffron, of exceptions and contexts (R87, R96, R102 to R118, R123, R155, R320, R321, R333 to R345, R352, R353) -/

/-- R87, R96, R109, R110, R320, R321, R352, R353: a decrement takes 1 off its target's counter, readies it at 0, and answers ZERO or OK; one
that finds 0 leaves an underflow record and changes no counter. An expansion answers with its launch or with its refusal. A re-demand that is
met already answers so, and one that is not raises and arms the producer, with its demand word rewritten. The commit of a task without a
launch commits its accounts and disposes of its table. A group commits where each action was done; one that has aborted gives ABORTED. A group
open for 65,536 cycles aborts with cause 5.
Model choices: log entries 59, 60, 62, 125. -/
def Obligations.TaskSteps : Prop :=
  ∀ (s : State) (r : DecReq) (q : SpawnReq) (u : RedemandReq) (c : Nat) (l : Launch) (i p : Inst) (w : SensIn) (t : State) (st mask d : Nat) (g : Tx)
    (ws : List Nat),
    let s1 := taken (.dependenceDecrement r) s
    let done (n : Nat) (z : State) : Out := .next (match r.reg with | some k => deliver r.core false k (BitVec.ofNat 128 n) z | none => z)
    (r.core ≤ 4208 → inst s r.target = some i → launch s r.target.die r.target.launch = some l →
      (1 < i.counter → exec (.dependenceDecrement r) s = done 0 (onInst r.target (fun i => { i with counter := i.counter - 1 }) s1)) ∧
      (i.counter = 1 → ∃ z, exec (.dependenceDecrement r) s = done 19 z ∧
        z = onInst r.target (fun i => if i.st = .waiting then { i with counter := i.counter - 1, st := .ready, ready := s.elapsed, since := s.elapsed }
          else { i with counter := i.counter - 1 }) s1) ∧
      (i.counter = 0 → exec (.dependenceDecrement r) s = done 0 (domainLog r.target.die l.snap (record 0x63 false r.target.n r.target.node
        r.target.launch (coreName r.core) r.pc (elapsedOn s r.target.die) (BitVec.ofNat 128 (r.byNode % 4096 + 4096))) s1))) ∧
    (q.core ≤ 4208 →
      (expandSpawn q (taken (.tspawnExpansion q) s) = (t, .inl st) →
        exec (.tspawnExpansion q) s = .next (deliver q.core q.sup q.reg (BitVec.ofNat 128 st) t)) ∧
      (∀ q', expandSpawn q (taken (.tspawnExpansion q) s) = (t, .inr q') → exec (.tspawnExpansion q) s = .next (send (.tspawnExpansion q') t))) ∧
    (launch s u.consumer.die u.consumer.launch = some l → inputOf l u.consumer.node u.input = some w → w.srcv = true →
      inst s { u.consumer with node := w.srcnode } = some p →
      (u.code ≤ p.demand.getD w.srcout 0 → exec (.redemand u) s = .next (answerTred u.consumer u.rank 1 (taken (.redemand u) s))) ∧
      (p.demand.getD w.srcout 0 < u.code → p.rearmed = false → p.held = false →
        exec (.redemand u) s = .next (answerTred u.consumer u.rank 2 (taken (.redemand u) s))) ∧
      (p.demand.getD w.srcout 0 < u.code → p.rearmed = false → p.held = true → keeps l w.srcnode = true → p.reruns < 7 →
        let p' : Inst := { p with demand := p.demand.set w.srcout (Nat.max (p.demand.getD w.srcout 0) u.code), st := .ready, ready := s.elapsed
                                  since := s.elapsed, rearmed := true, reruns := p.reruns + 1, waited := 0, starved := false, disp := 0, resid := 0
                                  waiters := p.waiters ++ [(u.consumer.node, u.rank, false)] }
        (writeDemand l p' s = (t, true) → exec (.redemand u) s = .next (onInst p.ref (fun _ => p') (taken (.redemand u) t))) ∧
        (writeDemand l p' s = (t, false) → exec (.redemand u) s = .next (send (.redemand u) (taken (.redemand u) t)))) ∧
      (p.demand.getD w.srcout 0 < u.code → p.rearmed = true → p.st ≠ .ready →
        let p' : Inst := { p with requeue := p.requeue ++ [(w.srcout, u.code)], waiters := p.waiters ++ [(u.consumer.node, u.rank, true)] }
        writeDemand l p' s = (t, true) → exec (.redemand u) s = .next (onInst p.ref (fun _ => p') (taken (.redemand u) t)))) ∧
    (c ≤ 4208 → (Machine.core s c).user.waiting = some (.tdone mask) → (Machine.core s c).uload = true → (Machine.core s c).killing = false → (Machine.core s c).user.handler = none →
      (Machine.core s c).user.inst = none → exec (.tdoneCommit c) s =
        .next (clearUser c (commitAccounts c false none (disposeTable c 64 0 (spendOn c (some 2) none none (taken (.tdoneCommit c) s)))))) ∧
    (c ≤ 4208 → (Machine.core s c).sup.waiting = none → (Machine.core s c).user.waiting = some (.commit d) → (Machine.core s c).user.tx = some g →
      (g.abort ≠ 0 → firstRefused 0 g.acts = none → exec (.txCommit c) s = .next (closeTx c false d g (abortWords none 0 g.acts)
        (22 + g.abort * 2 ^ 8 + g.acts.length * 2 ^ 32) (taken (.txCommit c) s))) ∧
      (g.abort = 0 → firstRefused 0 g.acts = none → g.accounts = false → g.acts.any (attLost (taken (.txCommit c) s) c) = false →
        g.acts.any (slotAsked (Machine.core s c).user) = false → sendsWait (taken (.txCommit c) s) c false g = false →
        applyAll c false 0 g.acts [] (setCtxOf (taken (.txCommit c) s) c false { (Machine.core s c).user with tx := none }) = .commit ws t →
        exec (.txCommit c) s = .next (closeTx c false d g ws (g.acts.length * 2 ^ 32) t))) ∧
    (c ≤ 4208 → (Machine.core s c).sup.tx = none → (Machine.core s c).user.tx = some g → (Machine.core s c).user.waiting = none → g.abort = 0 →
      g.since + 65536 ≤ (Machine.core s c).user.ctime → exec (.txTimeout c) s =
        .next (setCore (taken (.txTimeout c) s) c { Machine.core s c with user := { (Machine.core s c).user with tx := some { g with abort := 5 } } }))

/-- R102 to R108, R376: the message at the head of its queue, of a function that is ready, is taken from the queue and answered by the checks
of its kind; one that passes has its effect: a launch's record, instances and sweep; a supervisor's start; the end of a launch; an image
registered, or dropped. A message joins a queue that holds fewer than 256, and is counted as dropped otherwise. A held completion record is
written when the ring has space.
Model choices: log entries 57, 65, 67, 94. -/
def Obligations.ActiveMessages : Prop :=
  ∀ (s : State) (d fn : Nat) (msg : BitVec 512) (r : BitVec 256) (t : List (BitVec 256)) (l : Launch) (m : Template) (i : Image), d < 4 → fn < 64 →
    let v := msg.toNat
    let x := die s d
    let q := tget x.queues fn []
    let f := func s fn
    let a (k st id : Nat) (e : Event) : State := answerMsg d fn k st id msg (taken e s)
    (exec (.activeMessageEnqueue d fn msg) s = .next (let u := taken (.activeMessageEnqueue d fn msg) s
      if q.length < 256 then setDie u d { x with queues := tset x.queues fn (q ++ [msg]) } else setFunc u fn { f with drops := f.drops + 1 })) ∧
    (f.held = r :: t → f.crsize ≠ 0 → f.crtail < f.crsize + f.crhead → exec (.completionRecordWrite fn) s = .next (setFunc (taken (.completionRecordWrite fn) s) fn
      { f with held := t, ringOut := f.ringOut ++ [(f.crbase + 32 * (f.crtail % f.crsize), r)], crtail := f.crtail + 1, msix1 := f.msix1 + 1 })) ∧
    (f.ready = true → f.held = [] → x.reset = false → q.head? = some msg →
      (bits v 7 0 = 1 → launchReserved v = true → exec (.launch d fn msg) s = .next (a 1 2 0 (.launch d fn msg))) ∧
      (bits v 7 0 = 1 → launchReserved v = false →
        let u := lostToMgmt (bits v 113 64) 256 (taken (.launch d fn msg) s)
        let g := regionStatus u (some fn) (bits v 113 64)
        let y := noteLoad d g.2 (bits v 179 128) u
        let z := storeTemplate d m y
        g.1 = 0 → overQuota u (bits v 113 64) = false → askedFailed y d fn g.2 = none →
        (loadTemplate y d g.2 (bits v 179 128) = .ok m → hostLaunch z d fn v g.2 m = .inr l →
          exec (.launch d fn msg) s = .next (admitLaunch d l (hostInsts z d l.id l) (answerMsg d fn 1 0 l.id msg z))) ∧
        (∀ st, loadTemplate y d g.2 (bits v 179 128) = .ok m → hostLaunch z d fn v g.2 m = .inl st →
          exec (.launch d fn msg) s = .next (answerMsg d fn 1 st 0 msg z)) ∧
        (∀ st, loadTemplate y d g.2 (bits v 179 128) = .refuse st → exec (.launch d fn msg) s = .next (answerMsg d fn 1 st 0 msg y)) ∧
        (∀ st2 b p, loadTemplate y d g.2 (bits v 179 128) = .page st2 b p → exec (.launch d fn msg) s = .next (askPage d fn g.2 st2 b p y))) ∧
      (bits v 7 0 = 0 → exec (.launch d fn msg) s = .next (a 1 1 0 (.launch d fn msg))) ∧
      (bits v 7 0 = 2 → bits v 511 256 = 0 → bits v 127 96 = 0 → bits v 79 76 = 0 → bits v 31 8 = 0 → bits v 81 80 = 0 →
        let c := bits v 75 64
        let u := taken (.corestart d fn msg) s
        (fn < 2 → (Machine.core s c).start = none → (Machine.core s c).supOn = false → (Machine.core s c).mappedOut = false → exec (.corestart d fn msg) s =
          .next (answerMsg d fn 3 0 0 msg (send (.startMessage c) (wakeCore c
            (setCore u c { Machine.core s c with start := some { sup := true, pc := bits v 95 80, arg0 := bits v 191 128, arg1 := bits v 255 192
                                                                 clock := x.vc } }))))) ∧
        (2 ≤ fn → exec (.corestart d fn msg) s = .next (answerMsg d fn 3 15 0 msg u)) ∧
        (fn < 2 → (Machine.core s c).start = none → ((Machine.core s c).supOn = true ∨ (Machine.core s c).mappedOut = true) → exec (.corestart d fn msg) s = .next (answerMsg d fn 3 12 0 msg u))) ∧
      (bits v 7 0 = 3 → bits v 511 80 = 0 → bits v 31 8 = 0 →
        (launch s d (bits v 79 64) = none → exec (.cancel d fn msg) s = .next (a 4 14 0 (.cancel d fn msg))) ∧
        (launch s d (bits v 79 64) = some l → l.fn ≠ fn → exec (.cancel d fn msg) s = .next (a 4 15 0 (.cancel d fn msg))) ∧
        (launch s d (bits v 79 64) = some l → l.fn = fn → exec (.cancel d fn msg) s =
          .next (cancelLaunch d (bits v 79 64) (a 4 0 (bits v 79 64) (.cancel d fn msg))))) ∧
      (let u := noteImage (bits v 79 64) (bits v 177 128) (taken (.imgreg d fn msg) s)
       bits v 7 0 = 4 → bits v 511 178 = 0 → bits v 127 80 = 0 → bits v 31 8 = 0 → image s d fn (bits v 79 64) = none →
        (readImage u fn (bits v 79 64) (bits v 177 128) = none → exec (.imgreg d fn msg) s = .next (answerMsg d fn 5 2 0 msg u)) ∧
        ((die u d).images.length < 1024 → readImage u fn (bits v 79 64) (bits v 177 128) = some i → exec (.imgreg d fn msg) s =
          .next (answerMsg d fn 5 0 0 msg { (setDie u d { die u d with
            images := (die u d).images.filter (fun j => !(j.fn == fn && j.imgid == bits v 79 64)) ++ [i] }) with nextId := u.nextId + 1 }))) ∧
      (bits v 7 0 = 5 → bits v 511 80 = 0 → bits v 31 8 = 0 →
        ((image s d fn (bits v 79 64)).isSome = true → imageUsed s d fn (bits v 79 64) = true →
          exec (.imgdrop d fn msg) s = .next (a 5 16 0 (.imgdrop d fn msg))) ∧
        ((image s d fn (bits v 79 64)).isSome = true → imageUsed s d fn (bits v 79 64) = false → exec (.imgdrop d fn msg) s =
          .next (answerMsg d fn 5 0 0 msg (setDie (taken (.imgdrop d fn msg) s) d
            { x with images := x.images.filter fun j => !(j.fn == fn && j.imgid == bits v 79 64) })))))

/-- R87, R112, R114, R117, R118, R123, R342: a sweep writes the demand words that are to be written. The oldest of the starved that fits is
dispatched before any other. A task that has waited 524,288 cycles is starved, and one rises a level for each 65,536. A placed instance whose
cores have power has its image loaded, its bankdata written, and its start message sent; the start message starts its members together, or the
supervisor. A request for pre-emption goes to the instance that is to make way, which has its areas. A handler starts on a free core where its
domain has records that it has not covered.
Model choices: log entries 58, 63, 64, 94, 117, 123. -/
def Obligations.SaffronSteps : Prop :=
  ∀ (s : State) (d id c flog : Nat) (l : Launch) (r : InstRef) (i v : Inst) (n : Node) (g : Image) (cs : List Nat) (u : State) (k : Start) (m : Domain),
    (launch s d id = some l → exec (.demandSweep d id) s =
      (let t := writeDemands l (unwritten s d id) (taken (.demandSweep d id) s)
       .next (if (unwritten t d id).isEmpty then t else send (.demandSweep d id) t))) ∧
    (d < 4 → (die s d).reset = false →
      let t := markFits d (taken (.taskSelect d) s)
      let all := sortInsts ((die t d).insts.filter Inst.pooled)
      let h := starvedHold t d (all.filter (·.starved))
      let z := setDie t d { die t d with holdCluster := h.map (·.1), holdTask := h.map (·.2) }
      (((all.filter (·.starved)).head?.bind fun i => (placeInst z none i).map fun p => (i, p)) = some (i, cs) →
        exec (.taskSelect d) s = .next (dispatch i cs z)) ∧
      ((all.filter (·.starved)) = [] → choosePools d none all 8 z = (u, some (i, cs)) → exec (.taskSelect d) s = .next (dispatch i cs u)) ∧
      ((all.filter (·.starved)) = [] → choosePools d none all 8 z = (u, none) → exec (.taskSelect d) s = .next u)) ∧
    (exec (.starvation r) s = .next (onInst r (fun i => { i with starved := i.starved ||
      ((i.st == .ready || i.st == .suspended) && decide (524288 ≤ i.waited + (s.elapsed - i.since))) }) (taken (.starvation r) s))) ∧
    (launch s r.die r.launch = some l → exec (.priorityAging r) s = .next (onInst r (fun i =>
      if i.st = .ready ∨ i.st = .suspended then
        { i with prio := Nat.max i.prio (Nat.min 7 (l.snap.prio + (i.waited + (s.elapsed - i.since)) / 65536)) } else i) (taken (.priorityAging r) s))) ∧
    (inst s r = some i → i.st = .placing → launch s r.die r.launch = some l → nodeOf l r.node = some n → image s r.die l.fn n.image = some g →
      i.cores.all (fun c => powered (Machine.core s c)) = true →
      let t := i.cores.foldl (loadImage l.snap g) (taken (.instanceStart r) s)
      let y := noteBankdata l.snap g i t
      (i.areas = [] → bankdataRuns g.addr i.cores 0 (runsOf y g.addr g.textlen g.bdn) y = (u, none) →
        exec (.instanceStart r) s = .next (send (.startMessage (i.cores.headD 0)) (i.cores.foldl (stampStart i.ref.die) u))) ∧
      (∀ b slot, i.areas = [] → bankdataRuns g.addr i.cores 0 (runsOf y g.addr g.textlen g.bdn) y = (u, some (b, slot)) →
        exec (.instanceStart r) s = .next (failStart l i g b slot u)) ∧
      (i.areas ≠ [] → exec (.instanceStart r) s =
        .next ((i.cores.zip i.areas).foldl (fun s p => send (.contextRestore p.1 p.2) s) t))) ∧
    (c ≤ 4208 → (Machine.core s c).start = some k →
      (k.sup = true → powered (Machine.core s c) = true → storeComing (taken (.startMessage c) s) c = false →
        exec (.startMessage c) s = .next (startSup c k (mergeClock (dieOf c) k.clock (settle c (taken (.startMessage c) s))))) ∧
      (k.sup = false → k.ctx.bind (·.inst) = none → powered (Machine.core s c) = true →
        exec (.startMessage c) s = .next (startUser (taken (.startMessage c) s) c)) ∧
      (k.sup = false → k.ctx.bind (·.inst) = some r → inst s r = some i → i.cores.all (fun m => powered (Machine.core s m)) = true →
        exec (.startMessage c) s = .next (onInst r (fun j => { j with st := .running, disp := (i.cores.foldl startUser (taken (.startMessage c) s)).elapsed })
          (i.cores.foldl startUser (taken (.startMessage c) s))))) ∧
    (d < 4 → (longUnplaced s d).find? (fun i => (victimFor s i).isSome) = some i → victimFor s i = some v → takeAreas v (taken (.preemptDecision d) s) = some u →
      exec (.preemptDecision d) s = .next (send (.preemption (v.cores.headD 0))
        (v.cores.foldl (setPreempt true) (onInst i.ref (fun i => { i with failedPlace := some s.elapsed }) u)))) ∧
    (d < 4 → tfind (die s 0).domains flog = some m → m.running = false → m.covered < homeRead s flog 8 →
      let t := taken (.faultHandlerStart d flog) s
      let p := handlerSnap t m.snap
      image s d (funcOf p.vf p.pfn) p.fhimg = some g → placement t { die := d, rcb := p.rcb, img := g, shape := 0, size := 1, fresh := 0 } (die s d).holdCluster = some (c :: cs) →
      exec (.faultHandlerStart d flog) s =
        (let t := wakeCore c (setDie t 0 { die s 0 with domains := tset (die s 0).domains flog { m with covered := homeRead s flog 8, running := true } })
         .next (send (.startMessage c) (setCore t c
           { Machine.core t c with
             start := some { sup := false, pc := p.fhent, clock := (die t d).vc, ctx := some (handlerCtx p (homeRead s flog 8)) } }))))

/-- R155, R333, R335, R336, R340, R343: a trap of a user context with traps on records its cause, address and value, and starts the supervisor at
the vector of its class; an imprecise cause that waits is taken in the same way, with %tcause's bit 8; a trap of the supervisor goes to its own
vector. A kill ends once its table is dealt with. A pre-empted instance whose members have all stopped is saved and is SUSPENDED; a member of a
restored one stands on its core again. A counter at 2^47 commits the accounts.
Model choices: log entries 16, 22, 94. -/
def Obligations.TrapAndContextSteps : Prop :=
  ∀ (s : State) (c area : Nat) (cause : BitVec 8) (pc : BitVec 16) (val : Word) (imp : List (Nat × Word)) (i j : Inst) (t : State) (x : Ctx) (o : Nat),
    c ≤ 4208 →
    let k := Machine.core s c
    let with_ (e : Event) (y : Ctx) : State := setCore { taken e s with cur := c } c { k with user := y }
    let kt := setCore (taken (.contextKill c cause pc val) s) c { k with killing := true }
    (userIssues k = true → k.supOn = false → trapCause cause.toNat = true → impreciseCause cause.toNat = false → k.tvec % 2 = 1 →
      Completes (exec (.trapEntry c cause pc val) s) { userTrapped (with_ (.trapEntry c cause pc val) { k.user with pc := pc.toNat, hint := .none })
        cause.toNat (causeClass cause.toNat) val with cur := s.cur }) ∧
    (userIssues k = true → k.supOn = false → k.user.imprecise = (cause.toNat, val) :: imp → k.user.hint = .none → k.user.midway = false → k.tvec % 2 = 1 →
      Completes (exec (.impreciseTrapTake c) s) { userTrapped (with_ (.impreciseTrapTake c) { k.user with imprecise := imp })
        (cause.toNat + 256) (causeClass cause.toNat) val with cur := s.cur }) ∧
    (k.supOn = true → trapCause cause.toNat = true → impreciseCause cause.toNat = false → k.tvec % 2 = 1 → k.spend = false →
      exec (.supervisorTrap c cause pc val) s = .next { supTrapped (setCore { taken (.supervisorTrap c cause pc val) s with cur := c } c
        { k with sup := { k.sup with pc := pc.toNat, hint := .none } }) cause.toNat val with cur := s.cur }) ∧
    (k.uload = true → k.user.waiting = none → k.user.inst = none →
      let z := withdraw c false kt
      let z := { z with accesses := z.accesses.filter fun a => !(a.core == c && !a.sup) }
      dealTable c (setCore z c { Machine.core z c with user := (Machine.core z c).user.stripped, fwd := none }) = t → tableDone t c = true →
      exec (.contextKill c cause pc val) s = .next (endKill c cause.toNat pc.toNat val t)) ∧
    (k.user.inst.bind (inst s) = some i → k.uload = true → k.udisp = true → i.st = .running → i.cores.all (fun m => !(Machine.core s m).killing) = true →
      takeAreas i (taken (.preemption c) s) = some t →
      let z := i.cores.foldl (setPreempt true) t
      i.cores.all (stopped z) = true → inst z i.ref = some j →
      let y := saveAll (j.cores.zip j.areas) z
      exec (.preemption c) s = .next (onInst j.ref (fun i => { i with st := .suspended, since := y.elapsed, cores := [] }) y)) ∧
    (tfind s.areas area = some (o, x) → x.inst.bind (inst s) = some i → k.uload = false → i.cores.contains c = true → i.areas.contains area = true →
      powered k = true →
      let z := restoreMember c area i (taken (.contextRestore c area) s)
      (1 < i.areas.length → exec (.contextRestore c area) s = .next z) ∧
      (i.areas.length = 1 → exec (.contextRestore c area) s =
        (let z := i.cores.foldl (fun s c => resumeHandler c s) (i.cores.foldl (setPreempt false) z)
         .next (onInst i.ref (fun i => { i with st := .running, disp := z.elapsed }) z)))) ∧
    (residentOf k = some false → k.user.acct.any (fun p => decide (2 ^ 47 ≤ p.2)) = true →
      exec (.accountCounterLimit c) s = .next (commitAccounts c false none (taken (.accountCounterLimit c) s)))

/-! ## The steps of power, of the host, of errors and of debugging (R100, R101, R119 to R122, R139, R150, R188, R215, R220, R318, R354, R355,
R362 to R374, R376 to R390) -/

/-- R119, R120, R378, R385, R390: gating starts at a core or cluster that has been idle for its time, reaches its commit point and then
power-off; a wake before the commit point aborts it, one after it is held, and one from power-off begins power-up. Power good brings the module
up once its firmware's measurement holds; function-ready opens the windows. Heat sets and clears THERMAL, and at 110 degrees the record is
written before the module is reset. The owner of semaphore 1 holds a die or resets the module, and the owner of semaphore 2 stops the clock; a
write without the semaphore changes nothing.
Model choices: log entries 10, 82, 83, 84, 124. -/
def Obligations.PowerSteps : Prop :=
  ∀ (s : State) (c cl d fn : Nat) (h : Bool), c ≤ 4208 → cl < 64 → d < 4 →
    let k := Machine.core s c
    let g := cluster s cl
    let pow (e : Event) (p : Power) : State := setCore (taken e s) c { k with power := p }
    let cpow (e : Event) (p : Power) : State := setCluster (taken e s) cl { g with power := p }
    (k.power = .on → residentOf k = none → messagePending (taken (.coreGatingStart c) s) c = false → k.idleSince + 16384 ≤ s.elapsed →
      let t := settle c (taken (.coreGatingStart c) s)
      exec (.coreGatingStart c) s = .next (send (.coreGatingCommit c)
        (setCore t c { Machine.core t c with power := .gating false false, idleSince := s.elapsed }))) ∧
    (k.power = .gating false h → k.idleSince + 32 ≤ s.elapsed →
      exec (.coreGatingCommit c) s = .next (send (.corePowerOff c) (pow (.coreGatingCommit c) (.gating true h)))) ∧
    (k.power = .gating true h → k.idleSince + 64 ≤ s.elapsed → exec (.corePowerOff c) s =
      .next (if h then send (.powerUpDone false c) (pow (.corePowerOff c) .waking) else pow (.corePowerOff c) .off)) ∧
    (g.power = .on → (∀ m ∈ clusterCores cl, (Machine.core s m).power = .off) → banksIdle s cl = true → clusterIdleSince s cl + 65536 ≤ s.elapsed →
      exec (.clusterGatingStart cl) s = .next (send (.clusterGatingCommit cl)
        (setCluster (taken (.clusterGatingStart cl) s) cl { g with power := .gating false false, idleSince := s.elapsed }))) ∧
    (g.power = .gating false h → g.idleSince + 256 ≤ s.elapsed →
      exec (.clusterGatingCommit cl) s = .next (send (.clusterPowerOff cl) (cpow (.clusterGatingCommit cl) (.gating true h)))) ∧
    (g.power = .gating true false → g.idleSince + 512 ≤ s.elapsed → exec (.clusterPowerOff cl) s =
      .next ((clusterCores cl).foldl (fun s m => setCore s m { Machine.core s m with image := none }) (cpow (.clusterPowerOff cl) .off))) ∧
    (g.power = .off → exec (.wake true cl) s = .next (send (.powerUpDone true cl) (cpow (.wake true cl) .waking))) ∧
    (g.power = .gating false h → exec (.wake true cl) s = .next (cpow (.wake true cl) .on)) ∧
    (g.power = .gating true h → exec (.wake true cl) s = .next (cpow (.wake true cl) (.gating true true))) ∧
    (g.power = .waking → exec (.powerUpDone true cl) s = .next (setCluster { taken (.powerUpDone true cl) s with
      istore := s.istore.filter fun p => p.1 / 2 ^ 22 != cl } cl { g with power := .on, idleSince := s.elapsed })) ∧
    (k.power = .waking → clusterOf c = some cl → g.power = .on →
      let t := settle c (taken (.powerUpDone false c) s)
      exec (.powerUpDone false c) s = .next (setCore t c { Machine.core t c with power := .on, idleSince := s.elapsed })) ∧
    (s.mgmt.poweredUp = false → exec .powerGood s =
      (let t : State := { taken .powerGood s with
         mgmt := { s.mgmt with poweredUp := true, cxlCap := [(0, Config.cxlCapacity 0), (1, Config.cxlCapacity 1)] } }
       let m := ofBytes (sm3 (toBytes 32 0 ++ sm3 Config.firmwareImage))
       .next (if firmwareAccepted s = true then send .functionReady (startFirmware ([0, 1, 2, 3].foldl (fun s d => selfTest (resetDie d false s) d)
         { t with nolorn := { s.nolorn with meas := tset s.nolorn.meas 0 (BitVec.ofNat 256 m) } })) else t))) ∧
    (∃ t, exec .functionReady s = .next t ∧ ∀ f, f < 64 → func t f = { func s f with ready := true }) ∧
    (exec (.thermalWarning d) s = .next ([0, 1].foldl (fun s f => setFunc s f { func s f with msix0 := (func s f).msix0 + 1 })
      (setDie { taken (.thermalWarning d) s with mgmt := { s.mgmt with thermal := true } } d { die s d with thermal := true }))) ∧
    (exec (.thermalClear d) s = (let t := setDie (taken (.thermalClear d) s) d { die s d with thermal := false }
      .next { t with mgmt := { s.mgmt with thermal := [0, 1, 2, 3].any fun e => (die t e).thermal } })) ∧
    (exec (.thermalTrip d) s = .next (resetModule (mgmtLog (record Config.thermalCause.toNat false 0 0 0 (1024 * d) 0xFFFF (elapsedOn s d) 0)
      (taken (.thermalTrip d) s)))) ∧
    (owns s fn 1 = true → exec (.dieResetHold fn d true) s = .next (resetDie d true
      { taken (.dieResetHold fn d true) s with mgmt := { s.mgmt with dieReset := setBits s.mgmt.dieReset d d 1 } })) ∧
    (owns s fn 1 = true → exec (.moduleReset fn) s = .next (resetModule (taken (.moduleReset fn) s))) ∧
    (owns s fn 2 = true → exec (.clockStop fn h) s = .next { taken (.clockStop fn h) s with mgmt := { s.mgmt with clockStopped := h } }) ∧
    (owns s fn 1 = false → exec (.dieResetHold fn d h) s = .next (taken (.dieResetHold fn d h) s) ∧
      exec (.moduleReset fn) s = .next (taken (.moduleReset fn) s)) ∧
    (owns s fn 2 = false → exec (.clockStop fn h) s = .next (taken (.clockStop fn h) s))

/-- R100, R101, R122, R376 to R380: a free semaphore is taken by its first writer and given up by its owner alone. A function's reset drops its
images, and frees its semaphores, marked as forced. NumVFs is written where the sum stays at 62 or below. A word at or above LIM is not stored by
the host. CAPGEN writes a tagged capability to module memory, and counts a write elsewhere as dropped. BQCFG is dropped while notices are open.
The mailbox, its doorbell and FWUPD act for the owner of their semaphore. A register of a function's own window takes its value.
Model choices: log entries 78, 79, 81, 93, 131. -/
def Obligations.HostSteps : Prop :=
  ∀ (s : State) (fn i n c addr off link : Nat) (en : Bool) (w : BitVec 32) (v : BitVec 64) (u : BitVec 256) (b : List Byte),
    let x := func s fn
    let q : Bq := tget s.mgmt.bq link {}
    let k := Machine.core s c
    let e : Event := .istoreHostWrite fn c addr w
    (i < 4 → fn < 2 → (sem s i).owner = 0 →
      exec (.semAcquire fn i) s = .next (setSem (taken (.semAcquire fn i) s) i { sem s i with owner := fn + 1 })) ∧
    (i < 4 → (sem s i).owner ≠ 0 → exec (.semAcquire fn i) s = .next (taken (.semAcquire fn i) s)) ∧
    (i < 4 → (owns s fn i = true → exec (.semRelease fn i) s = .next (setSem (taken (.semRelease fn i) s) i { owner := 0, forced := false })) ∧
      (owns s fn i = false → exec (.semRelease fn i) s = .next (taken (.semRelease fn i) s))) ∧
    (fn < 64 → exec (.functionLevelReset fn) s = .next ([0, 1, 2, 3].foldl (fun s i => if owns s fn i then setSem s i { owner := 0, forced := true } else s)
      ([0, 1, 2, 3].foldl (clearFunction fn) (taken (.functionLevelReset fn) s)))) ∧
    (fn < 2 → n + (func s (1 - fn)).numVfs ≤ 62 →
      exec (.numvfsWrite fn n en) s = .next (setFunc (taken (.numvfsWrite fn n en) s) fn { x with numVfs := n, vfEnable := en })) ∧
    (fn < 2 → 62 < n + (func s (1 - fn)).numVfs → exec (.numvfsWrite fn n en) s = .next (taken (.numvfsWrite fn n en) s)) ∧
    (c < 4096 → fn < 2 → addr % 4 = 0 → addr < 65536 → k.power = .on → s.flight.find? (storeTo c) = some e →
      (addr < k.tlim → exec (.istoreHostWrite fn c addr w) s = .next (writeStore c addr w (taken e s))) ∧
      (k.tlim ≤ addr → exec (.istoreHostWrite fn c addr w) s = .next (taken e s))) ∧
    (fn < 2 →
      (isLpddr (bits u.toNat 49 0) = true → bits u.toNat 49 0 % 16 = 0 → exec (.capgenWrite fn u) s = .next (homeWriteTagged
        (taken (.capgenWrite fn u) s) (bits u.toNat 49 0) (BitVec.ofNat 128 (coreCap (bits u.toNat 75 64) (bitAt u.toNat 80) (bits u.toNat 91 88))) true)) ∧
      (bits u.toNat 49 0 % 16 ≠ 0 → exec (.capgenWrite fn u) s =
        .next (setFunc (taken (.capgenWrite fn u) s) fn { x with drops := x.drops + 1 }))) ∧
    (fn < 2 → link < 28 → (q.open_ ≠ [] → exec (.bqcfgWrite fn link u) s = .next (taken (.bqcfgWrite fn link u) s)) ∧
      (s.flight.any (noticeOf link) = true → exec (.bqcfgWrite fn link u) s = .next (taken (.bqcfgWrite fn link u) s)) ∧
      (q.open_ = [] → s.flight.any (noticeOf link) = false → exec (.bqcfgWrite fn link u) s = .next { taken (.bqcfgWrite fn link u) s with mgmt := { s.mgmt with
        bq := tset s.mgmt.bq link { bs := bits u.toNat 2 0, p := bits u.toNat 31 16, base := bits u.toNat 95 64 } } })) ∧
    (owns s fn 0 = true → off + b.length ≤ 4096 →
      exec (.mailboxWrite fn off b) s = .next { taken (.mailboxWrite fn off b) s with sram := memPut s.sram (0x3F000 + off) b }) ∧
    (owns s fn 0 = true → (residentOf (Machine.core s nolornCore)).isSome = true → inboxRoom s nolornCore (residentSide s nolornCore) = true →
      exec (.nmboxDoorbell fn 1) s = .next (notify nolornCore (residentSide s nolornCore) (.msg 0 0) (taken (.nmboxDoorbell fn 1) s))) ∧
    (owns s fn 0 = false → exec (.mailboxWrite fn off b) s = .next (taken (.mailboxWrite fn off b) s)) ∧
    (owns s fn 0 = true → (residentOf (Machine.core s nolornCore) = none ∨ inboxRoom s nolornCore (residentSide s nolornCore) = false) →
      exec (.nmboxDoorbell fn 1) s = .next (send (.nmboxDoorbell (64 + fn) 1) (taken (.nmboxDoorbell fn 1) s))) ∧
    (owns s fn 0 = false → fn < 64 → exec (.nmboxDoorbell fn w) s = .next (taken (.nmboxDoorbell fn w) s)) ∧
    (owns s fn 3 = true → s.nolorn.fuse ≠ 7 →
      exec (.fwupdWrite fn v) s = .next { taken (.fwupdWrite fn v) s with mgmt := { s.mgmt with fwupd := v.toNat } }) ∧
    (owns s fn 3 = true → s.nolorn.fuse = 7 → exec (.fwupdWrite fn v) s = .next (taken (.fwupdWrite fn v) s)) ∧
    (fn < 64 → exec (.registerWrite fn 0x4020 v) s = .next (setFunc (taken (.registerWrite fn 0x4020 v) s) fn { x with crbase := v.toNat / 4096 * 4096 }) ∧
      exec (.registerWrite fn 0x4030 v) s = .next (setFunc (taken (.registerWrite fn 0x4030 v) s) fn { x with crhead := v.toNat }))

/-- R121, R215, R220, R318, R354, R355, R381 to R384: a correctable error is counted. A lost line or word reads as zero, without tags, and a
record says so, in the log of the context whose access found it, or in the management log; a lost register is zero. A resource past its
threshold is marked and taken out of service at its idle moment: a spare takes its place, or its number is mapped out. A lane is replaced by
the spare, or lost, and retraining ends. A CXL port's range goes and comes back. Two-phase routing is on where some link's count passes the
mean by the threshold.
Model choices: log entries 47, 84, 85, 86, 87, 121, 129. -/
def Obligations.ErrorSteps : Prop :=
  ∀ (s : State) (c d cls ix gb line addr kind l lane port u : Nat) (ns : List Nat), c ≤ 4208 → d < 4 →
    let n := errorCount s cls ix
    let b := bankAt s ix
    let k := link s l
    let x := die s d
    let k' := x.retiredCh.length + 1
    let lk (e : Event) (z : Link) (t : State → State) : Out := .next (t (setLink (taken e s) l z))
    (cls < 4 → exec (.eccCorrected cls ix) s = .next { taken (.eccCorrected cls ix) s with mgmt := { s.mgmt with
      cecnt := tset s.mgmt.cecnt (cls * 2 ^ 32 + ix) (s.elapsed / 2 ^ 30 * 2 ^ 32 + Nat.min (2 ^ 32 - 1) (n + 1)) } }) ∧
    (gb < 32768 → line < 256 → exec (.bankLineLoss gb line) s =
      (let t := taken (.bankLineLoss gb line) s
       .next (bankLoss gb line { t with bankMem := memPut t.bankMem (bankPlace gb (128 * line)) (List.replicate 128 0) }))) ∧
    (addr % 4 = 0 → addr < 65536 → exec (.istoreWordLoss c addr) s =
      (let t := taken (.istoreWordLoss c addr) s
       .next (lossRecord c false 1 addr { t with istore := memWrite t.istore (istoreAt c addr) 4 0 }))) ∧
    (2 ≤ kind → kind ≤ 4 → physOk s addr = true → ∀ (key : Nat) (sup : Bool),
      let y := homeWrite (taken (.homeLineLoss addr kind key) s) (addr / 128 * 128) (List.replicate 128 0)
      (key = 2 * c + (if sup then 1 else 0) → exec (.homeLineLoss addr kind key) s = .next (lossRecord c sup kind (addr / 128 * 128) y)) ∧
      (8418 ≤ key → exec (.homeLineLoss addr kind key) s = .next (countLoss kind (mgmtLog (record 0x60 false 0 0 0 0 0xFFFF
        (elapsedOn y (homeDie y (addr / 128 * 128))) (lossVal kind (addr / 128 * 128))) y)))) ∧
    (exec (.deviceStateLoss c 7 u) s =
      (let t := taken (.deviceStateLoss c 7 u) s
       let y := ctxOf s c (residentSide s c)
       .next (lossRecord c (residentSide s c) 7 u (setCtxOf t c (residentSide s c) { y with regs := tdel y.regs (u % 64) })))) ∧
    (overThreshold s 0 c = true → exec (.retirementMark 0 c) s =
      .next (send (.resourceRetire 0 c) (setCore (taken (.retirementMark 0 c) s) c { Machine.core s c with marked := true }))) ∧
    (overThreshold s 1 gb = true → gb < 32768 → exec (.retirementMark 1 gb) s =
      .next (send (.resourceRetire 1 gb) (setBank (taken (.retirementMark 1 gb) s) gb { bankAt s gb with marked := true }))) ∧
    (ix < 32768 → b.marked = true → (b.cond = .out ∨ (b.cond = .free ∧ isCommon s (ix / 512) (ix % 512) = false)) →
      exec (.resourceRetire 1 ix) s = .next (retireBank ix (taken (.resourceRetire 1 ix) s))) ∧
    (ix < 32768 → b.marked = true → (b.cond = .attached ∨ (b.cond = .free ∧ isCommon s (ix / 512) (ix % 512) = true)) →
      exec (.resourceRetire 1 ix) s = .next (send (.resourceRetire 1 ix) (taken (.resourceRetire 1 ix) s))) ∧
    (ix < 48 → x.markedCh.contains ix = true → x.retiredCh.contains ix = false → 16 * k' ≤ 48 - k' → exec (.channelRetire d ix) s =
      (let t := taken (.channelRetire d ix) s
       let t := logRetirement 2 (48 * d + ix) ((unreadable t d ix).foldl loseLine t)
       let n := (die t d).retiredCh.length + 2
       let t := setDie t d { die t d with retiredCh := (die t d).retiredCh ++ [ix], markedCh := sortedDel (die t d).markedCh ix }
       .next (if 48 - n < 16 * n then setReplace t else t))) ∧
    ((Machine.core s c).marked = true → residentOf (Machine.core s c) = none → (Machine.core s c).start = none → reservedCore s c = false →
      s.areas.any (fun p => p.2.1 == c) = false → exec (.resourceRetire 0 c) s = .next (retireCore c (taken (.resourceRetire 0 c) s))) ∧
    (l < 16 → lane < 8 →
      (k.spare = true → exec (.laneSpareSwap l lane) s = lk (.laneSpareSwap l lane) { k with spare := false, retraining := true }
        (fun t => send (.laneRetrainDone l) (setReplace (logRetirement 3 (16 * l + lane) t)))) ∧
      (k.spare = false → exec (.laneLost l lane) s = lk (.laneLost l lane) { k with lanes := 7 } (logRetirement 3 (16 * l + lane))) ∧
      exec (.laneRetrainDone l) s = lk (.laneRetrainDone l) { k with retraining := false } id) ∧
    (port < 2 →
      exec (.cxlLinkDown port) s = .next { taken (.cxlLinkDown port) s with mgmt := { s.mgmt with cxlDown := sortedAdd s.mgmt.cxlDown port } } ∧
      exec (.cxlLinkRetrain port) s = .next { taken (.cxlLinkRetrain port) s with mgmt := { s.mgmt with cxlDown := sortedDel s.mgmt.cxlDown port } }) ∧
    (exec (.twoPhaseRoutingWindow d ns) s = .next (setDie (taken (.twoPhaseRoutingWindow d ns) s) d { x with
      twoPhase := x.netEn && ns.any fun n => decide (ns.sum + x.netThr * ns.length ≤ n * ns.length ∧ ns.sum < n * ns.length) }))

/-- R139, R150, R362, R363, R366, R369 to R373, R386, R387: an open debug port halts a user context at its boundary with REASON 1, lets a
halted one go on, or issue one instruction, as after an IFENCE, and patches the instruction stores of powered cores. The encoder's oldest
record goes to its buffer. A write that names several stores is one to each. A pulse writes into the Dusk ring the record of every core's
latched state. A write of a special register by itself takes the register's rule; the oldest bank write record and a fresh nonce go to a
register; a fuse that is being blown holds its new value when its time is over.
Model choices: log entries 17, 69, 71. -/
def Obligations.DebugSteps : Prop :=
  ∀ (s : State) (c addr : Nat) (cs : List Nat) (w : BitVec 32) (v : Word) (d : BitVec 6) (r : BitVec 64) (rs : List (BitVec 64)) (t : State) (f n : Nat)
    (fs : List (Nat × Nat)),
    let k := Machine.core s c
    let u := k.user
    let sup := onSup s
    let on (e : Event) (h : Nat) : Prop := specialWrite h v.toNat (taken e s) = some t → exec e.instr s = .next t
    (c ≤ 4208 → portOpen s = true → k.uload = true →
      (k.killing = false → u.dbg.halted = false → taken_ (taken (.debugHaltRequest c) s) u = false →
        exec (.debugHaltRequest c) s = .next (haltUser c 1 0 (withdraw c false (wakeCore c (taken (.debugHaltRequest c) s))))) ∧
      (u.dbg.halted = true →
        let go (t : State) (step : Bool) : State :=
          let z := settle c (wakeCore c t)
          let y := (Machine.core z c).user
          setCore z c { Machine.core z c with user := { y with
            stale := [], reps := y.reps.map (fun r => { r with body := [] }), dbg := { y.dbg with halted := false, step := step, grace := true } } }
        exec (.debugRelease c) s = .next (go (taken (.debugRelease c) s) false) ∧
        exec (.debugStep c) s = .next (go (taken (.debugStep c) s) true))) ∧
    (let e : Event := .debugPatchWrite [c] addr w
     c ≤ 4208 → portOpen s = true →
      (k.power = .on → exec (.debugPatchWrite [c] addr w) s = .next (writeStore c (addr / 4 * 4) w (taken e s))) ∧
      (k.power ≠ .on → exec (.debugPatchWrite [c] addr w) s = .next (send e (wakeCore c (taken e s))))) ∧
    (cs.all isCore = true → portOpen s = true → cs.length ≠ 1 → exec (.debugPatchWrite cs addr w) s =
      .next (cs.foldl (fun s m => send (.debugPatchWrite [m] addr w) s) (taken (.debugPatchWrite cs addr w) s))) ∧
    (c ≤ 4208 → u.dbg.enc = r :: rs →
      exec (.traceRecordWrite c r) s = .next (traceHead c false (taken (.traceRecordWrite c r) s))) ∧
    (let z := duskWrite (duskRecord (taken .duskPulse s)) (taken .duskPulse s)
     s.mgmt.duskBusy = false → ∃ t, exec .duskPulse s = .next t ∧ t.mem = z.mem ∧ t.tags = z.tags ∧ t.mgmt = { z.mgmt with duskBusy := true }) ∧
    (s.mgmt.duskPeriod ≠ 0 → s.mgmt.duskAt ≤ s.elapsed → exec .duskPeriodExpiry s = (let t := taken .duskPeriodExpiry s
      .next (send .duskPeriodExpiry (pulse { t with mgmt := { t.mgmt with duskAt := t.mgmt.duskAt + t.mgmt.duskPeriod } })))) ∧
    (s.mgmt.duskPeriod ≠ 0 → s.elapsed < s.mgmt.duskAt → exec .duskPeriodExpiry s = .next s) ∧
    (on (.bwtcWrite v) 0x230 ∧ (sup = true → on (.trctlWrite v) 0x210 ∧ on (.dtentWrite v) 0x32) ∧ (rstoBusy (curCore s) = false → on (.rseedWrite v) 3)) ∧
    (s.cur = nolornCore → sup = true → on (.dbgopenWrite v) 0x310 ∧ on (.fuseWrite v) 0x300) ∧
    (exec (.bwtrRead d) s = .next (putNat d (specialRead 0x231 s) (specialTake 0x231 (taken (.bwtrRead d) s)))) ∧
    (s.cur = nolornCore → sup = true →
      exec (.nonceDraw d) s = .next (putNat d (specialRead 0x312 s) (specialTake 0x312 (taken (.nonceDraw d) s)))) ∧
    (s.nolorn.blowing = (f, n) :: fs → n ≤ s.elapsed → exec .fuseBlowDone s =
      .next { taken .fuseBlowDone s with nolorn := { s.nolorn with fuse := Nat.max s.nolorn.fuse f, blowing := fs } }) ∧
    (s.nolorn.blowing = (f, n) :: fs → s.elapsed < n → exec .fuseBlowDone s = .next s)

/-! ## Reset, decoding and the step -/

namespace Sys2Proof.Claims

open Sys2Proof.Machine

/-- The words of row 0x11 of the opcode map, which only the Nolorn core decodes (R144). -/
def securityWord : Instr → Bool
  | .shash .. | .sverf .. | .ssign .. | .scryp .. | .scrypDec .. | .skey .. | .skeyWipe .. | .smext .. => true
  | _ => false

end Sys2Proof.Claims

open Sys2Proof Sys2Proof.Machine Sys2Proof.Claims

/-- R120, R147, R188, R318, R334: right after reset nothing runs: no launch, no image, no message; every context has its registers zero without
tags, its streams and masks unbound, its guards free, its queues empty, and no exception recorded; %tvec is 0, LIM 0x1_0000, CPOOL 0, THR 0x100
with EN set; and every memory is in its canonical form. (That LCS.FUSE is 3 is the model's choice, entry 1, and not stated.)
Model choices: log entry 2. -/
def Obligations.ResetState : Prop :=
  ∀ c d cl n : Nat,
    let s := State.reset
    let k := Machine.core s c
    let fresh (x : Ctx) : Prop := reg x n = { val := 0, tag := false } ∧ x.streams = [] ∧ x.masks = [] ∧ x.guards = [] ∧ x.cells = [] ∧ x.ports = [] ∧
      x.vq = [] ∧ x.mq = [] ∧ x.cq = [] ∧ x.acct = [] ∧ x.attach = [] ∧ x.inbox = [] ∧ x.tx = none
    memoriesWf s = true ∧ s.agenda = [] ∧ s.inputs = [] ∧ s.flight = [] ∧ s.accesses = [] ∧ fresh k.user ∧ fresh k.sup ∧
      k.supOn = false ∧ k.uload = false ∧ k.udisp = false ∧ k.pendT = false ∧ k.spend = false ∧
      k.tvec = 0 ∧ k.tcause = 0 ∧ k.tpc = 0 ∧ k.tval = 0 ∧ k.stcause = 0 ∧ k.stpc = 0 ∧ k.stval = 0 ∧ k.tlim = 0x10000 ∧
      (die s d).launches = [] ∧ (die s d).insts = [] ∧ (die s d).images = [] ∧ (die s d).queues = [] ∧ (die s d).netThr = 0x100 ∧ (die s d).netEn = true ∧
      (cluster s cl).en = false ∧ (cluster s cl).cbl = 0 ∧ (cluster s cl).owner = 0 ∧ (cluster s cl).werr = false

/-- For every instruction with an encoding, at every value of its fields that the spec does not reserve, decoding its word gives it back: on the
Nolorn core every one, elsewhere every one but the security instructions, which are illegal there (R144).
A word that decodes, in any context and behind any hint, is the word of the instruction that it decodes to, whose fields hold no reserved
value: no word stands for two instructions, and a bit that an encoding reserves is not ignored (R132, R141). -/
def Obligations.DecodeAndEncodeAgree : Prop :=
  (∀ (nolorn : Bool) (i : Instr) (w : Nat), encodeNat i = some w → i.wf nolorn = true →
      (nolorn = true ∨ securityWord i = false → decode nolorn false .none w = .ok i) ∧
      (nolorn = false → securityWord i = true → decode nolorn false .none w = .illegal)) ∧
  (∀ (nolorn user : Bool) (h : Hint) (i : Instr) (w : Nat), decode nolorn user h w = .ok i → encodeNat i = some w ∧ i.wf nolorn = true)

/-- Words written out from the formats of R130 and the encodings of R150, R164, R170, R180, R337, R338 and R389. -/
def Obligations.DecodedWords : Prop :=
  decode false false .none 0x04104080 = .ok (.add 16 16 8 0) ∧ decode false false .none 0x00C3FFFF = .ok (.ldi 3 0xFFFF) ∧
    decode false false .none 0x01C00005 = .ok (.trap 0 5) ∧ decode false true .none 0x02000000 = .privileged ∧
    decode false false .none 0x02000001 = .ok .tretK ∧ decode false false .none 0x02000003 = .reserved ∧
    decode false false .none 0x16C00400 = .ok (.rep 0 4 0 0) ∧ decode false false .none 0x16C10400 = .reserved ∧ decode false false .none 0x44031050 = .illegal ∧
    decode true false .none 0x44031050 = .ok (.shash 3 4 5)

/-- R124, R135 to R141: with nothing else to come next, one step is the current core's sequencer: where its turn comes to an instruction, it is
`exec` of that instruction, what follows a word, the plan of what comes next, and the time that passes. In the context that issues on a powered
core, the supervisor or a user context alone on its instance, at a boundary, with nothing that stands before the word, the turn comes to the
instruction that the word at the program counter decodes to, in the state as it was but for the word being the one in issue. An event that is to
come next is `exec` of its row, and what the outside world does comes before either.
Model choices: log entries 4, 11. -/
def Obligations.StepRunsDecodedInstruction : Prop :=
  ∀ (s s1 : State) (i : Instr) (e : Event) (r : List Event) (j : Input) (js : List Input),
    let k := Machine.core s s.cur
    let run (i : Instr) (s1 : State) : Out := match exec i s1 with | .next t => .next (elapse (plan (afterIssue s1 t))) | o => o
    (s.inputs = [] → s.agenda = [] → prepare s = .run i s1 → step s = run i s1) ∧
    (∀ sup : Bool,
      let x := ctxOf s s.cur sup
      let w := storeWord s s.cur x.pc
      s.inputs = [] → s.agenda = [] → s.order = [] → coreStopped s = false → k.power = .on → k.supOn = sup →
      (if sup then supIssues k else userIssues k) = true → (if sup then k.smap else k.umap) = false → k.smapOld = none → k.fwd = none →
      accountsFull s = false → x.role = .single → x.tx = none → x.waiting = none → x.imprecise = [] → x.dbg.ibp = [] → x.reps = [] → x.stale = [] →
      x.pend = [] → decode (decide (s.cur = nolornCore)) (!sup) x.hint w.toNat = .ok i →
      step s = run i (setCtxOf (setCore s s.cur { k with issued := false }) s.cur sup { x with word := w, op := w.toNat / 2 ^ 22 })) ∧
    (s.inputs = [] → s.agenda = e :: r →
      step s = match exec e.instr { s with agenda := r } with | .next t => .next (elapse t) | o => o) ∧
    (s.inputs = j :: js → step s = .next (elapse (takeInput j { s with inputs := js })))

/-- Whatever a step does, from any state whose memories are in their canonical form, the memories stay in it: addresses strictly rising, and no
byte listed that an unlisted address reads as; so equal memories are equal data, and a read after a write is well defined. -/
def Obligations.StepKeepsMemoriesCanonical : Prop :=
  ∀ s t : State, memoriesWf s = true → step s = .next t → memoriesWf t = true
end

