-- ==== Sys2Proof/Laws/Tables.lean ====
section
/-! SUPPORT. Laws of the sparse tables, and of the canonical memory: read after write, other addresses, and the form that writes keep. -/

namespace Sys2Proof.Machine

/-! ## Tables -/

@[simp] theorem tget_tset_same {α : Type} (l : AList α) (i : Nat) (v d : α) : tget (tset l i v) i d = v := by
  induction l with
  | nil => simp [tset, tget]
  | cons p t ih =>
    obtain ⟨k, w⟩ := p
    simp only [tset]
    split
    · simp [tget]
    · split
      · simp [tget]
      · simp [tget, *]

theorem tget_tset_ne {α : Type} (l : AList α) {i j : Nat} (h : i ≠ j) (v d : α) : tget (tset l i v) j d = tget l j d := by
  induction l with
  | nil => simp [tset, tget, h]
  | cons p t ih =>
    obtain ⟨k, w⟩ := p
    simp only [tset]
    split
    · subst k; simp [tget, h]
    · split
      · simp [tget, h]
      · simp only [tget, ih]

theorem tget_tset {α : Type} (l : AList α) (i j : Nat) (v d : α) : tget (tset l i v) j d = if i = j then v else tget l j d := by
  split
  · subst j; simp
  · exact tget_tset_ne l ‹_› v d

@[simp] theorem tset_tset {α : Type} (l : AList α) (i : Nat) (v w : α) : tset (tset l i v) i w = tset l i w := by
  induction l with
  | nil => simp [tset]
  | cons p t ih =>
    obtain ⟨k, x⟩ := p
    simp only [tset]
    split
    · simp [tset]
    · split
      · simp [tset]
      · simp [tset, *]

theorem tget_tdel {α : Type} (l : AList α) (i j : Nat) (d : α) : tget (tdel l i) j d = if i = j then d else tget l j d := by
  induction l with
  | nil => simp [tdel, tget]
  | cons p t ih =>
    obtain ⟨k, x⟩ := p
    simp only [tdel]
    split
    · subst k; rw [ih]; split
      · rfl
      · simp [tget, *]
    · rename_i hk
      simp only [tget, ih]
      split
      · subst k; rw [if_neg (fun h => hk h.symm)]
      · rfl

theorem tset_map {α β : Type} (f : α → β) (l : AList α) (i : Nat) (v : α) :
    (tset l i v).map (fun p => (p.1, f p.2)) = tset (l.map fun p => (p.1, f p.2)) i (f v) := by
  induction l with
  | nil => simp [tset]
  | cons p t ih =>
    obtain ⟨k, x⟩ := p
    simp only [tset, List.map_cons]
    split
    · simp
    · split
      · simp
      · simp [ih]

/-! ## One byte of memory -/

theorem memGet_memSet_same (m : List Host.Cell) (a : Nat) (b : Byte) (lo : Nat) (h : Memory.wfFrom lo m = true) :
    memGet (memSet m a b) a = b := by
  induction m generalizing lo with
  | nil => simp only [memSet]; split <;> simp [memGet, *]
  | cons p t ih =>
    obtain ⟨k, v⟩ := p
    simp only [Memory.wfFrom, Bool.and_eq_true, decide_eq_true_eq] at h
    have absent : ∀ (t : List Host.Cell) (lo : Nat), a < lo → Memory.wfFrom lo t = true → memGet t a = 0 := by
      intro t
      induction t with
      | nil => intros; rfl
      | cons q t ih =>
        intro lo ha hw
        obtain ⟨k, v⟩ := q
        simp only [Memory.wfFrom, Bool.and_eq_true, decide_eq_true_eq] at hw
        have : k ≠ a := by omega
        simp only [memGet, this, if_false]
        exact ih (k + 1) (by omega) hw.2
    simp only [memSet]
    split
    · subst k
      split
      · next hb => rw [hb]; exact absent t (a + 1) (by omega) h.2
      · simp [memGet]
    · split
      · split
        · next hk ha hb =>
          rw [hb]; simp only [memGet, hk, if_false]; exact absent t (k + 1) (by omega) h.2
        · simp [memGet]
      · next hk ha => simp only [memGet, hk, if_false]; exact ih (k + 1) h.2

theorem memGet_memSet_ne (m : List Host.Cell) {a a' : Nat} (hne : a ≠ a') (b : Byte) : memGet (memSet m a b) a' = memGet m a' := by
  induction m with
  | nil => simp only [memSet]; split <;> simp [memGet, hne]
  | cons p t ih =>
    obtain ⟨k, v⟩ := p
    simp only [memSet]
    split
    · subst k; split <;> simp [memGet, hne]
    · split
      · split <;> simp [memGet, hne]
      · simp only [memGet, ih]

theorem memSet_wfFrom (m : List Host.Cell) (a : Nat) (b : Byte) (lo : Nat) (ha : lo ≤ a) (h : Memory.wfFrom lo m = true) :
    Memory.wfFrom lo (memSet m a b) = true := by
  induction m generalizing lo with
  | nil =>
    simp only [memSet]
    split
    · rfl
    · next hb => simp only [Memory.wfFrom, Bool.and_eq_true, decide_eq_true_eq]; exact ⟨⟨ha, hb⟩, trivial⟩
  | cons p t ih =>
    obtain ⟨k, v⟩ := p
    have weaken : ∀ (t : List Host.Cell) (x y : Nat), x ≤ y → Memory.wfFrom y t = true → Memory.wfFrom x t = true := by
      intro t x y hxy hw
      cases t with
      | nil => rfl
      | cons q t =>
        simp only [Memory.wfFrom, Bool.and_eq_true, decide_eq_true_eq] at hw ⊢
        exact ⟨⟨by omega, hw.1.2⟩, hw.2⟩
    simp only [Memory.wfFrom, Bool.and_eq_true, decide_eq_true_eq] at h
    simp only [memSet]
    split
    · subst k
      split
      · exact weaken t lo (a + 1) (by omega) h.2
      · simp only [Memory.wfFrom, Bool.and_eq_true, decide_eq_true_eq]; exact ⟨⟨ha, ‹_›⟩, h.2⟩
    · split
      · split
        · simp only [Memory.wfFrom, Bool.and_eq_true, decide_eq_true_eq]; exact h
        · simp only [Memory.wfFrom, Bool.and_eq_true, decide_eq_true_eq]
          exact ⟨⟨ha, ‹_›⟩, ⟨by omega, h.1.2⟩, h.2⟩
      · simp only [Memory.wfFrom, Bool.and_eq_true, decide_eq_true_eq]
        exact ⟨h.1, ih (k + 1) (by omega) h.2⟩

/-! ## Memory as a whole -/

theorem memSet_wf (m : List Host.Cell) (a : Nat) (b : Byte) (h : Memory.wf m = true) : Memory.wf (memSet m a b) = true :=
  memSet_wfFrom m a b 0 (Nat.zero_le a) h

theorem memPut_wf (m : List Host.Cell) (a : Nat) (l : List Byte) (h : Memory.wf m = true) : Memory.wf (memPut m a l) = true := by
  induction l generalizing m a with
  | nil => exact h
  | cons b t ih => exact ih _ _ (memSet_wf m a b h)

theorem memWrite_wf (m : List Host.Cell) (a n v : Nat) (h : Memory.wf m = true) : Memory.wf (memWrite m a n v) = true :=
  memPut_wf m a _ h

theorem memGet_memSet (m : List Host.Cell) (a a' : Nat) (b : Byte) (h : Memory.wf m = true) :
    memGet (memSet m a b) a' = if a = a' then b else memGet m a' := by
  split
  · subst a'; exact memGet_memSet_same m a b 0 h
  · exact memGet_memSet_ne m ‹_› b

theorem memGet_memPut (m : List Host.Cell) (a a' : Nat) (l : List Byte) (h : Memory.wf m = true) :
    memGet (memPut m a l) a' = if a ≤ a' ∧ a' < a + l.length then l.getD (a' - a) 0 else memGet m a' := by
  induction l generalizing m a with
  | nil => simp [memPut]
  | cons b t ih =>
    simp only [memPut, List.length_cons]
    rw [ih _ _ (memSet_wf m a b h), memGet_memSet m a a' b h]
    rcases Nat.lt_trichotomy a a' with hlt | heq | hgt
    · by_cases hin : a' < a + 1 + t.length
      · rw [if_pos ⟨hlt, hin⟩, if_pos ⟨by omega, by omega⟩]
        have : a' - a = (a' - (a + 1)) + 1 := by omega
        rw [this]; simp
      · rw [if_neg (by omega), if_neg (by omega), if_neg (by omega)]
    · subst heq
      rw [if_neg (by omega), if_pos rfl, if_pos ⟨Nat.le_refl a, by omega⟩]; simp
    · rw [if_neg (by omega), if_neg (by omega), if_neg (by omega)]

@[simp] theorem toBytes_length (n v : Nat) : (toBytes n v).length = n := by
  induction n generalizing v with
  | zero => rfl
  | succ n ih => simp [toBytes, ih]

@[simp] theorem memBytes_length (m : List Host.Cell) (a n : Nat) : (memBytes m a n).length = n := by
  induction n generalizing a with
  | zero => rfl
  | succ n ih => simp [memBytes, ih]

theorem memBytes_memPut (m : List Host.Cell) (a : Nat) (l : List Byte) (h : Memory.wf m = true) :
    memBytes (memPut m a l) a l.length = l := by
  have go : ∀ (l1 l2 : List Byte), memBytes (memPut m a (l1 ++ l2)) (a + l1.length) l2.length = l2 := by
    intro l1 l2
    induction l2 generalizing l1 with
    | nil => rfl
    | cons b t ih =>
      have hb := memGet_memPut m a (a + l1.length) (l1 ++ b :: t) h
      rw [if_pos ⟨by omega, by simp⟩] at hb
      have hi := ih (l1 ++ [b])
      simp only [List.append_assoc, List.singleton_append, List.length_append, List.length_singleton] at hi
      simp only [memBytes, List.length_cons, hb]
      rw [Nat.add_assoc, hi]
      simp
  simpa using go [] l

theorem ofBytes_toBytes (n v : Nat) : ofBytes (toBytes n v) = v % 256 ^ n := by
  induction n generalizing v with
  | zero => simp [toBytes, ofBytes, Nat.mod_one]
  | succ n ih =>
    have h : 256 ^ (n + 1) = 256 * 256 ^ n := by rw [Nat.pow_succ, Nat.mul_comm]
    simp only [toBytes, ofBytes, ih, BitVec.toNat_ofNat]
    rw [h, Nat.mod_mul]

/-- Reading back what was written gives it (modulo its width). -/
theorem memRead_memWrite (m : List Host.Cell) (a n v : Nat) (h : Memory.wf m = true) : memRead (memWrite m a n v) a n = v % 256 ^ n := by
  have := memBytes_memPut m a (toBytes n v) h
  rw [toBytes_length] at this
  rw [memRead, memWrite, this, ofBytes_toBytes]

end Sys2Proof.Machine
end

