-- ==== Sys2Proof/Laws/State.lean ====
section
/-! SUPPORT. One lemma for each field of State under each shared update of it, and what the readers of cores, contexts and registers give
after the updates. -/

namespace Sys2Proof.Machine

/-! ## Fields that an update leaves alone -/

@[simp] theorem setCore_agenda (s : State) (c : Nat) (k : Core) : (setCore s c k).agenda = s.agenda := rfl
@[simp] theorem setCore_inputs (s : State) (c : Nat) (k : Core) : (setCore s c k).inputs = s.inputs := rfl
@[simp] theorem setCore_flight (s : State) (c : Nat) (k : Core) : (setCore s c k).flight = s.flight := rfl
@[simp] theorem setCore_cur (s : State) (c : Nat) (k : Core) : (setCore s c k).cur = s.cur := rfl
@[simp] theorem setCore_order (s : State) (c : Nat) (k : Core) : (setCore s c k).order = s.order := rfl
@[simp] theorem setCore_tick (s : State) (c : Nat) (k : Core) : (setCore s c k).tick = s.tick := rfl
@[simp] theorem setCore_nextId (s : State) (c : Nat) (k : Core) : (setCore s c k).nextId = s.nextId := rfl
@[simp] theorem setCore_elapsed (s : State) (c : Nat) (k : Core) : (setCore s c k).elapsed = s.elapsed := rfl
@[simp] theorem setCore_istore (s : State) (c : Nat) (k : Core) : (setCore s c k).istore = s.istore := rfl
@[simp] theorem setCore_bankMem (s : State) (c : Nat) (k : Core) : (setCore s c k).bankMem = s.bankMem := rfl
@[simp] theorem setCore_mem (s : State) (c : Nat) (k : Core) : (setCore s c k).mem = s.mem := rfl
@[simp] theorem setCore_sram (s : State) (c : Nat) (k : Core) : (setCore s c k).sram = s.sram := rfl
@[simp] theorem setCore_tags (s : State) (c : Nat) (k : Core) : (setCore s c k).tags = s.tags := rfl
@[simp] theorem setCore_banks (s : State) (c : Nat) (k : Core) : (setCore s c k).banks = s.banks := rfl
@[simp] theorem setCore_clusters (s : State) (c : Nat) (k : Core) : (setCore s c k).clusters = s.clusters := rfl
@[simp] theorem setCore_barriers (s : State) (c : Nat) (k : Core) : (setCore s c k).barriers = s.barriers := rfl
@[simp] theorem setCore_accesses (s : State) (c : Nat) (k : Core) : (setCore s c k).accesses = s.accesses := rfl
@[simp] theorem setCore_locClock (s : State) (c : Nat) (k : Core) : (setCore s c k).locClock = s.locClock := rfl
@[simp] theorem setCore_walks (s : State) (c : Nat) (k : Core) : (setCore s c k).walks = s.walks := rfl
@[simp] theorem setCore_walkCache (s : State) (c : Nat) (k : Core) : (setCore s c k).walkCache = s.walkCache := rfl
@[simp] theorem setCore_dies (s : State) (c : Nat) (k : Core) : (setCore s c k).dies = s.dies := rfl
@[simp] theorem setCore_funcs (s : State) (c : Nat) (k : Core) : (setCore s c k).funcs = s.funcs := rfl
@[simp] theorem setCore_areas (s : State) (c : Nat) (k : Core) : (setCore s c k).areas = s.areas := rfl
@[simp] theorem setCore_mgmt (s : State) (c : Nat) (k : Core) : (setCore s c k).mgmt = s.mgmt := rfl
@[simp] theorem setCore_nolorn (s : State) (c : Nat) (k : Core) : (setCore s c k).nolorn = s.nolorn := rfl

@[simp] theorem setDie_agenda (s : State) (d : Nat) (x : Die) : (setDie s d x).agenda = s.agenda := rfl
@[simp] theorem setDie_inputs (s : State) (d : Nat) (x : Die) : (setDie s d x).inputs = s.inputs := rfl
@[simp] theorem setDie_flight (s : State) (d : Nat) (x : Die) : (setDie s d x).flight = s.flight := rfl
@[simp] theorem setDie_cur (s : State) (d : Nat) (x : Die) : (setDie s d x).cur = s.cur := rfl
@[simp] theorem setDie_order (s : State) (d : Nat) (x : Die) : (setDie s d x).order = s.order := rfl
@[simp] theorem setDie_tick (s : State) (d : Nat) (x : Die) : (setDie s d x).tick = s.tick := rfl
@[simp] theorem setDie_nextId (s : State) (d : Nat) (x : Die) : (setDie s d x).nextId = s.nextId := rfl
@[simp] theorem setDie_elapsed (s : State) (d : Nat) (x : Die) : (setDie s d x).elapsed = s.elapsed := rfl
@[simp] theorem setDie_cores (s : State) (d : Nat) (x : Die) : (setDie s d x).cores = s.cores := rfl
@[simp] theorem setDie_istore (s : State) (d : Nat) (x : Die) : (setDie s d x).istore = s.istore := rfl
@[simp] theorem setDie_bankMem (s : State) (d : Nat) (x : Die) : (setDie s d x).bankMem = s.bankMem := rfl
@[simp] theorem setDie_mem (s : State) (d : Nat) (x : Die) : (setDie s d x).mem = s.mem := rfl
@[simp] theorem setDie_sram (s : State) (d : Nat) (x : Die) : (setDie s d x).sram = s.sram := rfl
@[simp] theorem setDie_tags (s : State) (d : Nat) (x : Die) : (setDie s d x).tags = s.tags := rfl
@[simp] theorem setDie_banks (s : State) (d : Nat) (x : Die) : (setDie s d x).banks = s.banks := rfl
@[simp] theorem setDie_clusters (s : State) (d : Nat) (x : Die) : (setDie s d x).clusters = s.clusters := rfl
@[simp] theorem setDie_barriers (s : State) (d : Nat) (x : Die) : (setDie s d x).barriers = s.barriers := rfl
@[simp] theorem setDie_accesses (s : State) (d : Nat) (x : Die) : (setDie s d x).accesses = s.accesses := rfl
@[simp] theorem setDie_locClock (s : State) (d : Nat) (x : Die) : (setDie s d x).locClock = s.locClock := rfl
@[simp] theorem setDie_walks (s : State) (d : Nat) (x : Die) : (setDie s d x).walks = s.walks := rfl
@[simp] theorem setDie_walkCache (s : State) (d : Nat) (x : Die) : (setDie s d x).walkCache = s.walkCache := rfl
@[simp] theorem setDie_funcs (s : State) (d : Nat) (x : Die) : (setDie s d x).funcs = s.funcs := rfl
@[simp] theorem setDie_areas (s : State) (d : Nat) (x : Die) : (setDie s d x).areas = s.areas := rfl
@[simp] theorem setDie_mgmt (s : State) (d : Nat) (x : Die) : (setDie s d x).mgmt = s.mgmt := rfl
@[simp] theorem setDie_nolorn (s : State) (d : Nat) (x : Die) : (setDie s d x).nolorn = s.nolorn := rfl

@[simp] theorem setFunc_agenda (s : State) (f : Nat) (x : Func) : (setFunc s f x).agenda = s.agenda := rfl
@[simp] theorem setFunc_inputs (s : State) (f : Nat) (x : Func) : (setFunc s f x).inputs = s.inputs := rfl
@[simp] theorem setFunc_flight (s : State) (f : Nat) (x : Func) : (setFunc s f x).flight = s.flight := rfl
@[simp] theorem setFunc_cur (s : State) (f : Nat) (x : Func) : (setFunc s f x).cur = s.cur := rfl
@[simp] theorem setFunc_order (s : State) (f : Nat) (x : Func) : (setFunc s f x).order = s.order := rfl
@[simp] theorem setFunc_tick (s : State) (f : Nat) (x : Func) : (setFunc s f x).tick = s.tick := rfl
@[simp] theorem setFunc_nextId (s : State) (f : Nat) (x : Func) : (setFunc s f x).nextId = s.nextId := rfl
@[simp] theorem setFunc_elapsed (s : State) (f : Nat) (x : Func) : (setFunc s f x).elapsed = s.elapsed := rfl
@[simp] theorem setFunc_cores (s : State) (f : Nat) (x : Func) : (setFunc s f x).cores = s.cores := rfl
@[simp] theorem setFunc_istore (s : State) (f : Nat) (x : Func) : (setFunc s f x).istore = s.istore := rfl
@[simp] theorem setFunc_bankMem (s : State) (f : Nat) (x : Func) : (setFunc s f x).bankMem = s.bankMem := rfl
@[simp] theorem setFunc_mem (s : State) (f : Nat) (x : Func) : (setFunc s f x).mem = s.mem := rfl
@[simp] theorem setFunc_sram (s : State) (f : Nat) (x : Func) : (setFunc s f x).sram = s.sram := rfl
@[simp] theorem setFunc_tags (s : State) (f : Nat) (x : Func) : (setFunc s f x).tags = s.tags := rfl
@[simp] theorem setFunc_banks (s : State) (f : Nat) (x : Func) : (setFunc s f x).banks = s.banks := rfl
@[simp] theorem setFunc_clusters (s : State) (f : Nat) (x : Func) : (setFunc s f x).clusters = s.clusters := rfl
@[simp] theorem setFunc_barriers (s : State) (f : Nat) (x : Func) : (setFunc s f x).barriers = s.barriers := rfl
@[simp] theorem setFunc_accesses (s : State) (f : Nat) (x : Func) : (setFunc s f x).accesses = s.accesses := rfl
@[simp] theorem setFunc_locClock (s : State) (f : Nat) (x : Func) : (setFunc s f x).locClock = s.locClock := rfl
@[simp] theorem setFunc_walks (s : State) (f : Nat) (x : Func) : (setFunc s f x).walks = s.walks := rfl
@[simp] theorem setFunc_walkCache (s : State) (f : Nat) (x : Func) : (setFunc s f x).walkCache = s.walkCache := rfl
@[simp] theorem setFunc_dies (s : State) (f : Nat) (x : Func) : (setFunc s f x).dies = s.dies := rfl
@[simp] theorem setFunc_areas (s : State) (f : Nat) (x : Func) : (setFunc s f x).areas = s.areas := rfl
@[simp] theorem setFunc_mgmt (s : State) (f : Nat) (x : Func) : (setFunc s f x).mgmt = s.mgmt := rfl
@[simp] theorem setFunc_nolorn (s : State) (f : Nat) (x : Func) : (setFunc s f x).nolorn = s.nolorn := rfl

@[simp] theorem send_agenda (s : State) (e : Event) : (send e s).agenda = s.agenda := rfl
@[simp] theorem send_inputs (s : State) (e : Event) : (send e s).inputs = s.inputs := rfl
@[simp] theorem send_cur (s : State) (e : Event) : (send e s).cur = s.cur := rfl
@[simp] theorem send_order (s : State) (e : Event) : (send e s).order = s.order := rfl
@[simp] theorem send_tick (s : State) (e : Event) : (send e s).tick = s.tick := rfl
@[simp] theorem send_nextId (s : State) (e : Event) : (send e s).nextId = s.nextId := rfl
@[simp] theorem send_elapsed (s : State) (e : Event) : (send e s).elapsed = s.elapsed := rfl
@[simp] theorem send_cores (s : State) (e : Event) : (send e s).cores = s.cores := rfl
@[simp] theorem send_istore (s : State) (e : Event) : (send e s).istore = s.istore := rfl
@[simp] theorem send_bankMem (s : State) (e : Event) : (send e s).bankMem = s.bankMem := rfl
@[simp] theorem send_mem (s : State) (e : Event) : (send e s).mem = s.mem := rfl
@[simp] theorem send_sram (s : State) (e : Event) : (send e s).sram = s.sram := rfl
@[simp] theorem send_tags (s : State) (e : Event) : (send e s).tags = s.tags := rfl
@[simp] theorem send_banks (s : State) (e : Event) : (send e s).banks = s.banks := rfl
@[simp] theorem send_clusters (s : State) (e : Event) : (send e s).clusters = s.clusters := rfl
@[simp] theorem send_barriers (s : State) (e : Event) : (send e s).barriers = s.barriers := rfl
@[simp] theorem send_accesses (s : State) (e : Event) : (send e s).accesses = s.accesses := rfl
@[simp] theorem send_locClock (s : State) (e : Event) : (send e s).locClock = s.locClock := rfl
@[simp] theorem send_walks (s : State) (e : Event) : (send e s).walks = s.walks := rfl
@[simp] theorem send_walkCache (s : State) (e : Event) : (send e s).walkCache = s.walkCache := rfl
@[simp] theorem send_dies (s : State) (e : Event) : (send e s).dies = s.dies := rfl
@[simp] theorem send_funcs (s : State) (e : Event) : (send e s).funcs = s.funcs := rfl
@[simp] theorem send_areas (s : State) (e : Event) : (send e s).areas = s.areas := rfl
@[simp] theorem send_mgmt (s : State) (e : Event) : (send e s).mgmt = s.mgmt := rfl
@[simp] theorem send_nolorn (s : State) (e : Event) : (send e s).nolorn = s.nolorn := rfl

@[simp] theorem taken_agenda (s : State) (e : Event) : (taken e s).agenda = s.agenda := rfl
@[simp] theorem taken_inputs (s : State) (e : Event) : (taken e s).inputs = s.inputs := rfl
@[simp] theorem taken_cur (s : State) (e : Event) : (taken e s).cur = s.cur := rfl
@[simp] theorem taken_order (s : State) (e : Event) : (taken e s).order = s.order := rfl
@[simp] theorem taken_tick (s : State) (e : Event) : (taken e s).tick = s.tick := rfl
@[simp] theorem taken_nextId (s : State) (e : Event) : (taken e s).nextId = s.nextId := rfl
@[simp] theorem taken_elapsed (s : State) (e : Event) : (taken e s).elapsed = s.elapsed := rfl
@[simp] theorem taken_cores (s : State) (e : Event) : (taken e s).cores = s.cores := rfl
@[simp] theorem taken_istore (s : State) (e : Event) : (taken e s).istore = s.istore := rfl
@[simp] theorem taken_bankMem (s : State) (e : Event) : (taken e s).bankMem = s.bankMem := rfl
@[simp] theorem taken_mem (s : State) (e : Event) : (taken e s).mem = s.mem := rfl
@[simp] theorem taken_sram (s : State) (e : Event) : (taken e s).sram = s.sram := rfl
@[simp] theorem taken_tags (s : State) (e : Event) : (taken e s).tags = s.tags := rfl
@[simp] theorem taken_banks (s : State) (e : Event) : (taken e s).banks = s.banks := rfl
@[simp] theorem taken_clusters (s : State) (e : Event) : (taken e s).clusters = s.clusters := rfl
@[simp] theorem taken_barriers (s : State) (e : Event) : (taken e s).barriers = s.barriers := rfl
@[simp] theorem taken_accesses (s : State) (e : Event) : (taken e s).accesses = s.accesses := rfl
@[simp] theorem taken_locClock (s : State) (e : Event) : (taken e s).locClock = s.locClock := rfl
@[simp] theorem taken_walks (s : State) (e : Event) : (taken e s).walks = s.walks := rfl
@[simp] theorem taken_walkCache (s : State) (e : Event) : (taken e s).walkCache = s.walkCache := rfl
@[simp] theorem taken_dies (s : State) (e : Event) : (taken e s).dies = s.dies := rfl
@[simp] theorem taken_funcs (s : State) (e : Event) : (taken e s).funcs = s.funcs := rfl
@[simp] theorem taken_areas (s : State) (e : Event) : (taken e s).areas = s.areas := rfl
@[simp] theorem taken_mgmt (s : State) (e : Event) : (taken e s).mgmt = s.mgmt := rfl
@[simp] theorem taken_nolorn (s : State) (e : Event) : (taken e s).nolorn = s.nolorn := rfl

@[simp] theorem setCtxOf_agenda (s : State) (c : Nat) (b : Bool) (x : Ctx) : (setCtxOf s c b x).agenda = s.agenda := rfl
@[simp] theorem setCtxOf_inputs (s : State) (c : Nat) (b : Bool) (x : Ctx) : (setCtxOf s c b x).inputs = s.inputs := rfl
@[simp] theorem setCtxOf_flight (s : State) (c : Nat) (b : Bool) (x : Ctx) : (setCtxOf s c b x).flight = s.flight := rfl
@[simp] theorem setCtxOf_cur (s : State) (c : Nat) (b : Bool) (x : Ctx) : (setCtxOf s c b x).cur = s.cur := rfl
@[simp] theorem setCtxOf_order (s : State) (c : Nat) (b : Bool) (x : Ctx) : (setCtxOf s c b x).order = s.order := rfl
@[simp] theorem setCtxOf_tick (s : State) (c : Nat) (b : Bool) (x : Ctx) : (setCtxOf s c b x).tick = s.tick := rfl
@[simp] theorem setCtxOf_nextId (s : State) (c : Nat) (b : Bool) (x : Ctx) : (setCtxOf s c b x).nextId = s.nextId := rfl
@[simp] theorem setCtxOf_elapsed (s : State) (c : Nat) (b : Bool) (x : Ctx) : (setCtxOf s c b x).elapsed = s.elapsed := rfl
@[simp] theorem setCtxOf_istore (s : State) (c : Nat) (b : Bool) (x : Ctx) : (setCtxOf s c b x).istore = s.istore := rfl
@[simp] theorem setCtxOf_bankMem (s : State) (c : Nat) (b : Bool) (x : Ctx) : (setCtxOf s c b x).bankMem = s.bankMem := rfl
@[simp] theorem setCtxOf_mem (s : State) (c : Nat) (b : Bool) (x : Ctx) : (setCtxOf s c b x).mem = s.mem := rfl
@[simp] theorem setCtxOf_sram (s : State) (c : Nat) (b : Bool) (x : Ctx) : (setCtxOf s c b x).sram = s.sram := rfl
@[simp] theorem setCtxOf_tags (s : State) (c : Nat) (b : Bool) (x : Ctx) : (setCtxOf s c b x).tags = s.tags := rfl
@[simp] theorem setCtxOf_banks (s : State) (c : Nat) (b : Bool) (x : Ctx) : (setCtxOf s c b x).banks = s.banks := rfl
@[simp] theorem setCtxOf_clusters (s : State) (c : Nat) (b : Bool) (x : Ctx) : (setCtxOf s c b x).clusters = s.clusters := rfl
@[simp] theorem setCtxOf_barriers (s : State) (c : Nat) (b : Bool) (x : Ctx) : (setCtxOf s c b x).barriers = s.barriers := rfl
@[simp] theorem setCtxOf_accesses (s : State) (c : Nat) (b : Bool) (x : Ctx) : (setCtxOf s c b x).accesses = s.accesses := rfl
@[simp] theorem setCtxOf_locClock (s : State) (c : Nat) (b : Bool) (x : Ctx) : (setCtxOf s c b x).locClock = s.locClock := rfl
@[simp] theorem setCtxOf_walks (s : State) (c : Nat) (b : Bool) (x : Ctx) : (setCtxOf s c b x).walks = s.walks := rfl
@[simp] theorem setCtxOf_walkCache (s : State) (c : Nat) (b : Bool) (x : Ctx) : (setCtxOf s c b x).walkCache = s.walkCache := rfl
@[simp] theorem setCtxOf_dies (s : State) (c : Nat) (b : Bool) (x : Ctx) : (setCtxOf s c b x).dies = s.dies := rfl
@[simp] theorem setCtxOf_funcs (s : State) (c : Nat) (b : Bool) (x : Ctx) : (setCtxOf s c b x).funcs = s.funcs := rfl
@[simp] theorem setCtxOf_areas (s : State) (c : Nat) (b : Bool) (x : Ctx) : (setCtxOf s c b x).areas = s.areas := rfl
@[simp] theorem setCtxOf_mgmt (s : State) (c : Nat) (b : Bool) (x : Ctx) : (setCtxOf s c b x).mgmt = s.mgmt := rfl
@[simp] theorem setCtxOf_nolorn (s : State) (c : Nat) (b : Bool) (x : Ctx) : (setCtxOf s c b x).nolorn = s.nolorn := rfl

@[simp] theorem setCx_agenda (s : State) (x : Ctx) : (setCx s x).agenda = s.agenda := rfl
@[simp] theorem setCx_inputs (s : State) (x : Ctx) : (setCx s x).inputs = s.inputs := rfl
@[simp] theorem setCx_flight (s : State) (x : Ctx) : (setCx s x).flight = s.flight := rfl
@[simp] theorem setCx_cur (s : State) (x : Ctx) : (setCx s x).cur = s.cur := rfl
@[simp] theorem setCx_order (s : State) (x : Ctx) : (setCx s x).order = s.order := rfl
@[simp] theorem setCx_tick (s : State) (x : Ctx) : (setCx s x).tick = s.tick := rfl
@[simp] theorem setCx_nextId (s : State) (x : Ctx) : (setCx s x).nextId = s.nextId := rfl
@[simp] theorem setCx_elapsed (s : State) (x : Ctx) : (setCx s x).elapsed = s.elapsed := rfl
@[simp] theorem setCx_istore (s : State) (x : Ctx) : (setCx s x).istore = s.istore := rfl
@[simp] theorem setCx_bankMem (s : State) (x : Ctx) : (setCx s x).bankMem = s.bankMem := rfl
@[simp] theorem setCx_mem (s : State) (x : Ctx) : (setCx s x).mem = s.mem := rfl
@[simp] theorem setCx_sram (s : State) (x : Ctx) : (setCx s x).sram = s.sram := rfl
@[simp] theorem setCx_tags (s : State) (x : Ctx) : (setCx s x).tags = s.tags := rfl
@[simp] theorem setCx_banks (s : State) (x : Ctx) : (setCx s x).banks = s.banks := rfl
@[simp] theorem setCx_clusters (s : State) (x : Ctx) : (setCx s x).clusters = s.clusters := rfl
@[simp] theorem setCx_barriers (s : State) (x : Ctx) : (setCx s x).barriers = s.barriers := rfl
@[simp] theorem setCx_accesses (s : State) (x : Ctx) : (setCx s x).accesses = s.accesses := rfl
@[simp] theorem setCx_locClock (s : State) (x : Ctx) : (setCx s x).locClock = s.locClock := rfl
@[simp] theorem setCx_walks (s : State) (x : Ctx) : (setCx s x).walks = s.walks := rfl
@[simp] theorem setCx_walkCache (s : State) (x : Ctx) : (setCx s x).walkCache = s.walkCache := rfl
@[simp] theorem setCx_dies (s : State) (x : Ctx) : (setCx s x).dies = s.dies := rfl
@[simp] theorem setCx_funcs (s : State) (x : Ctx) : (setCx s x).funcs = s.funcs := rfl
@[simp] theorem setCx_areas (s : State) (x : Ctx) : (setCx s x).areas = s.areas := rfl
@[simp] theorem setCx_mgmt (s : State) (x : Ctx) : (setCx s x).mgmt = s.mgmt := rfl
@[simp] theorem setCx_nolorn (s : State) (x : Ctx) : (setCx s x).nolorn = s.nolorn := rfl

@[simp] theorem putReg_agenda (s : State) (d : BitVec 6) (r : Reg) : (putReg d r s).agenda = s.agenda := rfl
@[simp] theorem putReg_inputs (s : State) (d : BitVec 6) (r : Reg) : (putReg d r s).inputs = s.inputs := rfl
@[simp] theorem putReg_flight (s : State) (d : BitVec 6) (r : Reg) : (putReg d r s).flight = s.flight := rfl
@[simp] theorem putReg_cur (s : State) (d : BitVec 6) (r : Reg) : (putReg d r s).cur = s.cur := rfl
@[simp] theorem putReg_order (s : State) (d : BitVec 6) (r : Reg) : (putReg d r s).order = s.order := rfl
@[simp] theorem putReg_tick (s : State) (d : BitVec 6) (r : Reg) : (putReg d r s).tick = s.tick := rfl
@[simp] theorem putReg_nextId (s : State) (d : BitVec 6) (r : Reg) : (putReg d r s).nextId = s.nextId := rfl
@[simp] theorem putReg_elapsed (s : State) (d : BitVec 6) (r : Reg) : (putReg d r s).elapsed = s.elapsed := rfl
@[simp] theorem putReg_istore (s : State) (d : BitVec 6) (r : Reg) : (putReg d r s).istore = s.istore := rfl
@[simp] theorem putReg_bankMem (s : State) (d : BitVec 6) (r : Reg) : (putReg d r s).bankMem = s.bankMem := rfl
@[simp] theorem putReg_mem (s : State) (d : BitVec 6) (r : Reg) : (putReg d r s).mem = s.mem := rfl
@[simp] theorem putReg_sram (s : State) (d : BitVec 6) (r : Reg) : (putReg d r s).sram = s.sram := rfl
@[simp] theorem putReg_tags (s : State) (d : BitVec 6) (r : Reg) : (putReg d r s).tags = s.tags := rfl
@[simp] theorem putReg_banks (s : State) (d : BitVec 6) (r : Reg) : (putReg d r s).banks = s.banks := rfl
@[simp] theorem putReg_clusters (s : State) (d : BitVec 6) (r : Reg) : (putReg d r s).clusters = s.clusters := rfl
@[simp] theorem putReg_barriers (s : State) (d : BitVec 6) (r : Reg) : (putReg d r s).barriers = s.barriers := rfl
@[simp] theorem putReg_accesses (s : State) (d : BitVec 6) (r : Reg) : (putReg d r s).accesses = s.accesses := rfl
@[simp] theorem putReg_locClock (s : State) (d : BitVec 6) (r : Reg) : (putReg d r s).locClock = s.locClock := rfl
@[simp] theorem putReg_walks (s : State) (d : BitVec 6) (r : Reg) : (putReg d r s).walks = s.walks := rfl
@[simp] theorem putReg_walkCache (s : State) (d : BitVec 6) (r : Reg) : (putReg d r s).walkCache = s.walkCache := rfl
@[simp] theorem putReg_dies (s : State) (d : BitVec 6) (r : Reg) : (putReg d r s).dies = s.dies := rfl
@[simp] theorem putReg_funcs (s : State) (d : BitVec 6) (r : Reg) : (putReg d r s).funcs = s.funcs := rfl
@[simp] theorem putReg_areas (s : State) (d : BitVec 6) (r : Reg) : (putReg d r s).areas = s.areas := rfl
@[simp] theorem putReg_mgmt (s : State) (d : BitVec 6) (r : Reg) : (putReg d r s).mgmt = s.mgmt := rfl
@[simp] theorem putReg_nolorn (s : State) (d : BitVec 6) (r : Reg) : (putReg d r s).nolorn = s.nolorn := rfl

@[simp] theorem markIssued_agenda (s : State) : (markIssued s).agenda = s.agenda := rfl
@[simp] theorem markIssued_inputs (s : State) : (markIssued s).inputs = s.inputs := rfl
@[simp] theorem markIssued_flight (s : State) : (markIssued s).flight = s.flight := rfl
@[simp] theorem markIssued_cur (s : State) : (markIssued s).cur = s.cur := rfl
@[simp] theorem markIssued_order (s : State) : (markIssued s).order = s.order := rfl
@[simp] theorem markIssued_tick (s : State) : (markIssued s).tick = s.tick := rfl
@[simp] theorem markIssued_nextId (s : State) : (markIssued s).nextId = s.nextId := rfl
@[simp] theorem markIssued_elapsed (s : State) : (markIssued s).elapsed = s.elapsed := rfl
@[simp] theorem markIssued_istore (s : State) : (markIssued s).istore = s.istore := rfl
@[simp] theorem markIssued_bankMem (s : State) : (markIssued s).bankMem = s.bankMem := rfl
@[simp] theorem markIssued_mem (s : State) : (markIssued s).mem = s.mem := rfl
@[simp] theorem markIssued_sram (s : State) : (markIssued s).sram = s.sram := rfl
@[simp] theorem markIssued_tags (s : State) : (markIssued s).tags = s.tags := rfl
@[simp] theorem markIssued_banks (s : State) : (markIssued s).banks = s.banks := rfl
@[simp] theorem markIssued_clusters (s : State) : (markIssued s).clusters = s.clusters := rfl
@[simp] theorem markIssued_barriers (s : State) : (markIssued s).barriers = s.barriers := rfl
@[simp] theorem markIssued_accesses (s : State) : (markIssued s).accesses = s.accesses := rfl
@[simp] theorem markIssued_locClock (s : State) : (markIssued s).locClock = s.locClock := rfl
@[simp] theorem markIssued_walks (s : State) : (markIssued s).walks = s.walks := rfl
@[simp] theorem markIssued_walkCache (s : State) : (markIssued s).walkCache = s.walkCache := rfl
@[simp] theorem markIssued_dies (s : State) : (markIssued s).dies = s.dies := rfl
@[simp] theorem markIssued_funcs (s : State) : (markIssued s).funcs = s.funcs := rfl
@[simp] theorem markIssued_areas (s : State) : (markIssued s).areas = s.areas := rfl
@[simp] theorem markIssued_mgmt (s : State) : (markIssued s).mgmt = s.mgmt := rfl
@[simp] theorem markIssued_nolorn (s : State) : (markIssued s).nolorn = s.nolorn := rfl

@[simp] theorem completed_agenda (s : State) (y : Ctx) : (completed s y).agenda = s.agenda := rfl
@[simp] theorem completed_inputs (s : State) (y : Ctx) : (completed s y).inputs = s.inputs := rfl
@[simp] theorem completed_flight (s : State) (y : Ctx) : (completed s y).flight = s.flight := rfl
@[simp] theorem completed_cur (s : State) (y : Ctx) : (completed s y).cur = s.cur := rfl
@[simp] theorem completed_order (s : State) (y : Ctx) : (completed s y).order = s.order := rfl
@[simp] theorem completed_tick (s : State) (y : Ctx) : (completed s y).tick = s.tick := rfl
@[simp] theorem completed_nextId (s : State) (y : Ctx) : (completed s y).nextId = s.nextId := rfl
@[simp] theorem completed_elapsed (s : State) (y : Ctx) : (completed s y).elapsed = s.elapsed := rfl
@[simp] theorem completed_istore (s : State) (y : Ctx) : (completed s y).istore = s.istore := rfl
@[simp] theorem completed_bankMem (s : State) (y : Ctx) : (completed s y).bankMem = s.bankMem := rfl
@[simp] theorem completed_mem (s : State) (y : Ctx) : (completed s y).mem = s.mem := rfl
@[simp] theorem completed_sram (s : State) (y : Ctx) : (completed s y).sram = s.sram := rfl
@[simp] theorem completed_tags (s : State) (y : Ctx) : (completed s y).tags = s.tags := rfl
@[simp] theorem completed_banks (s : State) (y : Ctx) : (completed s y).banks = s.banks := rfl
@[simp] theorem completed_clusters (s : State) (y : Ctx) : (completed s y).clusters = s.clusters := rfl
@[simp] theorem completed_barriers (s : State) (y : Ctx) : (completed s y).barriers = s.barriers := rfl
@[simp] theorem completed_accesses (s : State) (y : Ctx) : (completed s y).accesses = s.accesses := rfl
@[simp] theorem completed_locClock (s : State) (y : Ctx) : (completed s y).locClock = s.locClock := rfl
@[simp] theorem completed_walks (s : State) (y : Ctx) : (completed s y).walks = s.walks := rfl
@[simp] theorem completed_walkCache (s : State) (y : Ctx) : (completed s y).walkCache = s.walkCache := rfl
@[simp] theorem completed_dies (s : State) (y : Ctx) : (completed s y).dies = s.dies := rfl
@[simp] theorem completed_funcs (s : State) (y : Ctx) : (completed s y).funcs = s.funcs := rfl
@[simp] theorem completed_areas (s : State) (y : Ctx) : (completed s y).areas = s.areas := rfl
@[simp] theorem completed_mgmt (s : State) (y : Ctx) : (completed s y).mgmt = s.mgmt := rfl
@[simp] theorem completed_nolorn (s : State) (y : Ctx) : (completed s y).nolorn = s.nolorn := rfl

@[simp] theorem spendFor_agenda (s : State) (c n : Nat) (q v m : Option Nat) : (spendFor c n q v m s).agenda = s.agenda := rfl
@[simp] theorem spendFor_inputs (s : State) (c n : Nat) (q v m : Option Nat) : (spendFor c n q v m s).inputs = s.inputs := rfl
@[simp] theorem spendFor_flight (s : State) (c n : Nat) (q v m : Option Nat) : (spendFor c n q v m s).flight = s.flight := rfl
@[simp] theorem spendFor_cur (s : State) (c n : Nat) (q v m : Option Nat) : (spendFor c n q v m s).cur = s.cur := rfl
@[simp] theorem spendFor_order (s : State) (c n : Nat) (q v m : Option Nat) : (spendFor c n q v m s).order = s.order := rfl
@[simp] theorem spendFor_nextId (s : State) (c n : Nat) (q v m : Option Nat) : (spendFor c n q v m s).nextId = s.nextId := rfl
@[simp] theorem spendFor_istore (s : State) (c n : Nat) (q v m : Option Nat) : (spendFor c n q v m s).istore = s.istore := rfl
@[simp] theorem spendFor_bankMem (s : State) (c n : Nat) (q v m : Option Nat) : (spendFor c n q v m s).bankMem = s.bankMem := rfl
@[simp] theorem spendFor_mem (s : State) (c n : Nat) (q v m : Option Nat) : (spendFor c n q v m s).mem = s.mem := rfl
@[simp] theorem spendFor_sram (s : State) (c n : Nat) (q v m : Option Nat) : (spendFor c n q v m s).sram = s.sram := rfl
@[simp] theorem spendFor_tags (s : State) (c n : Nat) (q v m : Option Nat) : (spendFor c n q v m s).tags = s.tags := rfl
@[simp] theorem spendFor_banks (s : State) (c n : Nat) (q v m : Option Nat) : (spendFor c n q v m s).banks = s.banks := rfl
@[simp] theorem spendFor_clusters (s : State) (c n : Nat) (q v m : Option Nat) : (spendFor c n q v m s).clusters = s.clusters := rfl
@[simp] theorem spendFor_barriers (s : State) (c n : Nat) (q v m : Option Nat) : (spendFor c n q v m s).barriers = s.barriers := rfl
@[simp] theorem spendFor_accesses (s : State) (c n : Nat) (q v m : Option Nat) : (spendFor c n q v m s).accesses = s.accesses := rfl
@[simp] theorem spendFor_locClock (s : State) (c n : Nat) (q v m : Option Nat) : (spendFor c n q v m s).locClock = s.locClock := rfl
@[simp] theorem spendFor_walks (s : State) (c n : Nat) (q v m : Option Nat) : (spendFor c n q v m s).walks = s.walks := rfl
@[simp] theorem spendFor_walkCache (s : State) (c n : Nat) (q v m : Option Nat) : (spendFor c n q v m s).walkCache = s.walkCache := rfl
@[simp] theorem spendFor_dies (s : State) (c n : Nat) (q v m : Option Nat) : (spendFor c n q v m s).dies = s.dies := rfl
@[simp] theorem spendFor_funcs (s : State) (c n : Nat) (q v m : Option Nat) : (spendFor c n q v m s).funcs = s.funcs := rfl
@[simp] theorem spendFor_areas (s : State) (c n : Nat) (q v m : Option Nat) : (spendFor c n q v m s).areas = s.areas := rfl
@[simp] theorem spendFor_mgmt (s : State) (c n : Nat) (q v m : Option Nat) : (spendFor c n q v m s).mgmt = s.mgmt := rfl
@[simp] theorem spendFor_nolorn (s : State) (c n : Nat) (q v m : Option Nat) : (spendFor c n q v m s).nolorn = s.nolorn := rfl

@[simp] theorem spendOn_agenda (s : State) (c : Nat) (q v m : Option Nat) : (spendOn c q v m s).agenda = s.agenda := rfl
@[simp] theorem spendOn_inputs (s : State) (c : Nat) (q v m : Option Nat) : (spendOn c q v m s).inputs = s.inputs := rfl
@[simp] theorem spendOn_flight (s : State) (c : Nat) (q v m : Option Nat) : (spendOn c q v m s).flight = s.flight := rfl
@[simp] theorem spendOn_cur (s : State) (c : Nat) (q v m : Option Nat) : (spendOn c q v m s).cur = s.cur := rfl
@[simp] theorem spendOn_order (s : State) (c : Nat) (q v m : Option Nat) : (spendOn c q v m s).order = s.order := rfl
@[simp] theorem spendOn_nextId (s : State) (c : Nat) (q v m : Option Nat) : (spendOn c q v m s).nextId = s.nextId := rfl
@[simp] theorem spendOn_istore (s : State) (c : Nat) (q v m : Option Nat) : (spendOn c q v m s).istore = s.istore := rfl
@[simp] theorem spendOn_bankMem (s : State) (c : Nat) (q v m : Option Nat) : (spendOn c q v m s).bankMem = s.bankMem := rfl
@[simp] theorem spendOn_mem (s : State) (c : Nat) (q v m : Option Nat) : (spendOn c q v m s).mem = s.mem := rfl
@[simp] theorem spendOn_sram (s : State) (c : Nat) (q v m : Option Nat) : (spendOn c q v m s).sram = s.sram := rfl
@[simp] theorem spendOn_tags (s : State) (c : Nat) (q v m : Option Nat) : (spendOn c q v m s).tags = s.tags := rfl
@[simp] theorem spendOn_banks (s : State) (c : Nat) (q v m : Option Nat) : (spendOn c q v m s).banks = s.banks := rfl
@[simp] theorem spendOn_clusters (s : State) (c : Nat) (q v m : Option Nat) : (spendOn c q v m s).clusters = s.clusters := rfl
@[simp] theorem spendOn_barriers (s : State) (c : Nat) (q v m : Option Nat) : (spendOn c q v m s).barriers = s.barriers := rfl
@[simp] theorem spendOn_accesses (s : State) (c : Nat) (q v m : Option Nat) : (spendOn c q v m s).accesses = s.accesses := rfl
@[simp] theorem spendOn_locClock (s : State) (c : Nat) (q v m : Option Nat) : (spendOn c q v m s).locClock = s.locClock := rfl
@[simp] theorem spendOn_walks (s : State) (c : Nat) (q v m : Option Nat) : (spendOn c q v m s).walks = s.walks := rfl
@[simp] theorem spendOn_walkCache (s : State) (c : Nat) (q v m : Option Nat) : (spendOn c q v m s).walkCache = s.walkCache := rfl
@[simp] theorem spendOn_dies (s : State) (c : Nat) (q v m : Option Nat) : (spendOn c q v m s).dies = s.dies := rfl
@[simp] theorem spendOn_funcs (s : State) (c : Nat) (q v m : Option Nat) : (spendOn c q v m s).funcs = s.funcs := rfl
@[simp] theorem spendOn_areas (s : State) (c : Nat) (q v m : Option Nat) : (spendOn c q v m s).areas = s.areas := rfl
@[simp] theorem spendOn_mgmt (s : State) (c : Nat) (q v m : Option Nat) : (spendOn c q v m s).mgmt = s.mgmt := rfl
@[simp] theorem spendOn_nolorn (s : State) (c : Nat) (q v m : Option Nat) : (spendOn c q v m s).nolorn = s.nolorn := rfl

@[simp] theorem spend_agenda (s : State) (n : Nat) : (spend n s).agenda = s.agenda := rfl
@[simp] theorem spend_inputs (s : State) (n : Nat) : (spend n s).inputs = s.inputs := rfl
@[simp] theorem spend_flight (s : State) (n : Nat) : (spend n s).flight = s.flight := rfl
@[simp] theorem spend_cur (s : State) (n : Nat) : (spend n s).cur = s.cur := rfl
@[simp] theorem spend_order (s : State) (n : Nat) : (spend n s).order = s.order := rfl
@[simp] theorem spend_nextId (s : State) (n : Nat) : (spend n s).nextId = s.nextId := rfl
@[simp] theorem spend_istore (s : State) (n : Nat) : (spend n s).istore = s.istore := rfl
@[simp] theorem spend_bankMem (s : State) (n : Nat) : (spend n s).bankMem = s.bankMem := rfl
@[simp] theorem spend_mem (s : State) (n : Nat) : (spend n s).mem = s.mem := rfl
@[simp] theorem spend_sram (s : State) (n : Nat) : (spend n s).sram = s.sram := rfl
@[simp] theorem spend_tags (s : State) (n : Nat) : (spend n s).tags = s.tags := rfl
@[simp] theorem spend_banks (s : State) (n : Nat) : (spend n s).banks = s.banks := rfl
@[simp] theorem spend_clusters (s : State) (n : Nat) : (spend n s).clusters = s.clusters := rfl
@[simp] theorem spend_barriers (s : State) (n : Nat) : (spend n s).barriers = s.barriers := rfl
@[simp] theorem spend_accesses (s : State) (n : Nat) : (spend n s).accesses = s.accesses := rfl
@[simp] theorem spend_locClock (s : State) (n : Nat) : (spend n s).locClock = s.locClock := rfl
@[simp] theorem spend_walks (s : State) (n : Nat) : (spend n s).walks = s.walks := rfl
@[simp] theorem spend_walkCache (s : State) (n : Nat) : (spend n s).walkCache = s.walkCache := rfl
@[simp] theorem spend_dies (s : State) (n : Nat) : (spend n s).dies = s.dies := rfl
@[simp] theorem spend_funcs (s : State) (n : Nat) : (spend n s).funcs = s.funcs := rfl
@[simp] theorem spend_areas (s : State) (n : Nat) : (spend n s).areas = s.areas := rfl
@[simp] theorem spend_mgmt (s : State) (n : Nat) : (spend n s).mgmt = s.mgmt := rfl
@[simp] theorem spend_nolorn (s : State) (n : Nat) : (spend n s).nolorn = s.nolorn := rfl

@[simp] theorem finish_agenda (s : State) : (finish s).agenda = s.agenda := rfl
@[simp] theorem finish_inputs (s : State) : (finish s).inputs = s.inputs := rfl
@[simp] theorem finish_flight (s : State) : (finish s).flight = s.flight := rfl
@[simp] theorem finish_cur (s : State) : (finish s).cur = s.cur := rfl
@[simp] theorem finish_order (s : State) : (finish s).order = s.order := rfl
@[simp] theorem finish_nextId (s : State) : (finish s).nextId = s.nextId := rfl
@[simp] theorem finish_istore (s : State) : (finish s).istore = s.istore := rfl
@[simp] theorem finish_bankMem (s : State) : (finish s).bankMem = s.bankMem := rfl
@[simp] theorem finish_mem (s : State) : (finish s).mem = s.mem := rfl
@[simp] theorem finish_sram (s : State) : (finish s).sram = s.sram := rfl
@[simp] theorem finish_tags (s : State) : (finish s).tags = s.tags := rfl
@[simp] theorem finish_banks (s : State) : (finish s).banks = s.banks := rfl
@[simp] theorem finish_clusters (s : State) : (finish s).clusters = s.clusters := rfl
@[simp] theorem finish_barriers (s : State) : (finish s).barriers = s.barriers := rfl
@[simp] theorem finish_accesses (s : State) : (finish s).accesses = s.accesses := rfl
@[simp] theorem finish_locClock (s : State) : (finish s).locClock = s.locClock := rfl
@[simp] theorem finish_walks (s : State) : (finish s).walks = s.walks := rfl
@[simp] theorem finish_walkCache (s : State) : (finish s).walkCache = s.walkCache := rfl
@[simp] theorem finish_dies (s : State) : (finish s).dies = s.dies := rfl
@[simp] theorem finish_funcs (s : State) : (finish s).funcs = s.funcs := rfl
@[simp] theorem finish_areas (s : State) : (finish s).areas = s.areas := rfl
@[simp] theorem finish_mgmt (s : State) : (finish s).mgmt = s.mgmt := rfl
@[simp] theorem finish_nolorn (s : State) : (finish s).nolorn = s.nolorn := rfl

@[simp] theorem elapse_agenda (s : State) : (elapse s).agenda = s.agenda := rfl
@[simp] theorem elapse_inputs (s : State) : (elapse s).inputs = s.inputs := rfl
@[simp] theorem elapse_flight (s : State) : (elapse s).flight = s.flight := rfl
@[simp] theorem elapse_cur (s : State) : (elapse s).cur = s.cur := rfl
@[simp] theorem elapse_order (s : State) : (elapse s).order = s.order := rfl
@[simp] theorem elapse_nextId (s : State) : (elapse s).nextId = s.nextId := rfl
@[simp] theorem elapse_istore (s : State) : (elapse s).istore = s.istore := rfl
@[simp] theorem elapse_bankMem (s : State) : (elapse s).bankMem = s.bankMem := rfl
@[simp] theorem elapse_mem (s : State) : (elapse s).mem = s.mem := rfl
@[simp] theorem elapse_sram (s : State) : (elapse s).sram = s.sram := rfl
@[simp] theorem elapse_tags (s : State) : (elapse s).tags = s.tags := rfl
@[simp] theorem elapse_banks (s : State) : (elapse s).banks = s.banks := rfl
@[simp] theorem elapse_clusters (s : State) : (elapse s).clusters = s.clusters := rfl
@[simp] theorem elapse_barriers (s : State) : (elapse s).barriers = s.barriers := rfl
@[simp] theorem elapse_accesses (s : State) : (elapse s).accesses = s.accesses := rfl
@[simp] theorem elapse_locClock (s : State) : (elapse s).locClock = s.locClock := rfl
@[simp] theorem elapse_walks (s : State) : (elapse s).walks = s.walks := rfl
@[simp] theorem elapse_walkCache (s : State) : (elapse s).walkCache = s.walkCache := rfl
@[simp] theorem elapse_dies (s : State) : (elapse s).dies = s.dies := rfl
@[simp] theorem elapse_funcs (s : State) : (elapse s).funcs = s.funcs := rfl
@[simp] theorem elapse_areas (s : State) : (elapse s).areas = s.areas := rfl
@[simp] theorem elapse_mgmt (s : State) : (elapse s).mgmt = s.mgmt := rfl
@[simp] theorem elapse_nolorn (s : State) : (elapse s).nolorn = s.nolorn := rfl

@[simp] theorem setCore_cores (s : State) (c : Nat) (k : Core) : (setCore s c k).cores = tset s.cores c k := rfl

/-! ## Cores and contexts after an update -/

@[simp] theorem core_setCore (s : State) (c c' : Nat) (k : Core) : core (setCore s c k) c' = if c = c' then k else core s c' := by
  simp [core, setCore, tget_tset]

@[simp] theorem setCore_setCore (s : State) (c : Nat) (k k' : Core) : setCore (setCore s c k) c k' = setCore s c k' := by
  simp [setCore]

@[simp] theorem Core.put_sup (k : Core) (b : Bool) (x : Ctx) : (k.put b x).sup = if b then x else k.sup := by cases b <;> rfl
@[simp] theorem Core.put_user (k : Core) (b : Bool) (x : Ctx) : (k.put b x).user = if b then k.user else x := by cases b <;> rfl
@[simp] theorem Core.put_supOn (k : Core) (b : Bool) (x : Ctx) : (k.put b x).supOn = k.supOn := by cases b <;> rfl
@[simp] theorem Core.put_put (k : Core) (b : Bool) (x y : Ctx) : (k.put b x).put b y = k.put b y := by cases b <;> rfl

@[simp] theorem ctxOf_setCtxOf (s : State) (c : Nat) (b : Bool) (x : Ctx) : ctxOf (setCtxOf s c b x) c b = x := by
  cases b <;> simp [ctxOf, setCtxOf]

@[simp] theorem onSup_setCx (s : State) (x : Ctx) : onSup (setCx s x) = onSup s := by simp [onSup, curCore, setCx, setCtxOf]

@[simp] theorem cx_setCx (s : State) (x : Ctx) : cx (setCx s x) = x := by
  have h : (curCore (setCx s x)).supOn = (curCore s).supOn := onSup_setCx s x
  unfold cx; rw [h, setCx_cur]; exact ctxOf_setCtxOf s s.cur (curCore s).supOn x

@[simp] theorem setCx_setCx (s : State) (x y : Ctx) : setCx (setCx s x) y = setCx s y := by
  have h : (curCore (setCx s x)).supOn = (curCore s).supOn := onSup_setCx s x
  show setCtxOf (setCx s x) (setCx s x).cur (curCore (setCx s x)).supOn y = _
  rw [h, setCx_cur]
  simp [setCx, setCtxOf]

/-! ## Registers (R145) -/

@[simp] theorem reg_zero (x : Ctx) : reg x 0 = {} := rfl

theorem reg_setReg (x : Ctx) (n m : Nat) (r : Reg) : reg (setReg x n r) m = if n = m ∧ m ≠ 0 then r else reg x m := by
  unfold reg setReg
  by_cases hm : m = 0
  · simp [hm]
  · by_cases hn : n = 0
    · have : n ≠ m := fun h => hm (h ▸ hn)
      simp [hm, hn, Ne.symm hm]
    · simp [hm, hn, tget_tset]

@[simp] theorem setReg_zero (x : Ctx) (r : Reg) : setReg x 0 r = x := rfl

@[simp] theorem cx_putReg (s : State) (d : BitVec 6) (r : Reg) : cx (putReg d r s) = setReg (cx s) d.toNat r := by simp [putReg]

end Sys2Proof.Machine
end

