-- ==== Sys2Proof/Laws/Issue.lean ====
section
/-! SUPPORT. What passing time leaves alone, and what completing a word, waiting and jumping come to apart from it. -/

namespace Sys2Proof.Machine

/-! ## The encoder, apart from what time changes -/

/-- The debug registers as `stillCtx` leaves them. -/
def Debug.quiet (d : Debug) : Debug := { d with enc := [], runs := [], trdrop := 0, trctl := setBits d.trctl 1 1 0 }

theorem bit1_set (v b : Nat) : setBits (setBits v 1 1 b) 1 1 0 = setBits v 1 1 0 := by
  unfold setBits bits fld
  norm_num
  omega

theorem quiet_push (r : BitVec 64) (n other : Nat) (d : Debug) : (d.push r n other).quiet = d.quiet := rfl

theorem quiet_runs (d : Debug) (l : AList (BitVec 64)) : ({ d with runs := l } : Debug).quiet = d.quiet := rfl

theorem quiet_endRun (other slot : Nat) (d : Debug) : (d.endRun other slot).quiet = d.quiet := by
  unfold Debug.endRun; split <;> rfl

theorem quiet_endRuns (other : Nat) (d : Debug) : (d.endRuns other).quiet = d.quiet := by
  unfold Debug.endRuns; rw [quiet_endRun, quiet_endRun, quiet_endRun]

theorem quiet_run (d : Debug) (o a b c e n : Nat) : (d.run o a b c e n).quiet = d.quiet := by
  unfold Debug.run
  dsimp only
  split
  · rfl
  · rw [quiet_runs, quiet_push]
    repeat' split
    all_goals first | exact quiet_endRun .. | rfl

theorem quiet_cycles (d : Debug) (o : Nat) (b : Bool) (i sl pc ca n : Nat) : (d.cycles o b i sl pc ca n).quiet = d.quiet := by
  unfold Debug.cycles; split
  · rfl
  · split
    · exact quiet_run ..
    · exact quiet_endRun ..

theorem quiet_start (d : Debug) (i : Bool) (w pc : Nat) (u : Bool) : (d.start i w pc u).quiet = d.quiet := by
  unfold Debug.start; split
  · simp only [Debug.quiet, bit1_set _ 1]
  · rfl

theorem quiet_stop (d : Debug) (i : Bool) (w pc : Nat) (u : Bool) : (d.stop i w pc u).quiet = d.quiet := by
  unfold Debug.stop; split
  · simp only [Debug.quiet, bit1_set _ 0]
  · rfl

theorem quiet_slots (d : Debug) (o n : Nat) (i : Bool) (w : Nat) (u : Bool) (q v m : Nat × Bool × Nat) :
    (d.slots o n i w u q v m).quiet = d.quiet := by
  unfold Debug.slots; split
  · rfl
  · simp only [quiet_stop, quiet_cycles, quiet_start]

theorem quiet_traced {d e : Debug} (h : e.quiet = d.quiet) : (d.traced e).quiet = d.quiet := by
  have : setBits e.trctl 1 1 0 = setBits d.trctl 1 1 0 := congrArg Debug.trctl h
  simp only [Debug.quiet, Debug.traced, this]

theorem quiet_charge (d : Debug) (k : Core) (o gap n : Nat) (q v m : Slot) (i u : Bool) : (d.charge k o gap n q v m i u).quiet = d.quiet := by
  unfold Debug.charge
  exact quiet_traced (by rw [quiet_slots, quiet_slots])

/-! ## Contexts, cores and the machine, apart from what time changes -/

theorem stillCtx_quiet (x : Ctx) : stillCtx x = { x with acct := [], ctime := 0, resident := 0, dbg := x.dbg.quiet } := rfl

theorem stillCtx_chargeCtx (k : Core) (x : Ctx) (other gap n : Nat) (q v m : Option Nat) (u : Bool) :
    stillCtx (chargeCtx k x other gap n q v m u) = stillCtx x := by
  simp only [stillCtx_quiet, chargeCtx, quiet_charge]

theorem stillCtx_away (other n : Nat) (x : Ctx) : stillCtx (x.away other n) = stillCtx x := by
  have h : (x.dbg.traced (if n = 0 then x.dbg else x.dbg.endRuns other)).quiet = x.dbg.quiet := by
    refine quiet_traced ?_
    split
    · rfl
    · exact quiet_endRuns ..
  simp only [stillCtx_quiet, Ctx.away, h]

theorem stillCore_chargeCore (k : Core) (gap n : Nat) (q v m : Option Nat) (now : Nat) (u : Bool) :
    stillCore (chargeCore k gap n q v m now u) = stillCore k := by
  unfold chargeCore
  split <;> simp only [stillCore, stillCtx_chargeCtx, stillCtx_away]

theorem still_setCore (s : State) (c : Nat) (k : Core) : still (setCore s c k) = setCore (still s) c (stillCore k) := by
  simp [still, setCore, tset_map]

theorem tget_map {α β : Type} (f : α → β) (l : AList α) (i : Nat) (d : α) :
    tget (l.map fun p => (p.1, f p.2)) i (f d) = f (tget l i d) := by
  induction l with
  | nil => rfl
  | cons p t ih =>
    obtain ⟨k, v⟩ := p
    simp only [List.map_cons, tget]
    split
    · rfl
    · exact ih

theorem stillCore_default : stillCore {} = {} := rfl

theorem core_still (s : State) (c : Nat) : core (still s) c = stillCore (core s c) := by
  have h := tget_map stillCore s.cores c {}
  rw [stillCore_default] at h
  exact h

/-- A core of a machine in which time has passed, replaced: apart from time, the core of the machine before it. -/
theorem still_setCore_spendFor (s : State) (c n c' : Nat) (q v m : Option Nat) (k k' : Core) (h : stillCore k = stillCore k') (hc : c = c') :
    still (setCore (spendFor c n q v m s) c' k) = still (setCore s c' k') := by
  subst hc
  have : still ({ s with elapsed := (spendFor c n q v m s).elapsed, tick := s.tick + 1 } : State) = still s := rfl
  simp only [spendFor, setCore_setCore, still_setCore, h] at this ⊢
  rw [show still ({ s with elapsed := s.elapsed + n, tick := s.tick + 1 } : State) = still s from rfl]

/-- A core after time has passed on it. -/
theorem stillCore_core_spendFor (s : State) (c n c' : Nat) (q v m : Option Nat) :
    stillCore (core (spendFor c n q v m s) c') = stillCore (core s c') := by
  simp only [spendFor, core_setCore]
  split
  · rename_i h; subst h; exact stillCore_chargeCore ..
  · rfl

theorem supOn_of_still {k k' : Core} (h : stillCore k = stillCore k') : k.supOn = k'.supOn := by
  have := congrArg Core.supOn h; exact this

theorem stillCtx_sup {k k' : Core} (h : stillCore k = stillCore k') : stillCtx k.sup = stillCtx k'.sup := by
  have := congrArg Core.sup h; exact this

theorem stillCtx_user {k k' : Core} (h : stillCore k = stillCore k') : stillCtx k.user = stillCtx k'.user := by
  have := congrArg Core.user h; exact this

/-- The context in issue after time has passed. -/
theorem stillCtx_cx_spend (cause : Nat) (s : State) : stillCtx (cx (spend cause s)) = stillCtx (cx s) := by
  have h := stillCore_core_spendFor s s.cur 1 s.cur (some cause) none none
  have hs := supOn_of_still h
  show stillCtx (ctxOf (spendFor s.cur 1 (some cause) none none s) s.cur (core (spendFor s.cur 1 (some cause) none none s) s.cur).supOn) = stillCtx (ctxOf s s.cur (core s s.cur).supOn)
  rw [hs]
  unfold ctxOf
  split
  · exact stillCtx_sup h
  · exact stillCtx_user h

/-- What a word's completion does to its context does not depend on time. -/
theorem stillCtx_advance {x y : Ctx} (h : stillCtx x = stillCtx y) : stillCtx x.advance = stillCtx y.advance := by
  have hpc : (stillCtx x).pc = (stillCtx y).pc := by rw [h]
  have hreps : (stillCtx x).reps = (stillCtx y).reps := by rw [h]
  have e : ∀ z : Ctx, stillCtx z.advance =
      { stillCtx z with pc := (repAdvance ((z.pc + 4) % 65536) z.reps).1, reps := (repAdvance ((z.pc + 4) % 65536) z.reps).2,
                        hint := .none, waiting := none } := fun _ => rfl
  have hpc : x.pc = y.pc := hpc
  have hreps : x.reps = y.reps := hreps
  rw [e x, e y, h, hpc, hreps]

theorem stillCore_put {k k' : Core} (b : Bool) {x y : Ctx} (h : stillCore k = stillCore k') (hx : stillCtx x = stillCtx y) :
    stillCore (k.put b x) = stillCore (k'.put b y) := by
  have e : ∀ (k : Core) (x : Ctx), stillCore (k.put b x) = (stillCore k).put b (stillCtx x) := by intro k x; cases b <;> rfl
  rw [e, e, h, hx]

theorem markIssued_setCx (s : State) (x : Ctx) :
    markIssued (setCx s x) = setCore s s.cur ((core s s.cur).put (curCore s).supOn x).marked_ := by
  simp [markIssued, setCx, setCtxOf, curCore]

theorem stillCore_marked {k k' : Core} (h : stillCore k = stillCore k') : stillCore k.marked_ = stillCore k'.marked_ := by
  have e : ∀ k : Core, stillCore k.marked_ = (stillCore k).marked_ := fun _ => rfl
  rw [e, e, h]

/-- Marking a word as issued with its context replaced, after time has passed. -/
theorem still_markIssued_spend (cause : Nat) (s : State) {x y : Ctx} (h : stillCtx x = stillCtx y) :
    still (markIssued (setCx (spend cause s) x)) = still (markIssued (setCx s y)) := by
  have hk := stillCore_core_spendFor s s.cur 1 s.cur (some cause) none none
  have hs : (curCore (spend cause s)).supOn = (curCore s).supOn := supOn_of_still hk
  rw [markIssued_setCx, markIssued_setCx, hs, spend_cur]
  exact still_setCore_spendFor s s.cur 1 s.cur (some cause) none none _ _ (stillCore_marked (stillCore_put (curCore s).supOn hk h)) rfl

/-- Completing a word, apart from time. -/
theorem still_finish (s : State) : still (finish s) = still (completed s (cx s)) :=
  still_markIssued_spend _ s (stillCtx_advance (stillCtx_cx_spend _ s))

/-- A word whose effect on the machine is `e`. -/
theorem completes_finish (s : State) : Completes (.next (finish s)) (completed s (cx s)) := ⟨finish s, rfl, still_finish s⟩

/-- A word whose whole effect is a context. -/
theorem completes_setCx (s : State) (x : Ctx) : Completes (.next (finish (setCx s x))) (completed s x) := by
  refine ⟨_, rfl, ?_⟩
  rw [still_finish]
  simp [completed]

/-- A word whose whole effect is one register. -/
theorem writes_putReg (s : State) (d : BitVec 6) (r : Reg) : Writes (.next (finish (putReg d r s))) s d r :=
  completes_setCx s (setReg (cx s) d.toNat r)

/-- A state whose core in issue knows that its word was a transfer taken, apart from time. -/
theorem still_took {s t : State} (h : still s = still t) (hc : s.cur = t.cur) :
    still (setCore s s.cur { core s s.cur with took := true }) = still (setCore t t.cur { core t t.cur with took := true }) := by
  have e : ∀ k : Core, stillCore { k with took := true } = { stillCore k with took := true } := fun _ => rfl
  rw [still_setCore, still_setCore, e, e, ← core_still, ← core_still, h, hc]

/-- A taken transfer, apart from time. -/
theorem still_jump (target : Nat) (s : State) : still (jump target s) = still (transferred s (cx s) (target % 65536)) := by
  refine still_took (t := markIssued (setCx s { cx s with pc := target % 65536, reps := [], hint := .none, waiting := none })) ?_ rfl
  refine still_markIssued_spend _ s ?_
  have e : ∀ z : Ctx, stillCtx { z with pc := target % 65536, reps := [], hint := .none, waiting := none } =
      { stillCtx z with pc := target % 65536, reps := [], hint := .none, waiting := none } := fun _ => rfl
  rw [e, e, stillCtx_cx_spend]

/-- Waiting changes nothing but what time changes (the core in issue is listed among the cores). -/
theorem still_wait (cause : Nat) (s : State) : still (wait cause s) = still (setCore s s.cur (curCore s)) := by
  simp only [wait, spend, spendOn, spendFor, still_setCore, stillCore_chargeCore, curCore]
  rfl

/-- The end of a step changes nothing but what time changes. -/
theorem still_elapse (s : State) : still (elapse s) = still s := by
  simp only [still, elapse, List.map_map, Function.comp_def, stillCore_chargeCore]

end Sys2Proof.Machine
end

