-- ==== Sys2Proof/Laws/Memory.lean ====
section
/-! SUPPORT. Every operation that writes a memory of the machine keeps the canonical form of all four, and the machine has it at reset. -/

namespace Sys2Proof.Machine

/-! ## Taking bytes out -/

theorem wfFrom_mono (m : List Host.Cell) {x y : Nat} (h : x ≤ y) (hw : Memory.wfFrom y m = true) : Memory.wfFrom x m = true := by
  cases m with
  | nil => rfl
  | cons p t =>
    simp only [Memory.wfFrom, Bool.and_eq_true, decide_eq_true_eq] at hw ⊢
    exact ⟨⟨by omega, hw.1.2⟩, hw.2⟩

theorem filter_wfFrom (f : Host.Cell → Bool) (m : List Host.Cell) (lo : Nat) (h : Memory.wfFrom lo m = true) :
    Memory.wfFrom lo (m.filter f) = true := by
  induction m generalizing lo with
  | nil => rfl
  | cons p t ih =>
    simp only [Memory.wfFrom, Bool.and_eq_true, decide_eq_true_eq] at h
    simp only [List.filter_cons]
    split
    · simp only [Memory.wfFrom, Bool.and_eq_true, decide_eq_true_eq]
      exact ⟨h.1, ih _ h.2⟩
    · exact wfFrom_mono _ (by omega) (ih _ h.2)

theorem filter_wf (f : Host.Cell → Bool) (m : List Host.Cell) (h : Memory.wf m = true) : Memory.wf (m.filter f) = true :=
  filter_wfFrom f m 0 h

/-! ## The four memories of a state -/

theorem memoriesWf_iff (s : State) : memoriesWf s = true ↔
    Memory.wf s.mem = true ∧ Memory.wf s.bankMem = true ∧ Memory.wf s.istore = true ∧ Memory.wf s.sram = true := by
  simp [memoriesWf, and_assoc]

/-- The machine at reset has it. -/
theorem reset_memoriesWf : memoriesWf State.reset = true := rfl

/-- A state whose memories are another's has it where the other has. -/
theorem memoriesWf_congr {s t : State} (hm : t.mem = s.mem) (hb : t.bankMem = s.bankMem) (hi : t.istore = s.istore) (hs : t.sram = s.sram) :
    memoriesWf t = memoriesWf s := by
  simp only [memoriesWf, hm, hb, hi, hs]

@[simp] theorem memoriesWf_setCore (s : State) (c : Nat) (k : Core) : memoriesWf (setCore s c k) = memoriesWf s := rfl
@[simp] theorem memoriesWf_setBank (s : State) (b : Nat) (k : Bank) : memoriesWf (setBank s b k) = memoriesWf s := rfl
@[simp] theorem memoriesWf_setCluster (s : State) (c : Nat) (k : Cluster) : memoriesWf (setCluster s c k) = memoriesWf s := rfl
@[simp] theorem memoriesWf_setDie (s : State) (d : Nat) (x : Die) : memoriesWf (setDie s d x) = memoriesWf s := rfl
@[simp] theorem memoriesWf_setFunc (s : State) (f : Nat) (x : Func) : memoriesWf (setFunc s f x) = memoriesWf s := rfl
@[simp] theorem memoriesWf_setCtxOf (s : State) (c : Nat) (b : Bool) (x : Ctx) : memoriesWf (setCtxOf s c b x) = memoriesWf s := rfl
@[simp] theorem memoriesWf_setCx (s : State) (x : Ctx) : memoriesWf (setCx s x) = memoriesWf s := rfl
@[simp] theorem memoriesWf_taken (e : Event) (s : State) : memoriesWf (taken e s) = memoriesWf s := rfl
@[simp] theorem memoriesWf_send (e : Event) (s : State) : memoriesWf (send e s) = memoriesWf s := rfl

/-! ## What writes them -/

theorem homeWrite_memoriesWf (s : State) (pa : Nat) (b : List Byte) (h : memoriesWf s = true) : memoriesWf (homeWrite s pa b) = true := by
  rw [memoriesWf_iff] at h
  simp only [homeWrite]
  split
  · rwa [memoriesWf_iff]
  · rw [memoriesWf_iff]; exact ⟨memPut_wf _ _ _ h.1, h.2⟩

theorem setTag_memoriesWf (s : State) (pa : Nat) (t : Bool) : memoriesWf (setTag s pa t) = memoriesWf s := by
  simp only [setTag]; split <;> rfl

theorem homeWriteTagged_memoriesWf (s : State) (pa : Nat) (v : Word) (t : Bool) (h : memoriesWf s = true) :
    memoriesWf (homeWriteTagged s pa v t) = true := by
  simp only [homeWriteTagged]
  split
  · rw [setTag_memoriesWf]; exact homeWrite_memoriesWf _ _ _ h
  · exact homeWrite_memoriesWf _ _ _ h

theorem bankPut_memoriesWf (s : State) (i : Nat) (b : List Byte) (h : memoriesWf s = true) :
    memoriesWf { s with bankMem := memPut s.bankMem i b } = true := by
  rw [memoriesWf_iff] at h ⊢; exact ⟨h.1, memPut_wf _ _ _ h.2.1, h.2.2⟩

theorem sramPut_memoriesWf (s : State) (i : Nat) (b : List Byte) (h : memoriesWf s = true) :
    memoriesWf { s with sram := memPut s.sram i b } = true := by
  rw [memoriesWf_iff] at h ⊢; exact ⟨h.1, h.2.1, h.2.2.1, memPut_wf _ _ _ h.2.2.2⟩

theorem putPlace_memoriesWf (p : Place) (b : List Byte) (s : State) (h : memoriesWf s = true) : memoriesWf (putPlace p b s) = true := by
  cases p with
  | bank i => exact bankPut_memoriesWf s i b h
  | sram i => exact sramPut_memoriesWf s i b h

theorem setLocationClock_memoriesWf (pa n : Nat) (clk : List Nat) (s : State) : memoriesWf (setLocationClock pa n clk s) = memoriesWf s := by
  unfold setLocationClock
  split
  · rfl
  · rename_i h
    clear h
    generalize List.range _ = l
    induction l generalizing s with
    | nil => rfl
    | cons i t ih => rw [List.foldl_cons, ih]; rfl

theorem noteWriteBy_memoriesWf (d src kind : Nat) (p : Place) (n : Nat) (s : State) :
    memoriesWf (noteWriteBy d src kind p n s) = memoriesWf s := by
  cases p with
  | bank i =>
    simp only [noteWriteBy]
    split
    · rw [memoriesWf_setBank, setLocationClock_memoriesWf]
    · rw [setLocationClock_memoriesWf]
  | sram i => exact setLocationClock_memoriesWf ..

theorem writePlace_memoriesWf (c kind : Nat) (p : Place) (b : List Byte) (s : State) (h : memoriesWf s = true) :
    memoriesWf (writePlace c kind p b s) = true := by
  rw [writePlace, noteWrite, noteWriteBy_memoriesWf]; exact putPlace_memoriesWf p b s h

theorem WLoc.write_memoriesWf (w : WLoc) (raw : Nat) (s : State) (h : memoriesWf s = true) : memoriesWf (w.write raw s) = true := by
  simp only [WLoc.write]
  split <;> exact putPlace_memoriesWf _ _ _ h

theorem writeStore_memoriesWf (c a : Nat) (w : BitVec 32) (s : State) (h : memoriesWf s = true) : memoriesWf (writeStore c a w s) = true := by
  simp only [writeStore, memoriesWf_setCore]
  rw [memoriesWf_iff] at h ⊢
  exact ⟨h.1, h.2.1, memWrite_wf _ _ _ _ h.2.2.1, h.2.2.2⟩

theorem zeroBank_memoriesWf (gb : Nat) (s : State) (h : memoriesWf s = true) : memoriesWf (zeroBank gb s) = true := by
  rw [memoriesWf_iff] at h
  simp only [zeroBank]
  rw [memoriesWf_iff]
  exact ⟨h.1, filter_wf _ _ h.2.1, h.2.2⟩

theorem resetDie_memoriesWf (d : Nat) (hold : Bool) (s : State) (h : memoriesWf s = true) : memoriesWf (resetDie d hold s) = true := by
  rw [memoriesWf_iff] at h
  simp only [resetDie, memoriesWf_setDie]
  rw [memoriesWf_iff]
  exact ⟨h.1, filter_wf _ _ h.2.1, filter_wf _ _ h.2.2.1, h.2.2.2⟩

theorem resetModule_memoriesWf (s : State) (h : memoriesWf s = true) : memoriesWf (resetModule s) = true := by
  rw [memoriesWf_iff] at h ⊢
  exact ⟨h.1, rfl, rfl, rfl⟩

end Sys2Proof.Machine
end

