-- ==== Sys2Proof/Laws/Run.lean ====
section
/-! SUPPORT. The events: a meaning taken from those under way is the meaning of its row, and what a reader of the state gives after an event
has been taken out of those under way. -/

namespace Sys2Proof.Machine

/-- The meaning taken from an event is the meaning of its row. -/
theorem runEvent_eq (e : Event) (s : State) : runEvent e s = exec e.instr s := by
  cases e <;> rfl

/-! ## Readers after an event is taken -/

section
variable (e : Event) (s : State)

@[simp] theorem core_taken (c : Nat) : core (taken e s) c = core s c := rfl
@[simp] theorem curCore_taken : curCore (taken e s) = curCore s := rfl
@[simp] theorem ctxOf_taken (c : Nat) (b : Bool) : ctxOf (taken e s) c b = ctxOf s c b := rfl
@[simp] theorem cx_taken : cx (taken e s) = cx s := rfl
@[simp] theorem onSup_taken : onSup (taken e s) = onSup s := rfl
@[simp] theorem die_taken (d : Nat) : die (taken e s) d = die s d := rfl
@[simp] theorem func_taken (f : Nat) : func (taken e s) f = func s f := rfl
@[simp] theorem cluster_taken (c : Nat) : cluster (taken e s) c = cluster s c := rfl
@[simp] theorem bankAt_taken (b : Nat) : bankAt (taken e s) b = bankAt s b := rfl
@[simp] theorem access_taken (i : Nat) : access (taken e s) i = access s i := rfl
@[simp] theorem destDie_taken (d : Dest) : destDie (taken e s) d = destDie s d := rfl
@[simp] theorem sameSlice_taken (a b : Access) : sameSlice (taken e s) a b = sameSlice s a b := rfl
@[simp] theorem portTurn_taken (a : Access) : portTurn (taken e s) a = portTurn s a := rfl
@[simp] theorem portWaits_taken (a : Access) : portWaits (taken e s) a = portWaits s a := rfl
@[simp] theorem homeTurn_taken (a : Access) : homeTurn (taken e s) a = homeTurn s a := rfl
@[simp] theorem cxlDead_taken (p : Nat) : cxlDead (taken e s) p = cxlDead s p := rfl
@[simp] theorem sem_taken (i : Nat) : sem (taken e s) i = sem s i := rfl
@[simp] theorem owns_taken (f i : Nat) : owns (taken e s) f i = owns s f i := rfl
@[simp] theorem link_taken (l : Nat) : link (taken e s) l = link s l := rfl
@[simp] theorem inst_taken (r : InstRef) : inst (taken e s) r = inst s r := rfl
@[simp] theorem launch_taken (d i : Nat) : launch (taken e s) d i = launch s d i := rfl
@[simp] theorem copyOf_taken (c : Nat) (b : Bool) (i : Nat) : copyOf (taken e s) c b i = copyOf s c b i := rfl
@[simp] theorem homeRead_taken (p n : Nat) : homeRead (taken e s) p n = homeRead s p n := rfl
@[simp] theorem portOpen_taken : portOpen (taken e s) = portOpen s := rfl
@[simp] theorem elapsedOn_taken (d : Nat) : elapsedOn (taken e s) d = elapsedOn s d := rfl
@[simp] theorem image_taken (d f i : Nat) : image (taken e s) d f i = image s d f i := rfl
@[simp] theorem imageUsed_taken (d f i : Nat) : imageUsed (taken e s) d f i = imageUsed s d f i := rfl
@[simp] theorem residentSide_taken (c : Nat) : residentSide (taken e s) c = residentSide s c := rfl

end

end Sys2Proof.Machine
end

