-- ==== Sys2Proof/Tests/Slice0.lean ====
section
/-! SUPPORT. The model's own tests: words written out from the spec's encodings, ill-formed terms, single steps with results from the spec, and for
each statement with hypotheses a concrete state and operands that meet them. -/

namespace Sys2Proof.Tests

open Sys2Proof.Machine

set_option Elab.async false

/-! ## Decoding (R130 to R144): one word of each instruction, its fields placed as the opcode table's own bit positions say -/

def decodesTo (l : List (Nat × Instr)) : Bool := l.all fun p => decode true false .none p.1 == .ok p.2

def refused (l : List Instr) : Bool := l.all fun i => !i.wf true

theorem test_decode_rows_00 : decodesTo [
    (0x00568F25, .hx 0x168F25),
    (0x00A4B4AA, .hv true 37 true 2 1 2 true 2),
    (0x00E18F25, .ldi 33 0x8F25),
    (0x01218F25, .addl 33 0x8F25),
    (0x01610018, .srd 33 24),
    (0x01A10107, .swr 33 0x107),
    (0x01C04802, .trap 18 2),
    (0x02000000, .tret),
    (0x02000001, .tretK),
    (0x02000002, .tretS),
    (0x02400000, .idle),
    (0x02A14800, .ctxsv 33 18),
    (0x02E14800, .ctxld 33 18),
    (0x03000000, .brk),
    (0x03408F25, .lblpush 0x8F25),
    (0x03800000, .lblpop),
    (0x03C00000, .ifence)] = true := by decide +kernel

theorem test_decode_rows_01 : decodesTo [
    (0x042148D1, .add 33 18 13 1),
    (0x046148D1, .sub 33 18 13 1),
    (0x04A148D1, .mul 33 18 13 1),
    (0x04E148D1, .mulh 33 18 13 1),
    (0x052148D1, .mulhu 33 18 13 1),
    (0x056148D1, .div 33 18 13 1),
    (0x05A148D1, .divu 33 18 13 1),
    (0x05E148D1, .rem 33 18 13 1),
    (0x062148D1, .remu 33 18 13 1),
    (0x066148D1, .and 33 18 13 1),
    (0x06A148D1, .or 33 18 13 1),
    (0x06E148D1, .xor 33 18 13 1),
    (0x072148D1, .sll 33 18 13 1),
    (0x076148D1, .srl 33 18 13 1),
    (0x07A148D1, .sra 33 18 13 1),
    (0x07E148D1, .rol 33 18 13 1)] = true := by decide +kernel

theorem test_decode_rows_02 : decodesTo [
    (0x082148D1, .ror 33 18 13 1),
    (0x08614801, .clz 33 18 1),
    (0x08A14801, .ctz 33 18 1),
    (0x08E14801, .popc 33 18 1),
    (0x092148D1, .min 33 18 13 1),
    (0x096148D1, .max 33 18 13 1),
    (0x09A148D1, .minu 33 18 13 1),
    (0x09E148D1, .maxu 33 18 13 1),
    (0x0A2148D1, .slt 33 18 13 1),
    (0x0A6148D1, .sltu 33 18 13 1),
    (0x0AA148D0, .sel 33 18 13),
    (0x0AE14801, .sext 33 18 1),
    (0x0B214801, .zext 33 18 1),
    (0x0B6148D1, .bfx 33 18 13 true),
    (0x0BA148D0, .bfi 33 18 13)] = true := by decide +kernel

theorem test_decode_rows_03_04 : decodesTo [
    (0x0C214B25, .addi 33 18 0x325),
    (0x0C614B25, .andi 33 18 0x325),
    (0x0CA14B25, .ori 33 18 0x325),
    (0x0CE14B25, .xori 33 18 0x325),
    (0x0D214882, .slli 33 18 1 2),
    (0x0D614882, .srli 33 18 1 2),
    (0x0DA14882, .srai 33 18 1 2),
    (0x0DE14B25, .slti 33 18 0x325),
    (0x0E214B25, .sltiu 33 18 0x325),
    (0x0E614B25, .muli 33 18 0x325),
    (0x102148D1, .csetb 33 18 13 true),
    (0x106148D0, .cperm 33 18 13),
    (0x10A148D0, .coff 33 18 13),
    (0x10E14800, .cgadr 33 18),
    (0x11214800, .cgbas 33 18),
    (0x11614800, .cglen 33 18),
    (0x11A14800, .cgprm 33 18),
    (0x11E14800, .cclrt 33 18),
    (0x12214800, .capmv 33 18),
    (0x12614800, .cseal 33 18)] = true := by decide +kernel

theorem test_decode_rows_05 : decodesTo [
    (0x14123725, .beq 18 13 0x325),
    (0x14523725, .bne 18 13 0x325),
    (0x14923725, .blt 18 13 0x325),
    (0x14D23725, .bge 18 13 0x325),
    (0x15123725, .bltu 18 13 0x325),
    (0x15523725, .bgeu 18 13 0x325),
    (0x15820F25, .bc 2 3 0x325),
    (0x15C71B25, .bnc 7 6 0x325),
    (0x16168F25, .j 0x168F25),
    (0x16568F25, .jal 0x168F25),
    (0x16A14800, .jr 33 18),
    (0x16C02522, .rep 0 37 2 2),
    (0x17000000, .nop),
    (0x17400000, .exit)] = true := by decide +kernel

theorem test_decode_rows_06 : decodesTo [
    (0x182148D1, .fadd 33 18 13 1),
    (0x186148D1, .fsub 33 18 13 1),
    (0x18A148D1, .fmul 33 18 13 1),
    (0x18E148D1, .ffma 33 18 13 1),
    (0x192148D1, .fmin 33 18 13 1),
    (0x196148D1, .fmax 33 18 13 1),
    (0x19A148D1, .feq 33 18 13 1),
    (0x19E148D1, .flt 33 18 13 1),
    (0x1A2148D1, .fle 33 18 13 1),
    (0x1A614842, .fcvt 33 18 2 2),
    (0x1AA14802, .fclas 33 18 2),
    (0x1AE148D5, .fsgnj 33 18 13 1 1)] = true := by decide +kernel

theorem test_decode_rows_07 : decodesTo [
    (0x1C214B25, .ldBS 33 18 0x325),
    (0x1C614B25, .ldBZ 33 18 0x325),
    (0x1CA14B25, .ldHS 33 18 0x325),
    (0x1CE14B25, .ldHZ 33 18 0x325),
    (0x1D214B25, .ldWS 33 18 0x325),
    (0x1D614B25, .ldWZ 33 18 0x325),
    (0x1DA14B25, .ldDS 33 18 0x325),
    (0x1DE14B25, .ldDZ 33 18 0x325),
    (0x1E214B25, .ldQ 33 18 0x325),
    (0x1E614B25, .stB 33 18 0x325),
    (0x1EA14B25, .stH 33 18 0x325),
    (0x1EE14B25, .stW 33 18 0x325),
    (0x1F214B25, .stD 33 18 0x325),
    (0x1F614B25, .stQ 33 18 0x325),
    (0x1FA148D2, .ldIndexed 33 18 13 2),
    (0x1FE148D2, .stIndexed 33 18 13 2)] = true := by decide +kernel

theorem test_decode_rows_08 : decodesTo [
    (0x20214B25, .ldxBS 33 18 0x325),
    (0x20614B25, .ldxBZ 33 18 0x325),
    (0x20A14B25, .ldxHS 33 18 0x325),
    (0x20E14B25, .ldxHZ 33 18 0x325),
    (0x21214B25, .ldxWS 33 18 0x325),
    (0x21614B25, .ldxWZ 33 18 0x325),
    (0x21A14B25, .ldxDS 33 18 0x325),
    (0x21E14B25, .ldxDZ 33 18 0x325),
    (0x22214B25, .ldxQ 33 18 0x325),
    (0x22614B25, .stxB 33 18 0x325),
    (0x22A14B25, .stxH 33 18 0x325),
    (0x22E14B25, .stxW 33 18 0x325),
    (0x23214B25, .stxD 33 18 0x325),
    (0x23614B25, .stxQ 33 18 0x325),
    (0x23A148D2, .ldxIndexed 33 18 13 2),
    (0x23E148D2, .stxIndexed 33 18 13 2)] = true := by decide +kernel

theorem test_decode_rows_09 : decodesTo [
    (0x242148D1, .aadd 33 18 13 1),
    (0x246148D5, .amin 33 18 13 true 1),
    (0x24A148D5, .amax 33 18 13 true 1),
    (0x24E148D1, .aand 33 18 13 1),
    (0x252148D1, .aor 33 18 13 1),
    (0x256148D1, .axor 33 18 13 1),
    (0x25A148D1, .aswp 33 18 13 1),
    (0x25E148D1, .acas 33 18 13 1),
    (0x260048D1, .radd 18 13 1),
    (0x264048D0, .fradd 18 13)] = true := by decide +kernel

theorem test_decode_rows_0A : decodesTo [
    (0x282148D0, .att 33 18 13),
    (0x28614800, .det 33 18),
    (0x28A148D0, .hand 33 18 13),
    (0x28E14800, .bqry 33 18),
    (0x292148D0, .ring 33 18 13),
    (0x29611401, .sqry 33 5 1),
    (0x29A148D0, .revk 33 18 13),
    (0x2A39DCAD, .cpy (some 6) 3 5 6 1 2 true true 1),
    (0x2A79DC2D, .cgth (some 6) 3 5 6 2 true true 1),
    (0x2AB9DC2D, .csct (some 6) 3 5 6 2 true true 1),
    (0x2AF9DCAD, .cdst (some 6) 3 5 6 1 2 true true 1),
    (0x2B39DCAD, .cmcst (some 6) 3 5 6 1 2 true true 1),
    (0x2B6148D0, .cwcnt 33 18 13),
    (0x2BA14800, .cqry 33 18),
    (0x2BF8002D, .cfnc (some 6) 2 true true 1)] = true := by decide +kernel

theorem test_decode_rows_0B : decodesTo [
    (0x2C39DC01, .vadd (some 6) 3 5 6 true),
    (0x2C79DC01, .vsub (some 6) 3 5 6 true),
    (0x2CB9DC01, .vmul (some 6) 3 5 6 true),
    (0x2CF9DC01, .vfma (some 6) 3 5 6 true),
    (0x2D39DC00, .vmin (some 6) 3 5 6),
    (0x2D79DC00, .vmax (some 6) 3 5 6),
    (0x2DB9D001, .vabs (some 6) 3 5 true),
    (0x2DF9D001, .vneg (some 6) 3 5 true),
    (0x2E39DC02, .vcmp (some 6) 3 5 6 2),
    (0x2E79DC02, .vsel (some 6) 3 5 6 2),
    (0x2EB9DC00, .vand (some 6) 3 5 6),
    (0x2EF9DC00, .vor (some 6) 3 5 6),
    (0x2F39DC00, .vxor (some 6) 3 5 6),
    (0x2F79DC00, .vsll (some 6) 3 5 6),
    (0x2FB9DC00, .vsrl (some 6) 3 5 6),
    (0x2FF9DC00, .vsra (some 6) 3 5 6)] = true := by decide +kernel

theorem test_decode_rows_0C : decodesTo [
    (0x3039D000, .vcvt (some 6) 3 5),
    (0x3079D003, .vqnt (some 6) 3 5 true true),
    (0x30B9DC03, .vdqnt (some 6) 3 5 6 true true),
    (0x30F9D082, .vred (some 6) 3 5 2 2),
    (0x3139D0A0, .vscan (some 6) 3 5 2 true),
    (0x3179DC00, .vperm (some 6) 3 5 6),
    (0x31B9D002, .vbcst (some 6) 3 5 2),
    (0x31F9D000, .vmov (some 6) 3 5),
    (0x3239DC00, .mand (some 6) 3 5 6),
    (0x3279DC00, .mor (some 6) 3 5 6),
    (0x32B9DC00, .mxor (some 6) 3 5 6),
    (0x32F9D000, .mnot (some 6) 3 5),
    (0x33211400, .mcnt 33 5),
    (0x3379DC00, .mset (some 6) 3 5 6),
    (0x33798001, .msetU (some 6) 3)] = true := by decide +kernel

theorem test_decode_rows_0D : decodesTo [
    (0x3439DC01, .vrcp (some 6) 3 5 6 true),
    (0x3479DC01, .vrsq (some 6) 3 5 6 true),
    (0x34B9DC01, .vexp2 (some 6) 3 5 6 true),
    (0x34F9DC01, .vlog2 (some 6) 3 5 6 true),
    (0x3539DC01, .vtanh (some 6) 3 5 6 true),
    (0x3579DC01, .vsigm (some 6) 3 5 6 true),
    (0x35B9DC01, .vsin (some 6) 3 5 6 true),
    (0x35F9DC01, .vcos (some 6) 3 5 6 true),
    (0x362148D2, .tdem 33 18 13 2),
    (0x366148D0, .tred 33 18 13),
    (0x36A14801, .tqry 33 18 true),
    (0x36E148D1, .terr 33 18 13 1),
    (0x37054800, .gset 5 18),
    (0x37460000, .gclr 6),
    (0x37830000, .gwait 3)] = true := by decide +kernel

theorem test_decode_rows_0E : decodesTo [
    (0x382148D1, .padd 33 18 13 true),
    (0x386148D1, .psub 33 18 13 true),
    (0x38A148D1, .pmul 33 18 13 true),
    (0x38E148D1, .pfma 33 18 13 true),
    (0x392148D0, .pmin 33 18 13),
    (0x396148D0, .pmax 33 18 13),
    (0x39A148D9, .pdot 33 18 13 true 1),
    (0x39E14895, .pcvt 33 18 9 true 1),
    (0x3A2148D1, .pscl 33 18 13 true),
    (0x3A6148A5, .pqnt 33 18 10 1 1)] = true := by decide +kernel

theorem test_decode_rows_0F : decodesTo [
    (0x3C3B0001, .mclm (some 6) 6 1),
    (0x3C798000, .mrel (some 6) 3),
    (0x3CB9DC2C, .mld (some 6) 3 5 6 2 true true),
    (0x3CF9DC1E, .mma (some 6) 3 5 6 false true true true 2),
    (0x3D39DDAF, .mdrn (some 6) 3 5 6 true true 2 true true true true),
    (0x3D79D02C, .mspl (some 6) 3 5 2 true true),
    (0x3DB9D02C, .mrst (some 6) 3 5 2 true true),
    (0x3DF9DC00, .msnd (some 6) 3 5 6),
    (0x3E398000, .mzacc (some 6) 3),
    (0x3E799000, .mmov (some 6) 3 1),
    (0x3E798C01, .mmovG (some 6) 3 6),
    (0x3E79A002, .mmovT (some 6) 3 2),
    (0x3EA14800, .mqry 33 18),
    (0x3EE10000, .mwait 33)] = true := by decide +kernel

theorem test_decode_rows_10 : decodesTo [
    (0x40214800, .bar 33 18),
    (0x40400000, .join),
    (0x40A148D0, .lead 33 18 13),
    (0x40E148D0, .follow 33 18 13),
    (0x412148D2, .send 33 18 13 2),
    (0x410008D8, .sendPort 2 13),
    (0x416148D0, .recv 33 18 13),
    (0x41614801, .recvT 33 18),
    (0x41610032, .recvPort 33 3),
    (0x41610423, .recvF 33 1 2),
    (0x41A148D0, .precv 33 18 13),
    (0x41E14800, .probeT 33 18),
    (0x41E148D1, .probe 33 18 13),
    (0x42000002, .fence 2),
    (0x426148D0, .tspawn 33 18 13),
    (0x42804800, .tdone 18),
    (0x42E14800, .tdec 33 18),
    (0x4339DC03, .baddq (some 6) 3 5 6 true true),
    (0x43400000, .txb),
    (0x43A10001, .txc 33 true)] = true := by decide +kernel

theorem test_decode_rows_10_11_15 : decodesTo [
    (0x43C00000, .txa),
    (0x442148D0, .shash 33 18 13),
    (0x446148D0, .sverf 33 18 13),
    (0x44A148D0, .ssign 33 18 13),
    (0x44E148D0, .scryp 33 18 13),
    (0x44E148D1, .scrypDec 33 18 13),
    (0x452148D0, .skey 33 18 13),
    (0x452148D1, .skeyWipe 33 18 13),
    (0x456148D0, .smext 33 18 13),
    (0x54C548D2, .sbind 19 5 18 13 2)] = true := by decide +kernel
/-! ## Ill-formed terms: at least one for each check of WellFormed.lean (R132) -/

theorem test_illformed_1 : refused [
    .hv false 1 false 0 0 0 false 0,
    .hv true 0 false 1 0 0 false 0,
    .hv true 0 false 0 3 0 false 0,
    .hv true 0 false 0 0 6 false 0,
    .hv true 0 false 0 0 0 false 1,
    .srd 1 4,
    .swr 1 0x0FFF,
    .add 1 2 3 3,
    .sub 1 2 3 3,
    .mul 1 2 3 3,
    .mulh 1 2 3 3,
    .mulhu 1 2 3 3,
    .div 1 2 3 3,
    .divu 1 2 3 3,
    .rem 1 2 3 3,
    .remu 1 2 3 3,
    .and 1 2 3 3,
    .or 1 2 3 3,
    .xor 1 2 3 3,
    .sll 1 2 3 3] = true := by decide +kernel

theorem test_illformed_2 : refused [
    .srl 1 2 3 3,
    .sra 1 2 3 3,
    .rol 1 2 3 3,
    .ror 1 2 3 3,
    .clz 1 2 3,
    .ctz 1 2 3,
    .popc 1 2 3,
    .min 1 2 3 3,
    .max 1 2 3 3,
    .minu 1 2 3 3,
    .maxu 1 2 3 3,
    .slt 1 2 3 3,
    .sltu 1 2 3 3,
    .slli 1 2 1 64,
    .srli 1 2 2 32,
    .srai 1 2 3 0,
    .bc 8 0 0,
    .bc 1 4 0,
    .bnc 6 8 0,
    .rep 1 1 0 0] = true := by decide +kernel

theorem test_illformed_3 : refused [
    .fcvt 1 2 14 0,
    .fcvt 1 2 0 14,
    .fclas 1 2 9,
    .fsgnj 1 2 3 3 0,
    .ldIndexed 1 2 3 9,
    .stIndexed 1 2 3 5,
    .ldxIndexed 1 2 3 9,
    .stxIndexed 1 2 3 5,
    .aadd 1 2 3 2,
    .amin 1 2 3 false 2,
    .amax 1 2 3 false 2,
    .aand 1 2 3 2,
    .aor 1 2 3 2,
    .axor 1 2 3 2,
    .aswp 1 2 3 3,
    .acas 1 2 3 3,
    .radd 1 2 2,
    .sqry 1 8 0,
    .sqry 1 0 2,
    .cpy none 0 0 0 0 7 true true 0] = true := by decide +kernel

theorem test_illformed_4 : refused [
    .cpy none 0 0 0 0 1 false false 0,
    .cgth none 0 0 0 7 true true 0,
    .csct none 0 0 0 7 true true 0,
    .cdst none 0 0 0 0 7 true true 0,
    .cmcst none 0 0 0 0 1 false false 0,
    .cfnc none 7 true true 0,
    .vcmp none 0 0 0 7,
    .vdqnt none 0 0 1 false false,
    .vred none 0 0 6 0,
    .vred none 0 0 0 14,
    .vscan none 0 0 6 false,
    .vbcst none 0 0 14,
    .mcnt 1 8,
    .vrcp none 0 0 1 false,
    .vrsq none 0 0 1 false,
    .vexp2 none 0 0 1 false,
    .vlog2 none 0 0 1 false,
    .vtanh none 0 0 1 false,
    .vsigm none 0 0 1 false,
    .vsin none 0 0 1 false] = true := by decide +kernel

theorem test_illformed_5 : refused [
    .vcos none 0 0 1 false,
    .tdem 1 2 3 3,
    .terr 1 2 3 2,
    .gset 8 0,
    .gclr 8,
    .gwait 8,
    .pcvt 1 2 0 false 0,
    .pqnt 1 2 1 0 0,
    .mclm none 1 1,
    .mclm none 2 2,
    .mclm none 0 3,
    .mld none 0 0 0 7 true true,
    .mma none 4 0 0 false false false false 1,
    .mma none 0 0 0 false false false false 0,
    .mma none 0 0 0 true false false true 2,
    .mdrn none 4 0 0 false false 0 false false false false,
    .mdrn none 0 7 0 false false 0 false false false true,
    .mdrn none 0 0 0 false false 7 true true false false,
    .mspl none 4 0 0 false false,
    .mspl none 0 0 7 true true] = true := by decide +kernel

theorem test_illformed_6 : refused [
    .mrst none 4 0 0 false false,
    .msnd none 0 0 7,
    .mzacc none 4,
    .mmov none 4 0,
    .mmov none 0 4,
    .mmovG none 4 0,
    .mmovT none 0 4,
    .send 1 2 3 7,
    .sendPort 4 0,
    .recv 1 1 0,
    .recvT 1 1,
    .recvPort 0 4,
    .recvF 0 4 0,
    .recvF 0 0 4,
    .fence 7,
    .sbind 20 0 0 0 0,
    .sbind 0 8 0 0 0] = true := by decide +kernel
open Sys2Proof.Claims

/-! ## What meets the hypotheses of the statements

For each statement with hypotheses, concrete states and operands that meet them, clause by clause. -/

/-- Core 0 runs a loaded user context, with traps on. -/
def usr (x : Ctx) : State := setCore State.reset 0 { power := .on, uload := true, tvec := 1, user := x }

/-- Core 0 runs its supervisor, with traps on. -/
def spv (x : Ctx) : State := setCore State.reset 0 { power := .on, supOn := true, tvec := 1, sup := x }

/-- A context with k1, k2 and k3. -/
def ks (a b c : Word) : Ctx := { regs := [(1, { val := a }), (2, { val := b }), (3, { val := c })] }

/-- A capability for all of [0, 2^52), with every permission, tagged, in k1, and a number in k2. -/
def caps (adr : Nat) (b : Word) : Ctx :=
  { regs := [(1, { val := BitVec.ofNat 128 (adr + 1 * 2 ^ 66 + 38 * 2 ^ 80 + 0xFF * 2 ^ 86), tag := true }), (2, { val := b })] }

theorem wit_IntegerResults : Width 0 128 ∧ Width 1 64 ∧ Width 2 32 := by unfold Width; decide +kernel

theorem wit_DivisionResults :
    (Width 2 32 ∧ (rv (usr (ks 7 (-1) 0)) 2).setWidth 32 ≠ (0 : BitVec 32)) ∧
    (Width 1 64 ∧ (rv (usr (ks 7 (1 <<< 64) 0)) 2).setWidth 64 = (0 : BitVec 64) ∧ (cx (usr (ks 7 (1 <<< 64) 0))).dzt = false) ∧
    (let s := usr { ks 7 0 0 with dzt := true }
     (rv s 2).setWidth 128 = (0 : BitVec 128) ∧ (cx s).dzt = true ∧ (curCore s).tvec % 2 = 1 ∧ onSup s = false) ∧
    (let s := spv { ks 7 0 0 with dzt := true }
     (rv s 2).setWidth 128 = (0 : BitVec 128) ∧ (cx s).dzt = true ∧ (curCore s).tvec % 2 = 1 ∧ onSup s = true ∧ (curCore s).spend = false) := by
  unfold Width; decide +kernel

theorem wit_CountsSelectsAndFields : Width 0 128 ∧ Width 1 64 ∧ Width 2 32 := by unfold Width; decide +kernel

theorem wit_ImmediateResults :
    (Width 0 128 ∧ (127 : BitVec 7).toNat < 128) ∧ (Width 1 64 ∧ (63 : BitVec 7).toNat < 64) ∧ (Width 2 32 ∧ (31 : BitVec 7).toNat < 32) := by
  unfold Width; decide +kernel

theorem wit_HintsAndWideImmediates :
    (cx (usr {})).hint = .none ∧ (cx (usr { hint := .hx [5] })).hint = .hx [(5 : BitVec 22).toNat] ∧
    (cx (usr { hint := .hx [5, 6] })).hint = .hx [(5 : BitVec 22).toNat, (6 : BitVec 22).toNat] := by decide +kernel

theorem wit_SoftwareTraps :
    (onSup (usr {}) = false ∧ (curCore (usr {})).tvec % 2 = 1) ∧
    (onSup (spv {}) = true ∧ (curCore (spv {})).tvec % 2 = 1 ∧ (curCore (spv {})).spend = false) := by decide +kernel

/-- Core 0 as `k`, running its user context or its supervisor. -/
def one (k : Core) : State := setCore State.reset 0 { k with power := .on }

theorem wit_TrapsOffAndDoubleTraps :
    (let s := one { uload := true }
     onSup s = false ∧ (curCore s).tvec % 2 = 0 ∧ (curCore s).uload = true ∧ (curCore s).killing = false) ∧
    (let s := one { supOn := true, uload := true }
     onSup s = true ∧ (curCore s).tvec % 2 = 0 ∧ (curCore s).uload = true) ∧
    (let s := one { supOn := true, tvec := 1, spend := true }
     onSup s = true ∧ (curCore s).spend = true) := by decide +kernel

theorem wit_ReturnsFromTraps :
    (let s := one { supOn := true, uload := true }
     onSup s = true ∧ (curCore s).uload = true ∧ (curCore s).killing = false) ∧
    (let s := one { supOn := true, spend := true, repShadow := some [] }
     onSup s = true ∧ (curCore s).spend = true) ∧
    (onSup (spv {}) = true ∧ (curCore (spv {})).tvec % 2 = 1 ∧ (curCore (spv {})).spend = false ∧ (curCore (spv {})).uload = false) := by
  decide +kernel

theorem wit_Privilege :
    (decode false false .none 0x02400000 = .ok .idle ∧ 0x02400000 / 2 ^ 22 = 0x009) ∧
    (decode false false .none 0x02000000 = .ok .tret ∧ 0x02000000 / 2 ^ 22 = 0x008) ∧
    (onSup (usr {}) = false ∧ (curCore (usr {})).tvec % 2 = 1) ∧
    (0x214 : BitVec 16) ∈ supervisorReads ∧ (0x210 : BitVec 16) ∈ supervisorWrites := by decide +kernel

theorem wit_SpecialRegisters :
    ((registerReads (usr {})).any (fun p => p.1 == 0 && !p.2.1) = true) ∧
    ((registerReads (spv {})).any (fun p => p.1 == 0x100 && p.2.1) = true ∧ onSup (spv {}) = true) ∧
    ((registerReads (usr {})).any (fun p => p.1 == 3) = true ∧ rstoBusy (curCore (usr {})) = false) ∧
    ((registerWrites (spv {}) 0xFE01).any (fun p => p.1 == 0x100 && p.2.1 && p.2.2.1) = true) ∧
    ((registerWrites (spv {}) 0xFE02).any (fun p => p.1 == 0x100 && !p.2.2.1) = true ∧ (curCore (spv {})).tvec % 2 = 1 ∧
      (curCore (spv {})).spend = false) ∧
    ((registerWrites (usr {}) 0x20).any (fun p => p.1 == 2 && !p.2.1 && !p.2.2.1) = true ∧ onSup (usr {}) = false ∧
      (curCore (usr {})).tvec % 2 = 1) ∧
    ((registerTakes (usr {})).any (fun p => p.1 == 0x231 && !p.2.1) = true) ∧
    ((registerWrites (usr {}) 0).any (fun p => p.1 == 0x28 && !p.2.1 && !p.2.2.1) = true) := by decide +kernel

theorem wit_Jumps :
    (rv (usr (ks 0x1FFFC 0 0)) 1).toNat % 4 = 0 ∧
    ((rv (usr (ks 3 0 0)) 1).toNat % 4 ≠ 0 ∧ (curCore (usr (ks 3 0 0))).tvec % 2 = 1 ∧ onSup (usr (ks 3 0 0)) = false) ∧
    ((rv (spv (ks 3 0 0)) 1).toNat % 4 ≠ 0 ∧ (curCore (spv (ks 3 0 0))).tvec % 2 = 1 ∧ onSup (spv (ks 3 0 0)) = true ∧
      (curCore (spv (ks 3 0 0))).spend = false) := by decide +kernel

theorem wit_RepetitionStarts :
    (let s := usr { pc := 0xFFFC }
     let x := cx s
     (∀ l, x.role ≠ .attached l) ∧ x.reps.length < 2 ∧ endsBody (bodyOpcode s ((x.pc + 4 * 16) % 65536)) = false ∧ beyondOuter x.pc 16 x.reps = false ∧
       (if (0 : BitVec 6) = 0 then (255 : BitVec 8).toNat else 0) ≠ 0) ∧
    (let s := usr { ks 0 0 0 with reps := [{ start := 0, n := 16, stride := 0, count := 3 }] }
     let x := cx s
     (∀ l, x.role ≠ .attached l) ∧ x.reps.length < 2 ∧ endsBody (bodyOpcode s ((x.pc + 4 * 1) % 65536)) = false ∧ beyondOuter x.pc 1 x.reps = false ∧
       (rv s 1).toNat % 2 ^ 32 = 0) ∧
    (let r : Rep := { start := 0, n := 16, stride := 0, count := 3 }
     let s := usr { reps := [r, r] }
     (∀ l, (cx s).role ≠ .attached l) ∧ 2 ≤ (cx s).reps.length ∧ onSup s = false ∧ (curCore s).tvec % 2 = 1) ∧
    (let s := { usr {} with istore := [(7, 0x16)] }
     (∀ l, (cx s).role ≠ .attached l) ∧ endsBody (bodyOpcode s (4 * 1)) = true) ∧
    (cx (usr { role := .attached 1 })).role = .attached 1 := by
  refine ⟨⟨fun l h => ?_, ?_⟩, ⟨fun l h => ?_, ?_⟩, ⟨fun l h => ?_, ?_⟩, ⟨fun l h => ?_, ?_⟩, rfl⟩
  · exact Role.noConfusion h
  · decide +kernel
  · exact Role.noConfusion h
  · decide +kernel
  · exact Role.noConfusion h
  · decide +kernel
  · exact Role.noConfusion h
  · decide +kernel

theorem wit_ControlWords :
    (({} : Ctx).reps = []) ∧
    (let r : Rep := { start := 0, n := 2, stride := 0, count := 2 }
     let x : Ctx := { reps := [r] }
     x.reps = [r] ∧ (x.pc + 4) % 65536 ≠ (r.start + 4 * r.n) % 65536) ∧
    (let r : Rep := { start := 0, n := 1, stride := 0, count := 2 }
     let x : Ctx := { reps := [r] }
     (x.pc + 4) % 65536 = (r.start + 4 * r.n) % 65536 ∧ r.pass + 1 < r.count) ∧
    (let r : Rep := { start := 0, n := 1, stride := 0, count := 2, pass := 1 }
     let x : Ctx := { reps := [r] }
     (x.pc + 4) % 65536 = (r.start + 4 * r.n) % 65536 ∧ ¬ r.pass + 1 < r.count) ∧
    ((∀ m ∈ (cx (usr {})).vq, m.grd ≠ some 3) ∧ (∀ m ∈ (cx (usr {})).mq, m.grd ≠ some 3) ∧ (∀ m ∈ (cx (usr {})).cq, m.grd ≠ some 3) ∧
      (∀ m ∈ (cx (usr {})).fills, m.cmd.grd ≠ some 3) ∧ (∀ m ∈ (cx (usr {})).mstores, m.cmd.grd ≠ some 3) ∧
      (∀ m ∈ (cx (usr {})).mmas, m.grd ≠ some 3) ∧ some 3 ∉ (cx (usr {})).msnds) ∧
    (let s := usr { inbox := [.msg 5 1] }
     (cx s).tx = none ∧ (cx s).inbox ≠ []) ∧
    (let s := { usr { dbg := { brkh := true } } with nolorn := { fuse := 0, unlk := true } }
     onSup s = false ∧ (curCore s).user.dbg.brkh = true ∧ portOpen s = true) ∧
    (onSup (usr {}) = false ∧ (curCore (usr {})).user.dbg.brkh = false ∧ (curCore (usr {})).tvec % 2 = 1) := by decide +kernel

theorem wit_ExitAndJoin :
    (let s := spv {}
     (cx s).tx = none ∧ enginesBusy (cx s) = false ∧ onSup s = true ∧ (cx s).region = none) ∧
    (let s := usr {}
     (cx s).tx = none ∧ enginesBusy (cx s) = false ∧ onSup s = false ∧ (cx s).role = .single ∧ (curCore s).uload = true ∧ (curCore s).killing = false) ∧
    (cx (usr { role := .attached 1 })).role = .attached 1 ∧
    (onSup (usr { role := .detached 1 }) = false ∧ (cx (usr { role := .detached 1 })).role = .detached 1) ∧
    (let s := setCore (usr { role := .leader [1] }) 1 { user := { role := .joining 0 8 } }
     onSup s = false ∧ (cx s).role = .leader [1] ∧ followersAway s [1] = false) := by decide +kernel

theorem wit_Capabilities :
    (let base := ((rv (usr (caps 0 16383)) 1).extractLsb' 0 52).toNat
     let stop := base + (rv (usr (caps 0 16383)) 2).toNat
     (stop + 2 ^ 0 - 1) / 2 ^ 0 - base / 2 ^ 0 ≤ 16383) ∧
    (let base := ((rv (usr (caps 1 16384)) 1).extractLsb' 0 52).toNat
     let stop := base + (rv (usr (caps 1 16384)) 2).toNat
     (stop + 2 ^ 1 - 1) / 2 ^ 1 - base / 2 ^ 1 ≤ 16383 ∧ ∀ e < 1, ¬ (stop + 2 ^ e - 1) / 2 ^ e - base / 2 ^ e ≤ 16383) ∧
    (let base := ((rv (usr (caps 0 (1 <<< 127))) 1).extractLsb' 0 52).toNat
     let stop := base + (rv (usr (caps 0 (1 <<< 127))) 2).toNat
     ∀ e, e ≤ 38 → ¬ (stop + 2 ^ e - 1) / 2 ^ e - base / 2 ^ e ≤ 16383) := by
  refine ⟨by decide +kernel, by decide +kernel, ?_⟩
  intro base stop e he
  interval_cases e <;> decide +kernel

theorem wit_FloatArithmetic :
    (let s := usr { fmt := 0x00FF150A }
     roundMode (cx s) = 5 ∧ rstoBusy (curCore s) = false) ∧ roundMode (cx (usr {})) ≠ 5 := by decide +kernel

theorem wit_FloatComparesAndClasses : ((0 : BitVec 2) = 0 ∧ 32 = 32) ∧ ((1 : BitVec 2) = 1 ∧ 19 = 19) ∧ ((3 : BitVec 2) = 3 ∧ 16 = 16) := by decide +kernel

theorem wit_ArithmeticAndComparisonAreExact :
    Finite (.fin true 3 (-2)) ∧ Finite (.fin true 0 0) ∧ Finite (.fin false 0 5) ∧ (FV.fin true 0 0).isZero = true ∧ (FV.fin false 0 5).isZero = true :=
  ⟨trivial, trivial, trivial, rfl, rfl⟩

theorem wit_FusedSpecialCases :
    zeroTimesInf (.fin false 0 0) (.inf true) = true ∧
    (zeroTimesInf (.nan true) (.inf true) = false ∧ ((FV.nan true).isNan || (FV.inf true).isNan || (FV.inf true).isNan) = true) ∧
    ((FV.inf false).isNan = false ∧ (FV.fin true 1 0).isNan = false ∧ zeroTimesInf (.inf false) (.fin true 1 0) = false ∧
      ((FV.inf false).isInf || (FV.fin true 1 0).isInf) = true ∧ Finite (.fin true 0 0)) ∧
    (Finite (.fin true 1 0) ∧ Finite (.fin true 0 0)) ∧
    ((FV.fin true 1 0).isZero && (FV.fin false 2 (-1)).isZero && true == false) = false ∧
    ((FV.fin true 0 0).isZero = true ∧ (FV.fin true 0 3).isZero = true ∧ (FV.fin true 0 0).neg = (FV.fin true 0 3).neg) ∧
    ratOf (.fin true 1 0) = - ratOf (.fin false 2 (-1)) := by
  refine ⟨by decide, by decide, ⟨rfl, rfl, by decide, rfl, trivial⟩, ⟨trivial, trivial⟩, by decide, by decide, ?_⟩
  norm_num [ratOf]

theorem wit_FormatsRoundTrip :
    (0 ≤ 16 ∧ 0x80000001 < 2 ^ elemBits 0 ∧ Finite (valueOf 0 0x80000001)) ∧ (16 ≤ 16 ∧ 1 < 2 ^ elemBits 16 ∧ Finite (valueOf 16 1)) := by
  refine ⟨⟨by decide, by decide +kernel, ?_⟩, by decide, by decide +kernel, ?_⟩ <;> exact trivial

theorem wit_RoundingAndOverflow :
    ((floatFmt 0).isSome = true ∧ (convert 0 (.fin false 1 0) 0 true { seed := 1, flags := 0 }).2.flags &&& flagOF = 0) ∧
    ((floatFmt 0).isSome = true ∧ (convert 0 (.fin true 1 200) 3 false { seed := 1, flags := 0 }).2.flags &&& flagOF ≠ 0) := by decide +kernel

/-- A context whose slot 0 holds bank 3, with every permission. -/
def slot0 (x : Ctx) : Ctx := { x with attach := [(0, { valid := true, perm := 15, bank := 3 })] }

theorem wit_LocalLoadsAndStores :
    (let s := usr (slot0 (ks 0x7FF0 15 0))
     LocalOk s (localAddr s 1 0 16) 16 1 (.bank (3 * 32768 + 0x7FF0)) ∧
     LocalOk s (((rv s 1).toNat + (rv s 2).toNat) % 2 ^ 32) 1 1 (.bank (3 * 32768 + 0x7FFF)) ∧
     LocalOk s (localAddr s 1 (-1) 8) 8 2 (.bank (3 * 32768 + 0x7FE8)) ∧
     LocalOk s (((rv s 1).toNat + (rv s 3).toNat) % 2 ^ 32) 16 2 (.bank (3 * 32768 + 0x7FF0))) := by
  unfold LocalOk; decide +kernel

theorem wit_LocalStoreFrame : memoriesWf { State.reset with bankMem := [(5, 1), (7, 2)], sram := [(0, 9)] } = true := by decide +kernel

theorem wit_LocalAddressesAndAlignment :
    (let x := slot0 {}
     let e := tget x.attach (0x7FFF / 32768) {}
     0x7FFF < 0x200000 ∧ x.tx = none ∧ e.valid = true ∧ e.st ≠ 1 ∧ e.st ≠ 3 ∧ e.perm &&& 3 = 3) ∧
    (let x : Ctx := {}
     0x1FFFFF < 0x200000 ∧ x.tx = none ∧ (tget x.attach (0x1FFFFF / 32768) {}).valid = false) ∧
    (let x : Ctx := { attach := [(0, { valid := true, st := 1 })] }
     (tget x.attach 0 {}).valid = true ∧ (tget x.attach 0 {}).st = 1) ∧
    (let x : Ctx := { attach := [(0, { valid := true, perm := 1 })] }
     (tget x.attach 0 {}).valid = true ∧ (tget x.attach 0 {}).perm &&& 2 ≠ 2) ∧
    (let x : Ctx := { tx := some { acts := [{ kind := .det 63, reg := 9, status := 0, bank := 3 }] } }
     x.staged (0x1FFFFF / 32768) = true) ∧
    (let s := usr (ks 0x1001 0 0)
     onSup s = false ∧ (curCore s).tvec % 2 = 1 ∧ localAddr s 1 (-512) 2 % 2 ≠ 0 ∧ localAddr s 1 511 16 % 16 ≠ 0) := by decide +kernel

/-- A capability for [0, 16383 x 2^38) at `adr`, with the permissions and seal given, tagged or not, in k1; k2 and k3. -/
def capk (adr perm sl : Nat) (t : Bool) (b c : Word) : Ctx :=
  { regs := [(1, { val := BitVec.ofNat 128 (adr + 16383 * 2 ^ 66 + 38 * 2 ^ 80 + perm * 2 ^ 86 + sl * 2 ^ 102), tag := t }), (2, { val := b }),
             (3, { val := c })] }

theorem wit_GlobalLoadsAndStores :
    let s := usr (capk 0x1000 3 0 true 0 (-16))
    GlobalOk s 1 ((-1 : BitVec 10).toInt * 16) 16 true false capLD 0xFF0 s ∧ GlobalOk s 1 (rv s 3).toInt 16 true false capLD 0xFF0 s ∧
    GlobalOk s 1 ((1 : BitVec 10).toInt * 1) 1 false true capSD 0x1001 s ∧ GlobalOk s 1 (rv s 2).toInt 8 false true capSD 0x1000 s := by
  refine ⟨⟨?_, ?_, ?_, ?_, ?_, ?_, rfl, ?_, ?_⟩, ⟨?_, ?_, ?_, ?_, ?_, ?_, rfl, ?_, ?_⟩, ⟨?_, ?_, ?_, ?_, ?_, ?_, rfl, ?_, ?_⟩,
    ?_, ?_, ?_, ?_, ?_, ?_, rfl, ?_, ?_⟩ <;> decide +kernel

theorem wit_AtomicsPosted :
    let s := usr (capk 0x1000 0x83 0 true 0 0)
    GlobalOk s 1 0 16 true true (fun c => capAT c && capSD c && capLD c) 0x1000 s ∧
    GlobalOk s 1 0 4 true true (fun c => capAT c && capSD c) 0x1000 s := by
  refine ⟨⟨?_, ?_, ?_, ?_, ?_, ?_, rfl, ?_, ?_⟩, ?_, ?_, ?_, ?_, ?_, ?_, rfl, ?_, ?_⟩ <;> decide +kernel

theorem wit_AtomicsPosted_direct :
    let s := usr (capk 0x1000 0x83 0 true 0 0)
    (∀ n ∈ [(0 : BitVec 2), 1, 2], DirectOk s 1 (2 ^ (n.toNat + 2)) (fun c => capAT c && capSD c && capLD c)) ∧
    DirectOk s 1 16 (fun c => capAT c && capSD c) ∧ DirectOk s 1 4 (fun c => capAT c && capSD c) := by
  unfold DirectOk; decide +kernel

theorem wit_GlobalChecksInOrder :
    (let s := usr (capk 0x1000 3 0 false 0 0)
     onSup s = false ∧ (curCore s).tvec % 2 = 1 ∧ (rk s 1).tag = false) ∧
    (let s := usr (capk 0x1000 3 1 true 0 0)
     (rk s 1).tag = true ∧ capSeal (rv s 1).toNat ≠ 0) ∧
    (let s := usr (capk 0x1004 3 0 true 0 0)
     let c := (rv s 1).toNat
     let va : Int := capAddr c + (-512 : BitVec 10).toInt * 8
     (rk s 1).tag = true ∧ capSeal c = 0 ∧ capLD c = true ∧ capSD c = true ∧ capIn c va 8 = true ∧ (va % 2 ^ 52).toNat % 8 ≠ 0) ∧
    (let s := usr (capk 0 3 0 true 0 0)
     let c := (rv s 1).toNat
     capIn c (capAddr c + (-1 : BitVec 10).toInt * 8) 8 = false) ∧
    (let s := usr (capk 0xFF00000000000 3 0 true 0 0)
     let c := (rv s 1).toNat
     let va : Int := capAddr c + (0 : BitVec 10).toInt * 8
     capIn c va 8 = true ∧ (va % 2 ^ 52).toNat % 8 = 0 ∧ inCoreSpace (va % 2 ^ 52).toNat = true) ∧
    (let s := usr (capk 0x1000 2 0 true 0 0)
     (rk s 1).tag = true ∧ capSeal (rv s 1).toNat = 0 ∧ capLD (rv s 1).toNat = false) ∧
    (let s := usr (capk 0x1000 1 0 true 0 0)
     (rk s 1).tag = true ∧ capSeal (rv s 1).toNat = 0 ∧ capSD (rv s 1).toNat = false) := by decide +kernel

/-- A launch snapshot with every field zero but its region. -/
def snap (rcb : Nat) : Snapshot :=
  { rcb := rcb, prio := 0, fhimg := 0, fhent := 0, flog := 0, flogn := 0, acct := 0, tenant := 0, tmask := 0, vf := 0, pfn := 0, witbase := 0, witn := 0 }

/-- A watchpoint on every byte below 256 of global memory, for reads and writes, that traps (`act` 1) or halts (2). -/
def watching (act : Nat) (x : Ctx) : Ctx := { x with dbg := { wpa := [(0, act * 2 ^ 55 + 3 * 2 ^ 53 + 2 ^ 52)], wpm := [(0, 0xFFFFFFFFFFF00)] } }

theorem wit_GlobalChecksInOrder_late :
    (∃ w ∈ globalWords (usr {}) 3 1 2 0 1, w.1 = .ldxDS 3 1 0 ∧ w.2.1 = 0 ∧ w.2.2.1 = 8) ∧
    (let s := setFunc (usr { capk 0x1000 3 0 true 0 0 with region := some (snap 0x1000) }) 0 { s1en := true }
     (match translate 0x1000 true false s with | .wait _ => true | _ => false) = true ∧
     (match translate 0x1000 true false (setCore s 0 { curCore s with walkFail := some ⟨1, false, 0x27, 0x1000⟩ }) with
       | .trap cause val _ => cause == 0x27 && val == 0x1000 | _ => false) = true) ∧
    (let s := usr (capk 0x1FFFFFFFFFF8 3 0 true 0 0)
     (match translate 0x1FFFFFFFFFF8 true false s with | .ok pa t => pa == 0x1FFFFFFFFFF8 && !physOk t pa | _ => false) = true) ∧
    (let s := usr (watching 1 (capk 8 3 0 true 0 0))
     (match translate 8 true false s with
       | .ok pa t => physOk t pa && (watchHit (cx t).dbg 1 1 8 8 [0, 1, 2, 3] == some (1, 0, 8)) | _ => false) = true) ∧
    (let s := { usr (watching 2 (capk 8 3 0 true 0 0)) with nolorn := { fuse := 0, unlk := true } }
     (match translate 8 true false s with
       | .ok pa t => physOk t pa && (watchHit (cx t).dbg 1 1 8 8 [0, 1, 2, 3] == some (2, 0, 8)) && portOpen t && !onSup t | _ => false) = true) := by
  refine ⟨⟨_, List.mem_of_getElem? (i := 6) rfl, rfl, rfl, rfl⟩, ?_⟩
  decide +kernel

theorem wit_AtomicResults : 4 ∈ [4, 8, 16] ∧ 8 ∈ [4, 8, 16] ∧ 16 ∈ [4, 8, 16] := by decide

/-- A context with three FP32 streams of eight elements in slot 0, bound to s1, s2 and s3. -/
def strs (x : Ctx) : Ctx :=
  { slot0 x with streams := [(1, { fmt := 0, base := 0, stride := 1, count := 8 }), (2, { fmt := 0, base := 64, stride := 1, count := 8 }),
                             (3, { fmt := 0, base := 128, stride := 1, count := 8 })] }

theorem wit_VectorWordsQueue :
    (let s := usr (strs {})
     let v := command s none (.arith 0 false) 1 2 3 true
     (cx s).vq.length < 16 ∧ directionFault (cx s) v = none ∧ operandsOk (cx s) v = true ∧ v.staged (cx s) = false) ∧
    (let s := usr (strs { tx := some { acts := [{ kind := .det 0, reg := 9, status := 0, bank := 3 }] } })
     let v := command s none (.arith 0 false) 1 2 3 true
     directionFault (cx s) v = none ∧ operandsOk (cx s) v = true ∧ v.staged (cx s) = true) ∧
    (let s := usr (strs {})
     (reg (cx s) (48 + 2)).val.toNat % 4 = 0) ∧
    (let s := usr (strs {})
     let v := command s none (.arith 0 false) 1 1 3 true
     onSup s = false ∧ (curCore s).tvec % 2 = 1 ∧ (cx s).vq.length < 16 ∧ directionFault (cx s) v = some 0) ∧
    (let s := usr { streams := [(1, { fmt := 17, base := 0, stride := 1, count := 8 })] }
     let v := command s none (.arith 0 false) 1 2 3 true
     directionFault (cx s) v = none ∧ operandsOk (cx s) v = false) := by decide +kernel

/-- A vector command: s1 := s2 + s3. -/
def vadd1 : VCmd := { op := .arith 0 false, x := 1, y := 2, z := 3 }

def steps (g : Group) : Bool := match g with | .next _ _ => true | _ => false
def stops (g : Group) : Bool := match g with | .stop _ => true | _ => false

theorem wit_VectorEngineSteps :
    (let s := usr (strs { vq := [vadd1] })
     vectorSide (Machine.core s 0) = false ∧ (Machine.core s 0).enginesStop false = false ∧
     vectorSide (Machine.core (spv {}) 0) = true ∧ (Machine.core (spv {}) 0).enginesStop true = false ∧
     (Machine.core s 0).user.vq = [vadd1] ∧ (Machine.core s 0).user.dbg.halted = false ∧ (Machine.core s 0).preempt = false ∧ vadd1.bind = .run ∧ vadd1.run = none ∧ vadd1.ungranted (Machine.core s 0) = false) ∧
    (let v : VCmd := { vadd1 with run := some { len := 8 } }
     let s := usr (strs { vq := [v] })
     steps (runGroup 0 false (Machine.core s 0).user v { len := 8 } (taken (.vectorGroup 0) s)) = true) ∧
    (let v : VCmd := { vadd1 with run := some { len := 8 } }
     let s := usr { strs { vq := [v] } with attach := [] }
     stops (runGroup 0 false (Machine.core s 0).user v { len := 8 } (taken (.vectorGroup 0) s)) = true) ∧
    (let v : VCmd := { vadd1 with run := some { len := 8, done := 8 } }
     v.run = some { len := 8, done := 8 } ∧ v.target = none) := by decide +kernel

theorem wit_StreamBindings :
    (let s := usr (slot0 (ks 0x7FC 8 0))
     streamBusy (cx s) 1 = false ∧ sbindBad s 0 ((rv s 1).toNat % 2 ^ 32) 1 ((rv s 1).toNat.testBit 64) = false ∧ tfind (cx s).streams 1 = none ∧
     maskBusy (cx s) 1 = false ∧ tfind (cx s).masks 1 = none) ∧
    (let s := usr (slot0 (ks 2 8 0))
     sbindBad s 0 ((rv s 1).toNat % 2 ^ 32) 1 ((rv s 1).toNat.testBit 64) = true ∧ onSup s = false ∧ (curCore s).tvec % 2 = 1) ∧
    (tfind (cx (usr (strs {}))).streams 1).isSome = true ∧
    (let m : MaskStream := { base := 0, count := 9 }
     let s := usr (slot0 { masks := [(1, m)] })
     tfind (cx s).masks 1 = some m ∧ (match countMask s m 9 0 0 with | .ok k => k == 0 | _ => false) = true) := by decide +kernel

theorem wit_PackedLanes : (let s := usr { fmt := 0x00FF150A }; roundMode (cx s) = 5 ∧ rstoBusy (curCore s) = false) ∧ roundMode (cx (usr {})) ≠ 5 := by
  decide +kernel

theorem wit_PackedConversions :
    isIntFmt ((cx (usr { fmt := 0x00FF1002 })).fmt % 32) = false ∧ isIntFmt ((cx (usr {})).fmt % 32) = true ∧
    (rv (usr (ks 0 255 0)) 2).toNat % 256 = 255 ∧ (rv (usr (ks 0 254 0)) 2).toNat % 256 ≠ 255 ∧
    (partLanes 0 2 1 5).isSome = true ∧ (match partLanes 0 2 1 5 with | some (l, _) => pqntScale 2 l != 255 | none => false) = true ∧
    (match partLanes 0 2 0 0 with | some (l, _) => pqntScale 2 l == 255 | none => false) = true ∧ partLanes 31 2 0 5 = none ∧
    onSup (usr { fmt := 0x00FF1002 }) = false ∧ (curCore (usr { fmt := 0x00FF1002 })).tvec % 2 = 1 := by
  decide +kernel

theorem wit_CopyAndMatrixWords :
    (let s := usr (ks 0 5 7)
     (cx s).cq.length < 16 ∧ matrixUsed (cx s) < 8 ∧
     (rv s 1).toNat / 4 % 2 = 0 ∧ tget (cx s).cnt 0 0 ≤ (rv s 2).toNat % 2 ^ 32 ∧                -- CWCNT of a counter
     (rv s 1).toNat / 4 % 4 = 0 ∧ (rv s 2).toNat / 4 % 4 = 1 ∧ (rv s 2).toNat % 4 ≠ 0 ∧          -- CQRY of a counter and of a barrier
     (rv s 1).toNat % 8 = 0 ∧ 6 ≤ (rv s 3).toNat % 8 ∧
     (cx s).mq = [] ∧ (cx s).fills = [] ∧ (cx s).mstores = [] ∧ (cx s).mmas = [] ∧ (cx s).msnds = [] ∧
     (∀ q ∈ ctxAccesses s s.cur (onSup s), q.eng = 2 → performedAt s 6 q = true)) ∧
    (let s := usr { ks 4 5 5 with barr := [(1, 9)] }
     (rv s 1).toNat / 4 % 2 = 1 ∧ (rv s 1).toNat % 4 = 0 ∧ (rv s 2).toNat % 4 ≠ 0 ∧ (rv s 3).toNat % 2 ^ 64 ≤ tget (cx s).barr 1 0) ∧
    (let s := usr (ks 8 12 1)
     (rv s 1).toNat / 4 % 4 = 2 ∧ (rv s 2).toNat / 4 % 4 = 3 ∧ (rv s 3).toNat % 8 = 1) ∧
    (let s := usr (ks 2 3 4)
     (rv s 1).toNat % 8 = 2 ∧ (rv s 2).toNat % 8 = 3 ∧ (rv s 3).toNat % 8 = 4) ∧
    (let x := slot0 { tx := some { acts := [{ kind := .det 0, reg := 9, status := 0, bank := 3 }] } }
     let m : CCmd := { op := .cpy, dst := { val := 0x100 }, src := { val := 0x200 }, len := { val := 16 } }
     let k : MCmd := { op := .mspl {}, x := 0, y := 0, z := 0, k1 := { val := 0x100 } }
     x.tx ≠ none ∧ m.staged 0 false x = true ∧ ({ op := .cfnc } : CCmd).staged 0 false x = false ∧ k.staged x = true ∧
     ({ op := .mzacc, x := 0, y := 0, z := 0 } : MCmd).staged x = false) := by decide +kernel

/-- A tile of one row and one FP32 element, loaded in slots 0 and 1. -/
def tiles (x : Ctx) : Ctx :=
  let t (h : Nat) : MSlot := { st := 3, head := h, kv := 1, rowsp := 1, rows := [{ fmt := 0, elems := [.raw 0 0x3F800000] }] }
  { x with mslots := [(0, t 0), (1, t 1)] }

theorem wit_MatrixCommands :
    (∀ i, i < 8 → (mslot (ctxOf (usr {}) 0 false) (0 + i)).st = 0) ∧
    (let x := ctxOf (usr (tiles {})) 0 false
     isHead x 0 = true ∧ (mslot x 0).st ≠ 6 ∧ x.fills.all (fun f => f.slot != 0) = true) ∧
    (let x := ctxOf (usr (tiles {})) 0 false
     isHead x 0 = true ∧ isHead x 1 = true ∧ (mslot x 0).st = 3 ∧ (mslot x 1).st = 3 ∧ 0 < (mslot x 0).span) ∧
    (∀ f ∈ tileFmts (mslot (ctxOf (usr { mslots := [(0, { st := 3, kv := 1, rowsp := 1, rows := [{ fmt := 10, elems := [.raw 10 5] }] })] }) 0 false) 0),
      9 ≤ f ∧ f ≤ 13) ∧
    accBusy (ctxOf (usr {}) 0 false) 1 = false := by decide +kernel

theorem wit_BankWords_att :
    (let s := usr (ks 0xC000 0 0)
     (cx s).tx = none ∧ s.cur < 4096 ∧ (rv s 1).toNat / 2 ^ 14 % 4 = 3) ∧
    (let s := usr (slot0 (ks 0 0 0))
     (rv s 1).toNat / 2 ^ 14 % 4 ≠ 3 ∧ (rv s 1).toNat / 2 ^ 12 % 4 < 2 ∧ (rv s 1).toNat / 64 % 4 = 0 ∧ (entry (cx s) 0).valid = true) ∧
    (let s := { usr (ks 0x1F00 0 0) with banks := (List.range 512).map fun b => (b, { cond := .out }) }
     (rv s 1).toNat / 2 ^ 12 % 4 < 2 ∧ (entry (cx s) 0).valid = false ∧ slotReserved s 0 0 = false ∧ freshBank s 0 0 = none) ∧
    (let s := usr { ks 0 0 0 with region := some (snap 0x1000) }
     freshBank s 0 0 = some 0 ∧ withinBudget s 0 1 (rcbOf (cx s)) = false) ∧
    (let s := usr (ks 0xF3F 0 0)
     freshBank s 0 0 = some 0 ∧ withinBudget s 0 1 (rcbOf (cx s)) = true ∧ (rv s 1).toNat % 64 = 63) ∧
    (let s := setCore (usr (ks 0x1140 5 0)) 1 { uload := true, user := { attach := [(0, { valid := true, cls := 1, bank := 5 })] } }
     (rv s 1).toNat / 64 % 4 = 1 ∧ (bankAt s 5).holders.any (fun h => h.1 == 0) = false ∧ (bankAt s 5).holders.length < 64 ∧
     joinable s 0 5 (tenantOf (cx s)) = true) ∧
    (let s := setBank (setCore (usr (ks 0x1140 5 0)) 1 { uload := true, user := { attach := [(0, { valid := true, cls := 1, bank := 5 })] } }) 5
       { holders := (List.range 64).map fun i => (i + 2, none) }
     (bankAt s 5).holders.any (fun h => h.1 == 0) = false ∧ 64 ≤ (bankAt s 5).holders.length ∧ joinable s 0 5 (tenantOf (cx s)) = true) ∧
    (let s := usr (ks 0x80 511 0)
     (rv s 1).toNat / 64 % 4 = 2 ∧ attachable s 0 511 = true) ∧
    (let s := usr (slot0 (ks 0x1C0 0 0))
     (rv s 1).toNat / 64 % 4 = 3 ∧ (entry (cx s) 0).valid = true ∧ (entry (cx s) 0).st = 0) := by decide +kernel

theorem wit_BankWords_rest :
    (let s := usr {}
     (entry (cx s) 0).valid = false ∧ (entry (cx s) 0).st = 0 ∧ (cx s).staged 0 = false) ∧
    (let s := usr (slot0 (ks 0 0 0))
     (entry (cx s) 0).valid = true ∧ (entry (cx s) 0).st ≠ 1 ∧ (cx s).staged 0 = false ∧ drained s 0 false 0 = true) ∧
    (let s := usr (slot0 (ks 0 64 63))
     (rv s 2).toNat % 4096 / 64 ≠ 0 ∧ (rv s 3).toNat % 4096 / 64 = 0 ∧ (entry (cx s) 0).cls ≠ 2) ∧
    (let s := usr { attach := [(0, { valid := true, cls := 1 })] }
     (entry (cx s) 0).st = 0 ∧ (entry (cx s) 0).cls ≠ 0 ∧ (entry (cx s) 0).cls ≠ 2) ∧
    (let s := usr (slot0 (ks 0 0x10F 0x10007))
     (entry (cx s) 0).cls = 0 ∧ ringBusy s 0 false 0 = false ∧ drained s 0 false 0 = true ∧
     7 ≤ (rv s 2).toNat % 16 ∧ (rv s 2).toNat / 2 ^ 8 % 512 ≠ 0 ∧ 2 ^ ((rv s 2).toNat % 16) * ((rv s 2).toNat / 2 ^ 8 % 512) ≤ 32768 ∧
     2 ^ ((rv s 3).toNat % 16) * ((rv s 3).toNat / 2 ^ 8 % 512) ≤ 32768) ∧
    (let s := usr { attach := [(0, { valid := true, cls := 2, bank := 3 })] }
     (entry (cx s) 0).st = 0 ∧ (entry (cx s) 0).cls = 2 ∧ (rv s 2).toNat / 2 ^ 8 % 512 = 0 ∧ drained s 0 false 0 = true) ∧
    (let s := usr { attach := [(0, { valid := true, cls := 2, bank := 3, st := 3 })] }
     (entry (cx s) 0).valid = true ∧ (entry (cx s) 0).st = 3 ∧ (rv s 2).toNat / 2 ^ 8 % 512 = 0) ∧
    ((rv (usr (ks 0xC0 0 0)) 1).toNat / 64 % 4 ≠ 2 ∧ onSup (spv {}) = true) ∧
    (let s := usr (ks 1 0 0)
     (rv s 1).toNat / 64 % 2 = 0 ∧ (entry (Machine.core s 0).user 1).valid = false) ∧
    (let s := setCore (spv (ks 0 0 0)) 0 { (curCore (spv (ks 0 0 0))) with user := slot0 {}, uload := true }
     (rv s 1).toNat / 64 % 2 = 0 ∧ (entry (Machine.core s 0).user 0).valid = true ∧ (entry (Machine.core s 0).user 0).st = 0 ∧ (rv s 2).toNat % 4 = 0) ∧
    (let s := setCore (spv (ks 64 0 0)) 0 { (curCore (spv (ks 64 0 0))) with hold := [(0, (5, 0, none))] }
     tfind (Machine.core s 0).hold 0 = some (5, 0, none) ∧ (rv s 1).toNat / 64 % 2 = 1 ∧ (rv s 2).toNat % 4 = 0 ∧
     s.flight.any (holdAsked 0 0) = false) := by decide +kernel

theorem wit_MessageWords :
    (let s := usr (ks 0x00000 0 0x2000)
     (cx s).tx = none ∧ released s 6 = true ∧ (cx s).sends < 8 ∧ (rv s 1).toNat / 2 ^ 13 % 8 = 0 ∧ (rv s 1).toNat / 2 ^ 12 % 2 = 0 ∧
     (rv s 1).toNat / 2 ^ 16 % 2 ^ 16 = 0 ∧ (Machine.core s ((rv s 1).toNat % 4096)).mappedOut = false ∧ (rv s 3).toNat / 2 ^ 13 % 4 ≠ 0) ∧
    (let s := usr (ks 0xFFFF1FFF 0 0)
     (rv s 1).toNat / 2 ^ 13 % 8 = 0 ∧ (rv s 1).toNat / 2 ^ 12 % 2 = 1 ∧ (Machine.core s ((rv s 1).toNat % 4096)).mappedOut = false) ∧
    (let s := setCore (usr { ports := [(3, [5, 6])] }) 1 { power := .on, uload := true }
     (cx s).tx = none ∧ portAccepts s s.cur 1 = true ∧ tget (cx s).ports 3 [] = [5, 6]) ∧
    (let s := usr { inbox := [.msg 5 1, .notice 0 1 2 3 4 5] }
     (cx s).inbox = .msg 5 1 :: [.notice 0 1 2 3 4 5]) ∧
    (let s := usr (ks 0x1000 32 8)
     (cx s).inbox = [] ∧ (rv s 1).toNat / 2 ^ 15 % 2 = 0 ∧ (rv s 2).toNat % 16 = 0 ∧ (cx s).precvs.length < 32 ∧ (cx s).tagq = [] ∧
     (rv s 3).toNat % 16 ≠ 0 ∧ (cx s).precvs.find? (fun u => u.handle == (rv s 1).toNat / 2 ^ 8 % 32) = none) ∧
    (let p : Precv := { handle := 2, src := 0, anys := true, tag := 0, anyt := true, addr := 0, done := some (0, 4, 5) }
     let q : Precv := { p with handle := 31, done := none }
     let s := usr { ks 0x200 0x1F00 0 with precvs := [p, q] }
     (cx s).precvs.find? (fun u => u.handle == (rv s 1).toNat / 2 ^ 8 % 32) = some p ∧
     (cx s).precvs.find? (fun u => u.handle == (rv s 2).toNat / 2 ^ 8 % 32) = some q) := by decide +kernel

theorem wit_BarrierAndChainWords :
    (let s := usr (ks 3 0x203 0x4001)
     (cx s).tx = none ∧ s.cur < 4096 ∧ (rv s 1).toNat % 4 = 3 ∧ (cx s).waiting = none) ∧
    (let s := usr (ks 0x10C 0x2 0x4104)
     (rv s 1).toNat % 4 < 3 ∧ (rv s 1).toNat / 2 ^ 8 % 128 = 1 ∧ (rv s 1).toNat / 4 % 16 < barrierCount 0 ∧ released s 1 = true ∧
     tfind s.barriers (barrierKey 0 0 3) = none ∧ (rv s 2).toNat / 2 ^ 8 % 128 = 0 ∧ 64 < (rv s 3).toNat / 2 ^ 8 % 128) ∧
    (let s := usr (ks 0x210 0x221 0)
     (rv s 1).toNat % 4 = 0 ∧ barrierCount 0 ≤ (rv s 1).toNat / 4 % 16 ∧ (rv s 2).toNat % 4 = 1 ∧ barrierCount 1 ≤ (rv s 2).toNat / 4 % 16) ∧
    (let s := usr (ks 0x20E 0x400E 0)
     let v := (rv s 1).toNat
     v % 4 < 3 ∧ v / 4 % 16 < barrierCount (v % 4) ∧ 1 < v / 2 ^ 8 % 128 ∧ (rv s 2).toNat / 2 ^ 8 % 128 ≤ 64 ∧ released s (v % 4 + 1) = true ∧
     tfind s.barriers (barrierKey 0 2 3) = none) ∧
    (let b : Barrier := { n := 2, region := none, arrived := [(1, false)] }
     let s := { usr (ks 0x20E 0x30E 0) with barriers := [(barrierKey 0 2 3, b)] }
     tfind s.barriers (barrierKey 0 2 3) = some b ∧ b.released = false ∧ b.n ≠ (rv s 2).toNat / 2 ^ 8 % 128 ∧
     b.n = (rv s 1).toNat / 2 ^ 8 % 128 ∧ b.region = rcbOf (cx s) ∧ b.arrived.length + 1 = 2) ∧
    (let b : Barrier := { n := 3, region := none, arrived := [(1, false)] }
     let s := { usr (ks 0x30E 0 0) with barriers := [(barrierKey 0 2 3, b)] }
     b.n = (rv s 1).toNat / 2 ^ 8 % 128 ∧ b.arrived.length + 1 < 3) ∧
    (let s := usr (ks (0x80 + 0x200000 * 2 ^ 32) 0x30000 0)
     let v := (rv s 1).toNat
     v % 128 = 0 ∧ v / 2 ^ 32 % 2 ^ 32 % 128 = 0 ∧ 128 ≤ v / 2 ^ 32 % 2 ^ 32 ∧ v / 2 ^ 32 % 2 ^ 32 ≤ 2 ^ 21 ∧ (rv s 2).toNat / 2 ^ 16 % 4 ≠ 0 ∧
     (cx s).resv.length < 4) ∧
    (let s := { usr (slot0 (ks (0x80 + 0x80 * 2 ^ 32) (0x100 + 2 * 2 ^ 32) 0)) with bankMem := [(0x18100, 1), (0x18102, 63)] }
     let w := (rv s 2).toNat
     w / 2 ^ 32 % 16 ≠ 0 ∧ w % 2 = 0 ∧
     (match spanOf s 0 false (cx s) permR true (w % 2 ^ 32) (2 * (w / 2 ^ 32 % 16)) with | .ok ps => halfwords 2 (runBytes s ps) == [1, 63] | _ => false) = true ∧
     [1, 63].Nodup ∧ (∀ k ∈ [1, 63], k ≠ 0 ∧ clusterOf k = clusterOf 0) ∧
     (match spanOf s 0 false (cx s) permR true 0x80 128 with | .ok _ => true | _ => false) = true ∧ released s 3 = true) := by decide +kernel

/-- A launch of two nodes, the second of which depends on the first, whose output it needs. -/
def nodeA : Node := { image := 1, entry := 0, shape := 0, size := 1, banks := 1, retain := true, deps := 0, ops := [], succs := [1], sens := 0 }
def nodeB : Node := { nodeA with deps := 1, succs := [], sens := 1, retain := false }
def tmpl : Template :=
  { rcb := 0x1000, addr := 0x2000, gen := 0, recbase := 0, recn := 0, nodes := [nodeA, nodeB]
    sens := [{ upol := false, nout := 1, own := 0, ins := [] }, { upol := false, nout := 1, own := 0, ins := [{ sig := 0, wgt := 0, srcv := true, keep := true, srcout := 0, srcnode := 0 }] }] }
def lch : Launch := { id := 1, fn := 0, tag := 7, snap := snap 0x1000, tpl := tmpl, first := 0, count := 1, defdem := 3, dems := [], dstore := 0x4000 }
def refA : InstRef := { die := 0, launch := 1, node := 0, n := 0 }
def refB : InstRef := { refA with node := 1 }
def instA : Inst := { ref := refA, st := .running, counter := 0, prio := 3, demand := [3], cores := [0] }
def instB : Inst := { ref := refB, st := .waiting, counter := 1, prio := 3, demand := [3] }

/-- The image of the nodes, without bankdata. -/
def imgA : Image := { fn := 0, imgid := 1, addr := 0x8000, textlen := 4, bdn := 0, gen := 5 }

/-- Die 0 with the launch, its instances as given, and the image. -/
def task (a b : Inst) (s : State) : State := setDie s 0 { launches := [lch], insts := [a, b], images := [imgA], areas := [0x100000] }

theorem wit_TaskWords :
    (let s := usr (ks 0 0 0)
     (cx s).tx = none ∧ released s 5 = true ∧ ownInst s = none ∧ onSup s = false ∧ (cx s).waiting = none ∧ (cx s).role = .single ∧
     taskQuiet s s.cur false = true ∧ (cx s).inst = none) ∧
    (let s := task instA instB (usr { ks 1 0 0 with inst := some refA })
     ownInst s = some (instA, lch, nodeA) ∧ nodeA.succs.length ≤ (rv s 1).toNat % 4096 ∧
     (rv s 2).toNat % 4096 < nodeA.succs.length ∧ instA.decd.contains 0 = false ∧ instA.rearmed = false) ∧
    (let a : Inst := { instA with decd := [0] }
     let s := task a instB (usr { ks 0 0 0 with inst := some refA })
     ownInst s = some (a, lch, nodeA) ∧ a.decd.contains 0 = true) ∧
    (let s := spv {}
     (cx s).tx = none ∧ onSup s = true ∧ taskQuiet s s.cur true = true ∧ (Machine.core s s.cur).sup.region = none) ∧
    (let s := { usr (slot0 (ks 0x100 0 0)) with bankMem := [(0x18100, 31)] }
     (rv s 1).toNat % 2 ^ 32 % 256 = 0 ∧ localMap s 0 false (cx s) 0x100 1 true = .ok (.bank 0x18100) ∧
     watchHit (cx s).dbg 0 1 0x100 2 [0, 1, 2, 3] = none ∧ watchHit (cx s).dbg 0 1 (0x100 + 62) 2 [0, 1, 2, 3] = none ∧
     segHead false ((placeBytes s (.bank 0x18100) 64).getD 0 0).toNat ((placeBytes s (.bank 0x18100) 64).getD 1 0).toNat = .z) ∧
    (segHead false 17 0 ≠ .z ∧ segHead false 17 0 ≠ .malformed) ∧
    (let b : Inst := { instB with tred := [(0, 1)], st := .running }
     let s := task instA b (usr { ks 0 0 0 with inst := some refB })
     (cx s).inst = some refB ∧ inst s refB = some b ∧ launch s 0 1 = some lch ∧ nodeOf lch 1 = some nodeB ∧
     (rv s 1).toNat % 8 < (sensOf lch.tpl nodeB).ins.length ∧ tfind b.tred (cx s).rank = some 1) ∧
    (tfind instB.tred 0 = none ∧ (∀ st ∈ [255, 4], tfind ({ instB with tred := [(0, st)] } : Inst).tred 0 = some st) ∧ 2 ≤ 4) ∧
    ((sensOf lch.tpl nodeB).upol = false ∧ (sensOf { lch.tpl with sens := [{ upol := true, nout := 1, own := 0, ins := [] }] } nodeA).upol = true) ∧
    (let s := { usr (slot0 (ks 0x140 0 0)) with bankMem := [(0x18140, 31)] }
     (rv s 1).toNat % 2 ^ 32 % 256 ≠ 0 ∧ (rv s 1).toNat % 2 ^ 32 % 64 = 0 ∧ localMap s 0 false (cx s) 0x140 1 true = .ok (.bank 0x18140)) := by decide +kernel

theorem wit_GroupAndAreaWords :
    ((cx (usr {})).tx = none ∧ onSup (usr {}) = false ∧ (curCore (usr {})).tvec % 2 = 1) ∧
    (let s := usr { tx := some {} }
     (cx s).tx = some {} ∧ (cx s).waiting = none ∧ released s 5 = true ∧ onSup s = false ∧ (curCore s).tvec % 2 = 1 ∧
     ({} : Tx).abort = 0 ∧ ({} : Tx).acts.length < 8) ∧
    (({ abort := 2 } : Tx).abort ≠ 0) ∧
    (let s := spv (ks 0x80000 (0x017FFFF00000) 0x018000000000)
     (cx s).tx = none ∧ (rv s 1).toNat % 2 ^ 50 % 2 ^ 20 ≠ 0 ∧ (rv s 2).toNat % 2 ^ 50 % 2 ^ 20 = 0 ∧ physExtent s 0x017FFFF00000 (2 ^ 20) = true ∧
     physExtent s 0x018000000000 (2 ^ 20) = false ∧ (curCore s).uload = false) ∧
    (let s := one { supOn := true, uload := true, udisp := true }
     (curCore s).uload = true ∧ (curCore s).udisp = true ∧ physExtent s 0 (2 ^ 20) = true) ∧
    (let s := one { supOn := true, uload := true }
     (curCore s).udisp = false ∧ (curCore s).killing = false ∧ stopped (setPreempt true s s.cur) s.cur = true) ∧
    (let s := one { supOn := true, uload := true, killing := true }
     (curCore s).udisp = false ∧ (curCore s).killing = true) ∧
    (let s := { one { supOn := true, uload := true } with mem := [(0, 0x41), (1, 0x58), (2, 0x54), (3, 0x43), (4, 1)] }
     areaBad (lostToCtx s.cur (cx s) 0 64 s) 0 = false ∧ (curCore (lostToCtx s.cur (cx s) 0 64 s)).uload = true) ∧
    (let s := { one { supOn := true } with mem := [(0, 0x41), (1, 0x58), (2, 0x54), (3, 0x43), (4, 1)] }
     let u := lostToCtx s.cur (cx s) 0 64 s
     areaBad u 0 = false ∧ (curCore u).uload = false ∧ bits (homeRead s 0 64) 113 64 = 0 ∧ (loadArea 0 0 (homeRead s 0 64) u).1 = 0) ∧
    (let s := { one { supOn := true } with mem := [(0, 0x41), (1, 0x58), (2, 0x54), (3, 0x43), (4, 1), (9, 0x10)] }
     let u := lostToCtx s.cur (cx s) 0 64 s
     areaBad u 0 = false ∧ bits (homeRead s 0 64) 113 64 = 0x1000 ∧ (regionStatus u none 0x1000).1 ≠ 0) ∧
    (let s := { one { supOn := true } with mem := [(0, 0x41), (1, 0x58), (2, 0x54), (3, 0x43), (4, 1), (0xC81, 2)] }
     let u := lostToCtx s.cur (cx s) 0 64 s
     areaBad u 0 = false ∧ (loadArea 0 0 (homeRead s 0 64) u).1 = 1) := by decide +kernel

theorem wit_GroupAndAreaWords_staged :
    (let s := usr { slot0 (ks 0 64 63) with tx := some {} }
     (cx s).tx = some {} ∧ (cx s).staged 0 = false ∧ (entry (cx s) 0).valid = true ∧ (entry (cx s) 0).st = 0 ∧ (entry (cx s) 0).cls ≠ 2 ∧
     drained s 0 false 0 = true ∧ (rv s 2).toNat % 4096 / 64 ≠ 0 ∧ (rv s 3).toNat % 4096 / 64 = 0 ∧
     (rv s 1).toNat / 2 ^ 13 % 8 = 0 ∧ (rv s 1).toNat / 2 ^ 12 % 2 = 0 ∧ (rv s 1).toNat / 2 ^ 16 % 2 ^ 16 = 0) ∧
    ((rv (usr (ks 0x1000 0 0)) 1).toNat / 2 ^ 12 % 2 = 1) ∧
    (let g : Tx := { acts := List.replicate 8 { kind := .tdec 0, reg := 9, status := 0, bank := 0 } }
     g.abort = 0 ∧ 8 ≤ g.acts.length) := by decide +kernel

/-- The Nolorn core's supervisor runs, with FUSE and keys as given. -/
def nol (x : Ctx) (fuse : Nat) (keys : AList Key) : State :=
  { setCore State.reset nolornCore { power := .on, supOn := true, tvec := 1, sup := x } with cur := nolornCore, nolorn := { fuse := fuse, keys := keys } }

theorem wit_SpecialRegisters_nolorn :
    (let s := nol {} 3 []
     s.cur = nolornCore ∧ onSup s = true ∧ (registerReads s).any (fun p => p.1 == 0x300 && p.2.1) = true ∧
     (registerTakes s).any (fun p => p.1 == 0x312 && p.2.1) = true ∧
     (registerWrites s 7).any (fun p => p.1 == 0x300 && p.2.1 && p.2.2.1) = true ∧
     (registerWrites s 2).any (fun p => p.1 == 0x300 && !p.2.2.1) = true) := by decide +kernel

theorem wit_SecurityWords :
    (let s := nol (ks (0x3FF00 + 0x100 * 2 ^ 32) 0x3FFE0 ((2 ^ 20 + 1) * 2 ^ 32)) 3 []
     (rv s 1).toNat / 2 ^ 32 % 2 ^ 32 ≤ 2 ^ 20 ∧ (rv s 1).toNat % 2 ^ 32 + 0x100 ≤ 0x40000 ∧ (rv s 2).toNat % 2 ^ 32 + 32 ≤ 0x40000 ∧
     2 ^ 20 < (rv s 3).toNat / 2 ^ 32 % 2 ^ 32) ∧
    (let k : Key := { kind := 1, bytes := 5 }
     let s := nol (ks (96 * 2 ^ 32) (2 * 2 ^ 32) 0) 3 [(2, k)]
     (rv s 1).toNat / 2 ^ 32 % 2 ^ 32 = 96 ∧ s.nolorn.fuse ≠ 7 ∧ tfind s.nolorn.keys ((rv s 2).toNat / 2 ^ 32 % 64) = some k ∧ k.kind = 1) ∧
    (let k : Key := { kind := 0, bytes := 5 }
     let s := nol (ks (32 * 2 ^ 32) (0x3FFC0 + 63 * 2 ^ 32) (3 * 2 ^ 32)) 3 [(63, k)]
     (rv s 1).toNat / 2 ^ 32 % 2 ^ 32 = 32 ∧ (rv s 2).toNat % 2 ^ 32 + 64 ≤ 0x40000 ∧ tfind s.nolorn.keys ((rv s 2).toNat / 2 ^ 32 % 64) = some k ∧
     k.kind = 0 ∧ tfind s.nolorn.keys ((rv s 3).toNat / 2 ^ 32 % 64) = none) ∧
    (let k : Key := { kind := 3, bytes := 5 }
     let s := nol (ks (64 * 2 ^ 32) (0x1000 + 16 * 2 ^ 32) (15 * 2 ^ 32)) 3 [(16, k)]
     64 % 16 = 0 ∧ (rv s 1).toNat / 2 ^ 32 % 2 ^ 32 = 64 ∧ tfind s.nolorn.keys ((rv s 2).toNat / 2 ^ 32 % 64) = some k ∧ k.kind = 3 ∧ k.kind ≠ 0 ∧
     16 ≤ (rv s 2).toNat / 2 ^ 32 % 64 ∧ (rv s 3).toNat / 2 ^ 32 % 64 < 16 ∧ s.nolorn.fuse ≠ 7) := by decide +kernel

/-- A four-byte read at an address of module memory, at a stage, and the machine with it alone under way. -/
def acc1 (st : Stage) : Access := { id := 7, core := 0, sup := false, eng := 0, dest := .home 0x100, size := 4, stage := st, reg := some 5 }
def under (a : Access) : State := { usr (slot0 {}) with accesses := [a] }

/-- Function 0 translates by one stage: addresses below 2^30 to themselves, to be read only. -/
def oneLeaf (s : State) : State :=
  { setFunc s 0 { s1en := true } with mem := [(0, 1), (1, 0x10), (0x1000, 1), (0x1001, 0x20), (0x2000, 7)] }

theorem wit_AccessAndTranslationSteps :
    (∀ st ∈ [Stage.buffer, .lane, .slice, .link, .served], access (under (acc1 st)) 7 = some (acc1 st) ∧ (acc1 st).dest = .home 0x100 ∧
       (before 7 (under (acc1 st)).accesses).all (fun _ => false) = true ∧ (acc1 st).eng = 0 ∧ (acc1 st).reg = some 5) ∧
    (let a : Access := { acc1 .port with dest := .bank 0 false 0x10 false, write := some [1, 2, 3, 4] }
     access (under a) 7 = some a ∧ portTurn (under a) a = true ∧ portWaits (under a) a = false ∧ behindFill (under a) a = false) ∧
    (let a : Access := { acc1 .link with dest := .bank 0 false 0x10 false, write := some [1, 2, 3, 4] }
     access (under a) 7 = some a ∧ a.stage = .link ∧ (match a.dest with | .home _ => false | _ => true) = true) ∧
    (let a : Access := { acc1 .slice with dest := .home 0x100000000000 }
     let s := { under a with mgmt := { cxlCap := [(0, 0x40000000)], cxlDown := [0] } }
     access s 7 = some a ∧ homeTurn s a = true ∧ cxlDead s 0x100000000000 = true) ∧
    (homeTurn (under (acc1 .slice)) (acc1 .slice) = true ∧ cxlDead (under (acc1 .slice)) 0x100 = false) ∧
    (let a : Access := { acc1 .slice with amo := some { op := 0, y := {} }, reg := none }
     homeTurn (under a) a = true ∧ a.write = none ∧ a.reg = none) ∧
    (let a : Access := { acc1 .slice with amo := some { op := 8, y := {} } }
     homeTurn (under a) a = true ∧ a.write = none ∧ a.reg ≠ none ∧ cxlDead (under a) 0x100 = false ∧
     msgAhead (taken (.linkCross 7) (under (acc1 .link))) (acc1 .link) = false) ∧
    (let w : Walk := { id := 3, die := 0, fn := 0, va := 0x234, misses := [⟨0, true, false⟩] }
     let s := { oneLeaf (usr {}) with walks := [w] }
     s.walks.find? (fun v => v.id == w.id) = some w ∧
     (match walkAll s 0 0 0x234 true false with | .ok r => r.pa == 0x234 | _ => false) = true ∧
     (match walkAll s 0 0 0x234 true true with | .error (.perm st2 x) => !st2 && x == 0x234 | _ => false) = true ∧
     (match walkAll s 0 0 (2 ^ 51) true false with | .error (.absent st2 _ _) => !st2 | _ => false) = true ∧
     (match walkAll { s with mem := [(0, 3)] } 0 0 0x234 true false with | .error (.malformed st2 _) => !st2 | _ => false) = true ∧
     hostWrites s 0 = false ∧ hostWrites (under { acc1 .slice with core := hostSource 0, write := some [1], reg := none }) 0 = true ∧
     (pageRequest 0 false (2 ^ 51) false [{ core := 0, vpage := 2 ^ 39, eng := 0 }] s).isSome = true ∧
     pageRequest 0 false (2 ^ 51) false [{ core := 0, vpage := 2 ^ 39, eng := 0 }]
       (setFunc s 0 { s1en := true, prq := (List.range 256).map fun i =>
         { group := i, stage2 := false, page := i, wr := false, waits := [], sent := 0, msg := pageMsg i false (4096 * i) false } }) = none) ∧
    (let q : Prq := { group := 4, stage2 := false, page := 1, wr := true, waits := [], sent := 0, msg := pageMsg 4 false 0x1000 true }
     let s := { setFunc State.reset 0 { prq := [q] } with elapsed := 2 ^ 26 }
     (func s 0).prq.find? (fun p => p.group == 4) = some q ∧ q.sent + 2 ^ 26 ≤ s.elapsed) ∧
    (func State.reset 0).inval = [] ∧ (func (setFunc State.reset 0 { inval := [(1, true, 0x5000)] }) 0).inval = [(1, true, 0x5000)] := by
  decide +kernel

/-- A hand-over of bank 3 from core 0 to a slot of core 1. -/
def hreq : HandReq :=
  { origin := 0, core := 0, sup := false, slot := 0, bank := 3, target := 1, tslot := 2, reg := 9, tenant := some (5, 0xFF), cls := 0, perm := 15, rcb := none }

theorem wit_BankSteps_checks :
    ({ hreq with target := 64 } : HandReq).target / 64 ≠ hreq.core / 64 ∧
    (let s := usr {}
     hreq.target / 64 = hreq.core / 64 ∧ (Machine.core s hreq.target).uload = false) ∧
    (let g : Snapshot := { snap 0x1000 with tenant := 4 }
     let s := setCore (usr {}) 1 { uload := true, user := { region := some g } }
     (Machine.core s 1).uload = true ∧ (Machine.core s 1).killing = false ∧ hreq.tenant = some (5, 0xFF) ∧ (Machine.core s 1).user.region = some g ∧
     (g.tenant ^^^ 5) &&& 0xFF ≠ 0) ∧
    (let s := setCore (usr {}) 1 { uload := true, user := { attach := [(2, { valid := true })] } }
     tenantOk hreq.tenant (Machine.core s 1).user = true ∧ (entry (Machine.core s 1).user 2).valid = true) ∧
    (let s := setCore (usr {}) 1 { uload := true, user := { attach := [(2, { st := 1, bank := 3 })] } }
     tenantOk hreq.tenant (Machine.core s 1).user = true ∧ (entry (Machine.core s 1).user 2).valid = false ∧
     ((entry (Machine.core s 1).user 2).st = 1 → (entry (Machine.core s 1).user 2).bank = hreq.bank) ∧ slotReserved s 1 2 = false ∧ hreq.cls ≠ 1) := by
  decide +kernel

theorem wit_BankSteps :
    (let s := { setCore (usr (slot0 {})) 1 { uload := true } with flight := [.handoverRequest hreq] }
     hreq.target ≤ 4208 ∧ hreq.core ≤ 4208 ∧
     s.flight.find? (fun f => match f with | .handoverRequest q => q.target == 1 && q.core == 0 | _ => false) = some (.handoverRequest hreq) ∧
     sourceHolds (taken (.handoverRequest hreq) s) hreq = true ∧ handCheck (taken (.handoverRequest hreq) s) hreq true = 0) ∧
    (let s := { usr (slot0 {}) with flight := [.handoverRequest hreq] }
     sourceHolds (taken (.handoverRequest hreq) s) hreq = true ∧ handCheck (taken (.handoverRequest hreq) s) hreq true ≠ 0) ∧
    sourceHolds (taken (.handoverRequest hreq) { usr {} with flight := [.handoverRequest hreq] }) hreq = false ∧
    banksInUse (setBank State.reset 5 { cond := .attached }) 0 = true ∧ (8 < (0x90 : BitVec 64).toNat / 16 % 16) ∧
    (let s := usr { attach := [(0, { valid := true, st := 1, bank := 3 })] }
     hreq.origin = 0 ∧ (Machine.core s hreq.core).killing = false ∧ (entry (ctxOf s 0 false) 0).valid = true ∧ (entry (ctxOf s 0 false) 0).bank = hreq.bank) ∧
    (let s := setBank State.reset 32767 { cond := .scrubbing }
     32767 < 32768 ∧ (bankAt s 32767).cond = .scrubbing ∧ (bankAt s 32767).marked = false) ∧
    (let n := (0x811 : BitVec 64).toNat
     n / 2 ^ 58 % 32 = 0 ∧ n / 2 % 8 = 0 ∧ n / 16 % 16 ≤ 8 ∧ banksInUse State.reset 63 = false) ∧
    ((1 <<< 62 : BitVec 64)).toNat / 2 ^ 58 % 32 ≠ 0 := by decide +kernel

/-- A message of core 1 to core 0. -/
def msg1 : Msg := { src := 1, sup := false, target := 0, payload := 5, tag := 0, reg := 9, tenant := none, clock := [0, 0, 0, 0] }

/-- The last line of a chain, at its only member, core 0. -/
def line1 : ChainLine :=
  { lead := 1, sup := false, reg := 9, tag := 7, len := 128, off := 0, bytes := [1], members := [0], index := 0, failed := none, last := true }

theorem wit_MessageSteps :
    (let s := { usr {} with flight := [.messageArrival msg1] }
     msg1.target ≤ 4208 ∧ msg1.src ≤ 4208 ∧ powered (Machine.core s 0) = true ∧ msgBehind (.messageArrival msg1) msg1 s = false) ∧
    (let s := { usr {} with flight := [.taggedMessageArrival msg1] }
     msgBehind (.taggedMessageArrival msg1) msg1 s = false) ∧
    (let s := { usr {} with flight := [.portWordArrival 0 3 5] }
     residentOf (Machine.core s 0) = some false ∧
     s.flight.find? (fun e => match e with | .portWordArrival c' p' _ => c' == 0 && p' == 3 | _ => false) = some (.portWordArrival 0 3 5)) ∧
    (let b : Barrier := { n := 2, region := none, arrived := [(0, false), (1, false)], released := true }
     tfind ({ usr {} with barriers := [(5, b)] } : State).barriers 5 = some b ∧ b.released = true) ∧
    (let r : Resv := { addr := 0, len := 128, tag := 7, bar := 1 }
     let s := { spv { resv := [r] } with flight := [.chainLineArrival line1] }
     line1.members = 0 :: [] ∧ line1.members.all isCore = true ∧ residentOf (Machine.core s 0) = some true ∧
     s.flight.find? (fun e => match e with | .chainLineArrival q => q.lead == 1 && q.sup == false && q.members.head? == some 0 | _ => false)
       = some (.chainLineArrival line1) ∧
     takeFirst (lineMeets line1) (Machine.core s 0).sup.resv = some (r, []) ∧ takeFirst (lineMeets line1) (Machine.core (spv {}) 0).sup.resv = none) ∧
    (let s := usr { waiting := some (.recv 1 2 100 0), ctime := 100 }
     (Machine.core s 0).sup.waiting = none ∧ (Machine.core s 0).user.waiting = some (.recv 1 2 100 0) ∧ 0 + 100 ≤ (Machine.core s 0).user.ctime ∧ (Machine.core s 0).user.inbox = []) ∧
    (let p : Precv := { handle := 2, src := 0, anys := true, tag := 0, anyt := true, addr := 0 }
     let s := usr { waiting := some (.probe 1 2 100 0 0 false), ctime := 100, precvs := [p] }
     (Machine.core s 0).sup.waiting = none ∧ (Machine.core s 0).user.precvs.find? (fun p => p.handle == 2) = some p ∧ p.done = none) ∧
    (let s := { setCore (usr { waiting := some (.port 1 0 false) }) 1 { uload := true, user := { waiting := some (.port 0 0 false) } } with elapsed := 65536 }
     cycleOf s 0 = some (0 :: [1]) ∧ s.flight.contains (.receiveCycle [0, 1]) = false ∧ [0, 1].all isCore = true) ∧
    (let f : FwdWord := { word := 0, pc := 8, next := 12 }
     let s := usr { role := .attached 1, fwdq := [f] }
     (Machine.core s 0).user.role = .attached 1 ∧ (Machine.core s 0).fwd = none ∧ (Machine.core s 0).user.fwdq = f :: [] ∧ userIssues (Machine.core s 0) = true ∧
     powered (Machine.core s 0) = true ∧ (Machine.core s 0).supOn = false) ∧
    (let n : BlockNotice := { die := 0, link := 6, rank := 0, block := 0, bytes := [1] }
     let s : State := { State.reset with mgmt := { bq := [(6, { bs := 0, p := 1, base := 0 })], links := [(3, { retraining := true })] } }
     n.rank < (tget s.mgmt.bq 6 {}).p ∧ (link s (4 * n.die + (n.link - 3))).retraining = true) ∧
    (let n : BlockNotice := { die := 0, link := 0, rank := 0, block := 0, bytes := [1] }
     let s := { setCore State.reset 4096 { supOn := true, sup := slot0 {} } with mgmt := { bq := [(0, { bs := 0, p := 1, base := 0 })] } }
     n.rank < (tget s.mgmt.bq 0 {}).p ∧ tget (tget s.mgmt.bq 0 {}).open_ n.block 0 = 2 * n.rank ∧ residentOf (Machine.core s 4096) = some true ∧
     inboxRoom s 4096 true = true ∧
     (match spanOf (taken (.blockNoticeArrival n) s) 4096 true (ctxOf s 4096 true) permW false 0 128 with | .ok _ => true | _ => false) = true) := by
  decide +kernel

/-- A copy of no bytes, as a command and in flight. -/
def ccmd0 : CCmd := { op := .cfnc }
def copy0 : Copy := { id := 3, cmd := { op := .cpy }, parts := [] }

theorem wit_EngineSteps :
    (let s := usr { cq := [ccmd0] }
     (Machine.core s 0).user.cq = [ccmd0] ∧ ccmd0.bind = .run ∧ (Machine.core s 0).user.dbg.halted = false ∧ (Machine.core s 0).preempt = false ∧ (Machine.core s 0).user.copies.length < 64 ∧
     (Machine.core s 0).user.copies.all (fun p => p.cmd.op != .cfnc) = true ∧ acquired (taken (.copyStart 0) s) 0 false ccmd0.o ccmd0.seq = true ∧
     (match beginCopy (taken (.copyStart 0) s) 0 false ccmd0 with | .ok [] [] [] 0 0 => true | _ => false) = true) ∧
    (let s := usr { copies := [copy0] }
     copyOf s 0 false copy0.id = some copy0 ∧ copyComplete (taken (.copyComplete 0 3) s) 0 false copy0 = true) ∧
    (let f : MWork := { slot := 2, cmd := { op := .mld {}, x := 2, y := 0, z := 0 } }
     let s := usr { fills := [f], mslots := [(2, { st := 2, head := 2, span := 1 })] }
     (Machine.core s 0).user.fills.find? (fun f => f.slot == 2) = some f ∧ 0 < (mslot (Machine.core s 0).user 2).span ∧ (mslot (Machine.core s 0).user 2).st ≠ 6 ∧
     ({ f with failed := some 0 } : MWork).failed ≠ none ∧ fillBehind s 0 false 0 ⟨0, 0, 0⟩ 0 = false ∧
     (fillLines ⟨0, 0, 0⟩ 0).all (lineReady s 0 false) = true ∧ (match fillTile s 0 false ⟨0, 0, 0⟩ 0 with | .ok l => l == [] | _ => false) = true) ∧
    (tfind (Machine.core (usr { fresh := [(1, [])] }) 0).user.fresh 1 = some []) ∧
    (let u : MStore := { id := 4, cmd := { op := .mspl {}, x := 0, y := 0, z := 0 }, full := true }
     let s := usr { mstores := [u] }
     (Machine.core s 0).user.mstores.find? (storeComplete (taken (.matrixStoreComplete 0) s) 0 false) = some u ∧ u.status = 0) ∧
    (let u : MStore := { id := 4, cmd := { op := .mspl {}, x := 0, y := 0, z := 0 }, full := true, status := 3, elem := 2 }
     let s := usr { mstores := [u] }
     (Machine.core s 0).user.mstores.find? (storeComplete (taken (.matrixStoreComplete 0) s) 0 false) = some u ∧ u.status ≠ 0) ∧
    (let r : MsndReq := { src := 1, sup := false, target := 0, word := (((encodeNat (.mzacc none 1)).getD 0 : Nat) : BitVec 32), k1 := 0, t1 := false, k2 := 0
                          t2 := false, tenant := none, pc := 8 }
     let s := { usr {} with flight := [.msndAccept r] }
     s.flight.find? (fun f => match f with | .msndAccept q => q.src == 1 && q.sup == false && q.target == 0 | _ => false) = some (.msndAccept r) ∧
     powered (Machine.core s 0) = true ∧ (Machine.core s 0).uload = true ∧ (Machine.core s 0).killing = false ∧ tenantOk r.tenant (Machine.core s 0).user = true ∧
     (Machine.core s 0).preempt = false ∧ matrixUsed (Machine.core s 0).user < 8 ∧ (remoteCmd r (Machine.core s 0).user s.tick).isSome = true ∧
     (let s := { spv {} with flight := [.msndAccept r] }
      powered (Machine.core s 0) = true ∧ (Machine.core s 0).uload = false)) ∧
    (let v : VCmd := { vadd1 with bind := .discard }
     (Machine.core (usr { vq := [v] }) 0).user.vq = [v] ∧ v.bind = .discard ∧ (Machine.core (usr { vq := [v] }) 0).user.dbg.halted = false ∧
     vectorSide (Machine.core (usr { vq := [v] }) 0) = false) ∧
    (let m : CCmd := { ccmd0 with bind := .discard }
     (Machine.core (usr { cq := [m] }) 0).user.cq = [m] ∧ m.bind = .discard) ∧
    (let k : MCmd := { op := .mzacc, x := 0, y := 0, z := 0, bind := .discard }
     (Machine.core (usr { mq := [k] }) 0).user.mq = [k] ∧ k.bind = .discard ∧ matrixSide (Machine.core (usr { mq := [k] }) 0) = false) := by decide +kernel

/-- Module memory with a root block of a region at 0x1000, a template's header at 0x2000, an image at 0x8000 and a fault log at 0x40000 with
one record. -/
def rmem : List Host.Cell :=
  let region : Nat := 0x52474342 + 0x1FF * 2 ^ 48 + (2 ^ 48 - 1) * 2 ^ 128 + 512 * 2 ^ 176 + (2 ^ 32 - 1) * 2 ^ 192 + 0x40000 * 2 ^ 288 + 16 * 2 ^ 352
  let image : Nat := 0x4B494D47 + 1 * 2 ^ 32 + 4 * 2 ^ 64
  memPut (memPut (memPut (memPut [] 0x1000 (toBytes 256 region)) 0x2000 (toBytes 64 (0x4B524754 + 2 * 2 ^ 32))) 0x8000 (toBytes 64 image)) 0x40000 [1]

/-- The machine with that memory. -/
def inMem (s : State) : State := { s with mem := rmem }

theorem wit_TaskSteps :
    (let r : DecReq := { target := refB, byNode := 0, core := 0, pc := 8, reg := some 9 }
     ∀ n ∈ [2, 1, 0], let b : Inst := { instB with counter := n }
       r.core ≤ 4208 ∧ inst (task instA b (usr {})) r.target = some b ∧ launch (task instA b (usr {})) 0 1 = some lch) ∧
    (let q : SpawnReq := { core := 0, sup := false, reg := 9, tpl := 1, dst := 0, rcs := 0, node := 4095, cnt := 1 }
     q.core ≤ 4208 ∧ (match (expandSpawn q (taken (.tspawnExpansion q) (usr {}))).2 with | .inl st => st == 3 | .inr _ => false) = true) ∧
    (let q : SpawnReq := { core := 0, sup := false, reg := 9, tpl := 0x2000, dst := 0, rcs := 0, node := 4095, cnt := 1 }
     let s := inMem (setFunc (task instA instB (usr { region := some (snap 0x1000), inst := some refA })) 0 { s1en := true })
     (match (expandSpawn q (taken (.tspawnExpansion q) s)).2 with | .inr q' => q'.asked.isSome | .inl _ => false) = true) ∧
    (let s := task instA instB (usr {})
     launch s 0 1 = some lch ∧ (inputOf lch 1 0).isSome = true ∧ ((inputOf lch 1 0).map (·.srcv)) = some true ∧ inst s refA = some instA ∧
     3 ≤ instA.demand.getD 0 0 ∧ instA.demand.getD 0 0 < 4 ∧ instA.rearmed = false ∧ instA.held = false) ∧
    (let a : Inst := { instA with st := .retired, held := true }
     let s := task a instB (usr {})
     a.rearmed = false ∧ a.held = true ∧ keeps lch 0 = true ∧ a.reruns < 7 ∧ (writeDemand lch a s).2 = true ∧
     (writeDemand lch a (setFunc s 0 { s1en := true })).2 = false) ∧
    (let a : Inst := { instA with rearmed := true }
     let s := task a instB (usr {})
     a.rearmed = true ∧ a.st ≠ .ready ∧ (writeDemand lch { a with requeue := [(0, 9)], waiters := [(1, 0, true)] } s).2 = true) ∧
    (let s := usr { waiting := some (.tdone 0) }
     (Machine.core s 0).user.waiting = some (.tdone 0) ∧ (Machine.core s 0).uload = true ∧ (Machine.core s 0).killing = false ∧ (Machine.core s 0).user.handler = none ∧
     (Machine.core s 0).user.inst = none) ∧
    (let g : Tx := { abort := 2 }
     let s := usr { waiting := some (.commit 9), tx := some g }
     (Machine.core s 0).sup.waiting = none ∧ (Machine.core s 0).user.waiting = some (.commit 9) ∧ (Machine.core s 0).user.tx = some g ∧ g.abort ≠ 0 ∧
     firstRefused 0 g.acts = none) ∧
    (let g : Tx := {}
     let s := usr { waiting := some (.commit 9), tx := some g }
     g.abort = 0 ∧ firstRefused 0 g.acts = none ∧ g.accounts = false ∧ g.acts.any (attLost (taken (.txCommit 0) s) 0) = false ∧
     g.acts.any (slotAsked (Machine.core s 0).user) = false ∧ sendsWait (taken (.txCommit 0) s) 0 false g = false ∧
     (match applyAll 0 false 0 g.acts [] (setCtxOf (taken (.txCommit 0) s) 0 false { (Machine.core s 0).user with tx := none }) with
      | .commit _ _ => true | _ => false) = true) ∧
    (let g : Tx := {}
     let s := usr { tx := some g, ctime := 65536 }
     (Machine.core s 0).sup.tx = none ∧ (Machine.core s 0).user.tx = some g ∧ (Machine.core s 0).user.waiting = none ∧ g.since + 65536 ≤ (Machine.core s 0).user.ctime) := by
  decide +kernel

/-- A message at the head of physical function 0's queue of die 0, that function ready. -/
def told (m : BitVec 512) (s : State) : State := setFunc (setDie s 0 { die s 0 with queues := [(0, [m])] }) 0 { ready := true }

theorem wit_ActiveMessages :
    (let f : Func := { held := [5], crsize := 8 }
     f.held = 5 :: [] ∧ f.crsize ≠ 0 ∧ f.crtail < f.crsize + f.crhead) ∧
    (let m : BitVec 512 := 0x101
     let s := told m State.reset
     (func s 0).ready = true ∧ (func s 0).held = [] ∧ (die s 0).reset = false ∧ (tget (die s 0).queues 0 []).head? = some m ∧
     bits m.toNat 7 0 = 1 ∧ launchReserved m.toNat = true) ∧
    (let m : BitVec 512 := BitVec.ofNat 512 (1 + 0x1000 * 2 ^ 64 + 0x2000 * 2 ^ 128 + 1 * 2 ^ 224 + 0x4000 * 2 ^ 256)
     let s := told m (inMem (setDie State.reset 0 { templates := [tmpl], images := [imgA] }))
     let y := lostToMgmt (bits m.toNat 113 64) 256 (taken (.launch 0 0 m) s)
     let g := regionStatus y (some 0) (bits m.toNat 113 64)
     let u := noteLoad 0 g.2 (bits m.toNat 179 128) y
     launchReserved m.toNat = false ∧ g.1 = 0 ∧ overQuota y (bits m.toNat 113 64) = false ∧
     askedFailed u 0 0 g.2 = none ∧
     (match loadTemplate u 0 g.2 (bits m.toNat 179 128) with
      | .ok t => (match hostLaunch (storeTemplate 0 t u) 0 0 m.toNat g.2 t with | .inr _ => true | _ => false) | _ => false) = true ∧
     (match loadTemplate u 0 g.2 (bits m.toNat 179 128) with
      | .ok t => (match hostLaunch (storeTemplate 0 t u) 0 0 0 g.2 t with | .inl _ => true | _ => false) | _ => false) = true ∧
     (match loadTemplate u 0 g.2 0x3000 with | .refuse _ => true | _ => false) = true ∧
     (match loadTemplate (setFunc u 0 { s1en := true }) 0 g.2 0x2000 with | .page _ _ _ => true | _ => false) = true) ∧
    (bits (0 : BitVec 512).toNat 7 0 = 0) ∧
    (let v := (2 : BitVec 512).toNat
     bits v 7 0 = 2 ∧ bits v 511 256 = 0 ∧ bits v 127 96 = 0 ∧ bits v 79 76 = 0 ∧ bits v 31 8 = 0 ∧ bits v 81 80 = 0 ∧
     (Machine.core State.reset 0).start = none ∧ (Machine.core State.reset 0).supOn = false ∧ (Machine.core State.reset 0).mappedOut = false ∧ (Machine.core (spv {}) 0).supOn = true) ∧
    (let v := (BitVec.ofNat 512 (3 + 1 * 2 ^ 64)).toNat
     bits v 7 0 = 3 ∧ bits v 511 80 = 0 ∧ bits v 31 8 = 0 ∧ launch State.reset 0 (bits v 79 64) = none ∧
     launch (task instA instB State.reset) 0 (bits v 79 64) = some lch ∧ lch.fn = 0) ∧
    (let v := (BitVec.ofNat 512 (4 + 1 * 2 ^ 64 + 0x8000 * 2 ^ 128)).toNat
     bits v 7 0 = 4 ∧ bits v 511 178 = 0 ∧ bits v 127 80 = 0 ∧ bits v 31 8 = 0 ∧ image State.reset 0 0 (bits v 79 64) = none ∧
     (die State.reset 0).images.length < 1024 ∧ (readImage (inMem State.reset) 0 (bits v 79 64) (bits v 177 128)).isSome = true ∧
     readImage State.reset 0 (bits v 79 64) (bits v 177 128) = none) ∧
    (let v := (BitVec.ofNat 512 (5 + 1 * 2 ^ 64)).toNat
     let s := task instA instB State.reset
     bits v 7 0 = 5 ∧ bits v 511 80 = 0 ∧ bits v 31 8 = 0 ∧ (image s 0 0 (bits v 79 64)).isSome = true ∧ imageUsed s 0 0 (bits v 79 64) = true ∧
     imageUsed (setDie s 0 { images := [imgA] }) 0 0 (bits v 79 64) = false) := by decide +kernel

/-- The instance of node A, waiting for its dispatch. -/
def readyA : Inst := { instA with st := .ready, word := true, cores := [], counter := 0 }

theorem wit_SaffronSteps :
    (launch (task instA instB State.reset) 0 1 = some lch ∧ (die (task instA instB State.reset) 0).reset = false) ∧
    (let s := task { readyA with starved := true } instB (inMem State.reset)
     let t := markFits 0 (taken (.taskSelect 0) s)
     let all := sortInsts ((die t 0).insts.filter Inst.pooled)
     let h := starvedHold t 0 (all.filter (·.starved))
     let z := setDie t 0 { die t 0 with holdCluster := h.map (·.1), holdTask := h.map (·.2) }
     ((all.filter (·.starved)).head?.bind fun i => (placeInst z none i).map fun p => (i, p)).isSome = true) ∧
    (let s := task readyA instB (inMem State.reset)
     let t := markFits 0 (taken (.taskSelect 0) s)
     let all := sortInsts ((die t 0).insts.filter Inst.pooled)
     let h := starvedHold t 0 []
     let z := setDie t 0 { die t 0 with holdCluster := h.map (·.1), holdTask := h.map (·.2) }
     (all.filter (·.starved)) = [] ∧ (choosePools 0 none all 8 z).2.isSome = true) ∧
    (let s := taken (.taskSelect 0) (task instA instB (inMem State.reset))
     (choosePools 0 none (sortInsts ((die s 0).insts.filter Inst.pooled)) 8 s).2 = none) ∧
    (let a : Inst := { instA with st := .placing }
     let s := inMem (task a instB (setCore State.reset 0 { power := .on }))
     inst s refA = some a ∧ nodeOf lch 0 = some nodeA ∧ image s 0 lch.fn nodeA.image = some imgA ∧ a.cores.all (fun c => powered (Machine.core s c)) = true ∧ a.areas = [] ∧
     (let t := a.cores.foldl (loadImage lch.snap imgA) (taken (.instanceStart refA) s)
      (bankdataRuns imgA.addr a.cores 0 (runsOf t imgA.addr imgA.textlen imgA.bdn) t).2 = none ∧
      (bankdataRuns imgA.addr a.cores 0 (runsOf t imgA.addr imgA.textlen 1) t).2 = some (0, 0))) ∧
    (let a : Inst := { instA with st := .placing, areas := [0x100000] }
     a.areas ≠ []) ∧
    (let k : Start := { sup := true, pc := 0 }
     let s := setCore State.reset 0 { power := .on, start := some k }
     (Machine.core s 0).start = some k ∧ powered (Machine.core s 0) = true ∧ storeComing (taken (.startMessage 0) s) 0 = false) ∧
    (let k : Start := { sup := false, pc := 0, ctx := some { inst := some refA } }
     let s := task instA instB (setCore State.reset 0 { power := .on, start := some k })
     (({ k with ctx := some {} } : Start).ctx.bind (·.inst)) = none ∧ k.ctx.bind (·.inst) = some refA ∧ inst s refA = some instA ∧ instA.cores.all (fun m => powered (Machine.core s m)) = true) ∧
    (let b : Inst := { instB with st := .ready, counter := 0, word := true, prio := 7, failedPlace := some 0 }
     let s := { inMem (task instA b (setCore State.reset 0 { power := .on, uload := true })) with elapsed := 4096 }
     (longUnplaced s 0).find? (fun i => (victimFor s i).isSome) = some b ∧ victimFor s b = some instA ∧
     (takeAreas instA (taken (.preemptDecision 0) s)).isSome = true) ∧
    (let m : Domain := { snap := { snap 0x1000 with fhimg := 1 } }
     let s := setDie (inMem State.reset) 0 { domains := [(0x40000, m)], images := [{ imgA with imgid := 0 }, imgA] }
     let p := handlerSnap s m.snap
     tfind (die s 0).domains 0x40000 = some m ∧ m.running = false ∧ m.covered < homeRead s 0x40000 8 ∧
     image s 0 (funcOf p.vf p.pfn) p.fhimg = some imgA ∧
     (match placement s { die := 0, rcb := p.rcb, img := imgA, shape := 0, size := 1, fresh := 0 } none with | some (_ :: _) => true | _ => false) = true) := by
  decide +kernel

theorem wit_TrapAndContextSteps :
    (let k := Machine.core (usr {}) 0
     userIssues k = true ∧ k.supOn = false ∧ trapCause 0x01 = true ∧ impreciseCause 0x01 = false ∧ k.tvec % 2 = 1) ∧
    (let k := Machine.core (usr { imprecise := [(0x40, 5)] }) 0
     userIssues k = true ∧ k.supOn = false ∧ k.user.imprecise = (0x40, 5) :: [] ∧ k.user.hint = .none ∧ k.user.midway = false ∧ k.tvec % 2 = 1) ∧
    (let k := Machine.core (spv {}) 0
     k.supOn = true ∧ k.tvec % 2 = 1 ∧ k.spend = false) ∧
    (let s := usr {}
     let k := Machine.core s 0
     let kt := setCore (taken (.contextKill 0 0x66 0 0) s) 0 { k with killing := true }
     let z := withdraw 0 false kt
     let z := { z with accesses := z.accesses.filter fun a => !(a.core == 0 && !a.sup) }
     k.uload = true ∧ k.user.waiting = none ∧ k.user.inst = none ∧
     tableDone (dealTable 0 (setCore z 0 { Machine.core z 0 with user := (Machine.core z 0).user.stripped, fwd := none })) 0 = true) ∧
    (let s := task instA instB (setCore State.reset 0 { power := .on, uload := true, udisp := true, user := { inst := some refA } })
     let k := Machine.core s 0
     k.user.inst.bind (inst s) = some instA ∧ k.uload = true ∧ k.udisp = true ∧ instA.st = .running ∧
     instA.cores.all (fun m => !(Machine.core s m).killing) = true ∧
     (match takeAreas instA (taken (.preemption 0) s) with
      | some t => instA.cores.all (stopped (instA.cores.foldl (setPreempt true) t)) && (inst (instA.cores.foldl (setPreempt true) t) refA).isSome
      | none => false) = true) ∧
    (let a : Inst := { instA with st := .placing, areas := [0x100000] }
     let x : Ctx := { inst := some refA }
     let s := { task a instB (setCore State.reset 0 { power := .on }) with areas := [(0x100000, (0, x))] }
     tfind s.areas 0x100000 = some (0, x) ∧ x.inst.bind (inst s) = some a ∧ (Machine.core s 0).uload = false ∧ a.cores.contains 0 = true ∧
     a.areas.contains 0x100000 = true ∧ powered (Machine.core s 0) = true ∧ a.areas.length = 1 ∧ 1 < [0x100000, 0x200000].length) ∧
    (let k := Machine.core (usr { acct := [(0, 2 ^ 47)] }) 0
     residentOf k = some false ∧ k.user.acct.any (fun p => decide (2 ^ 47 ≤ p.2)) = true) := by decide +kernel

theorem wit_PowerSteps :
    (let s := { setCore State.reset 0 { power := .on } with elapsed := 16384 }
     (Machine.core s 0).power = .on ∧ residentOf (Machine.core s 0) = none ∧ messagePending (taken (.coreGatingStart 0) s) 0 = false ∧
     (Machine.core s 0).idleSince + 16384 ≤ s.elapsed) ∧
    (∀ p ∈ [Power.gating false false, .gating true true], let s := { setCore State.reset 0 { power := p } with elapsed := 64 }
       (Machine.core s 0).power = p ∧ (Machine.core s 0).idleSince + 64 ≤ s.elapsed) ∧
    (let s := { setCluster State.reset 63 { power := .on } with elapsed := 65536 }
     (cluster s 63).power = .on ∧ (∀ m ∈ clusterCores 63, (Machine.core s m).power = .off) ∧ banksIdle s 63 = true ∧ clusterIdleSince s 63 + 65536 ≤ s.elapsed) ∧
    (∀ p ∈ [Power.gating false true, .gating true false, .off, .waking], let s := { setCluster State.reset 63 { power := p } with elapsed := 512 }
       (cluster s 63).power = p ∧ (cluster s 63).idleSince + 512 ≤ s.elapsed) ∧
    (let s := setCluster (setCore State.reset 0 { power := .waking }) 0 { power := .on }
     (Machine.core s 0).power = .waking ∧ clusterOf 0 = some 0 ∧ (cluster s 0).power = .on) ∧
    State.reset.mgmt.poweredUp = false ∧
    (let s := setSem (setSem State.reset 1 { owner := 1 }) 2 { owner := 1 }
     owns s 0 1 = true ∧ owns s 0 2 = true ∧ owns s 1 1 = false ∧ owns s 1 2 = false) := by decide +kernel

theorem wit_HostSteps :
    (let s := setSem (setSem State.reset 0 { owner := 1 }) 3 { owner := 1 }
     owns s 0 0 = true ∧ owns s 0 3 = true ∧ owns s 1 0 = false ∧ (sem s 2).owner = 0 ∧ (sem s 0).owner ≠ 0) ∧
    (let s := setFunc State.reset 1 { numVfs := 12 }
     50 + (func s 1).numVfs ≤ 62 ∧ 62 < 51 + (func s 1).numVfs) ∧
    (let e : Event := .istoreHostWrite 0 0 0xFFFC 5
     let s := { usr {} with flight := [e] }
     0xFFFC % 4 = 0 ∧ (Machine.core s 0).power = .on ∧ s.flight.find? (storeTo 0) = some e ∧ 0xFFFC < (Machine.core s 0).tlim ∧
     0x8000 ≤ (Machine.core (setCore s 0 { tlim := 0x8000 }) 0).tlim) ∧
    (isLpddr (bits (BitVec.ofNat 256 0x017FFFFFFFF0).toNat 49 0) = true ∧ bits (BitVec.ofNat 256 0x017FFFFFFFF0).toNat 49 0 % 16 = 0 ∧
      bits (8 : BitVec 256).toNat 49 0 % 16 ≠ 0) ∧
    ((tget State.reset.mgmt.bq 27 {}).open_ = [] ∧ State.reset.flight.any (noticeOf 27) = false ∧
      noticeOf 27 (.blockNoticeArrival { die := 3, link := 6, rank := 0, block := 0, bytes := [] }) = true ∧
      (tget ({ State.reset with mgmt := { bq := [(27, { open_ := [(0, 1)] })] } } : State).mgmt.bq 27 {}).open_ ≠ []) ∧
    (0xFFF + [(1 : Byte)].length ≤ 4096) ∧
    (let s := setSem (nol {} 3 []) 0 { owner := 1 }
     owns s 0 0 = true ∧ (residentOf (Machine.core s nolornCore)).isSome = true ∧ inboxRoom s nolornCore (residentSide s nolornCore) = true) ∧
    (let s := setSem State.reset 0 { owner := 1 }
     owns s 1 0 = false ∧ owns s 0 0 = true ∧ residentOf (Machine.core s nolornCore) = none) ∧
    ((nol {} 7 []).nolorn.fuse = 7 ∧ (nol {} 3 []).nolorn.fuse ≠ 7) := by decide +kernel

theorem wit_ErrorSteps :
    (255 < 256 ∧ 0xFFFC % 4 = 0 ∧ 0xFFFC < 65536 ∧ 2 ≤ 4 ∧ physOk State.reset 0x017FFFFFFFFF = true) ∧
    (let s := { State.reset with mgmt := { cethr := [(0, 1), (1, 1)], cecnt := [(0, 2), (2 ^ 32 + 5, 2)] } }
     overThreshold s 0 0 = true ∧ overThreshold s 1 5 = true) ∧
    (let s := setBank (setBank State.reset 5 { marked := true }) 6 { marked := true, cond := .attached }
     (bankAt s 5).marked = true ∧ (bankAt s 5).cond = .free ∧ isCommon s 0 5 = false ∧
     isCommon (setCluster s 0 { cbl := 8, en := true }) 0 511 = true ∧ (bankAt s 6).marked = true ∧ (bankAt s 6).cond = .attached) ∧
    (let x : Die := { markedCh := [47], retiredCh := [1] }
     x.markedCh.contains 47 = true ∧ x.retiredCh.contains 47 = false ∧ 16 * (x.retiredCh.length + 1) ≤ 48 - (x.retiredCh.length + 1)) ∧
    (let s := setCore State.reset 4208 { marked := true }
     (Machine.core s 4208).marked = true ∧ residentOf (Machine.core s 4208) = none ∧ (Machine.core s 4208).start = none ∧ reservedCore s 4208 = false ∧
     s.areas.any (fun p => p.2.1 == 4208) = false) ∧
    ((link State.reset 15).spare = true ∧ (link (setLink State.reset 15 { spare := false }) 15).spare = false) := by decide +kernel

theorem wit_DebugSteps :
    (let s := { usr {} with nolorn := { fuse := 0, unlk := true } }
     let k := Machine.core s 0
     portOpen s = true ∧ k.uload = true ∧ k.killing = false ∧ k.user.dbg.halted = false ∧ taken_ (taken (.debugHaltRequest 0) s) k.user = false ∧ k.fwd = none ∧
     k.power = .on ∧ (Machine.core s 1).power ≠ .on ∧ [0, 1].all isCore = true ∧ [0, 1].length ≠ 1) ∧
    (Machine.core (usr { dbg := { halted := true } }) 0).user.dbg.halted = true ∧
    (Machine.core (usr { dbg := { enc := [5] } }) 0).user.dbg.enc = 5 :: [] ∧
    State.reset.mgmt.duskBusy = false ∧
    (let s : State := { State.reset with mgmt := { duskPeriod := 4096, duskAt := 4096 }, elapsed := 4096 }
     s.mgmt.duskPeriod ≠ 0 ∧ s.mgmt.duskAt ≤ s.elapsed) ∧
    (let s : State := { State.reset with mgmt := { duskPeriod := 4096, duskAt := 4096 }, elapsed := 4095 }
     s.mgmt.duskPeriod ≠ 0 ∧ s.elapsed < s.mgmt.duskAt) ∧
    ((specialWrite 0x230 0 (taken (.bwtcWrite 0) (usr (slot0 {})))).isSome = true ∧
      (onSup (spv {}) = true ∧ (specialWrite 0x210 0 (taken (.trctlWrite 0) (spv {}))).isSome = true ∧ (specialWrite 0x32 0 (taken (.dtentWrite 0) (spv {}))).isSome = true) ∧
      (rstoBusy (curCore (usr {})) = false ∧ (specialWrite 3 7 (taken (.rseedWrite 7) (usr {}))).isSome = true)) ∧
    (let s := { nol {} 3 [] with nolorn := { fuse := 3, wiped := true, ext := true } }
     s.cur = nolornCore ∧ onSup s = true ∧ (specialWrite 0x310 1 (taken (.dbgopenWrite 1) s)).isSome = true ∧
     (specialWrite 0x300 7 (taken (.fuseWrite 7) s)).isSome = true) ∧
    (let s := { State.reset with nolorn := { fuse := 3, blowing := [(7, 100), (2, 101)] }, elapsed := 100 }
     s.nolorn.blowing = (7, 100) :: [(2, 101)] ∧ 100 ≤ s.elapsed ∧ ({ s with elapsed := 99 } : State).elapsed < 100) := by decide +kernel

theorem wit_DecodeAndEncodeAgree :
    (let i : Instr := .shash 3 4 5
     encodeNat i = some 0x44031050 ∧ i.wf true = true ∧ securityWord i = true) ∧
    (let i : Instr := .add 33 18 13 1
     encodeNat i = some 0x042148D1 ∧ i.wf false = true ∧ securityWord i = false) ∧
    decode false true .none 0x042148D1 = .ok (.add 33 18 13 1) ∧ decode false true (.hx [5]) 0x00E18F25 = .ok (.ldi 33 0x8F25) := by decide +kernel

theorem wit_StepRunsDecodedInstruction :
    (∀ sup ∈ [true, false],
      let x : Ctx := { pc := 8, acct := [(0, 5)] }
      let s := setCluster { (if sup then spv x else usr x) with istore := [(11, 3)] } 0 { power := .on }
      let k := Machine.core s s.cur
      let y := ctxOf s s.cur sup
      s.inputs = [] ∧ s.agenda = [] ∧ s.order = [] ∧ coreStopped s = false ∧ k.power = .on ∧ k.supOn = sup ∧
      (if sup then supIssues k else userIssues k) = true ∧ (if sup then k.smap else k.umap) = false ∧ k.smapOld = none ∧ k.fwd = none ∧ accountsFull s = false ∧
      y.role = .single ∧ y.tx = none ∧ y.waiting = none ∧ y.imprecise = [] ∧ y.dbg.ibp = [] ∧ y.reps = [] ∧ y.stale = [] ∧ y.pend = [] ∧
      decode (decide (s.cur = nolornCore)) (!sup) y.hint (storeWord s s.cur y.pc).toNat = .ok .brk ∧
      (match prepare s with | .run i _ => i == .brk | _ => false) = true) ∧
    ({ State.reset with agenda := [Event.powerGood] } : State).agenda = Event.powerGood :: [] ∧
    ({ State.reset with inputs := [.portReg 0 1 5] } : State).inputs = .portReg 0 1 5 :: [] := by decide +kernel

/-- A step from a state with canonical memories gives a next state. -/
theorem wit_StepKeepsMemoriesCanonical :
    memoriesWf ({ State.reset with agenda := [.bankScrubDone 0] } : State) = true ∧
    ∃ t, step ({ State.reset with agenda := [.bankScrubDone 0] } : State) = .next t := ⟨rfl, _, rfl⟩

/-! ## Words that the spec writes out (R137, R180, R307, R326, R337, R338 and the words of the guide listing) -/

theorem test_spec_words : (let d (w : Nat) : Option Instr := (decode true false .none w).instr?
    [d 0x00400001, d 0x00C40000, d 0x0C0C1080, d 0x00800000, d 0x1D4A141F, d 0x044E2060, d 0x144E0006, d 0x17000000, d 0x16C00400, d 0x01C00005] =
    [some (.hx 1), some (.ldi 4 0), some (.addi 12 4 128), some (.hv false 0 false 0 0 0 false 0), some (.ldWZ 10 5 31), some (.sub 14 8 6 0),
     some (.bne 14 0 6), some .nop, some (.rep 0 4 0 0), some (.trap 0 5)]) := by decide +kernel

theorem test_spec_words_engines : (let d (w : Nat) : Option Instr := (decode true false .none w).instr?
    [d 0x2C810200, d 0x214AC802, d 0x2A001439, d 0x2A288400, d 0x3CEC0202, d 0x41031055, d 0x42800000, d 0x43010200, d 0x03400021, d 0x44031050, d 0x3041A000] =
    [some (.vmul none 2 0 1 false), some (.ldxWZ 10 50 2), some (.cpy none 0 1 2 0 3 true false 1), some (.cpy (some 2) 1 0 2 0 0 false false 0),
     some (.mma (some 3) 0 0 1 false false false false 2), some (.send 3 4 5 5), some (.tdone 0), some (.baddq none 2 0 1 false false),
     some (.lblpush 0x21), some (.shash 3 4 5), some (.vqnt none 3 2 false false)]) := by decide +kernel

/-- R137: a hint word before an instruction that takes none. -/
theorem test_hint_misuse : decode false false (.hv 0) 0x044E2060 = .hintMisuse := by decide +kernel

/-! ## Single steps: the results are the spec's examples or worked by hand from its rules -/

/-- A reading of the next state. -/
def got {α : Type} (o : Out) (f : State → α) : Option α := match o with | .next t => some (f t) | _ => none

/-- R162: 2^31 - 1 + 1 wraps at width 32 and is sign-extended. -/
theorem test_add_wraps : got (exec (.add 3 1 2 2) (usr (ks 0x7FFFFFFF 1 0))) (fun t => (rv t 3, (cx t).pc)) = some (-0x80000000, 4) := by decide +kernel

theorem test_sub_order : got (exec (.sub 3 1 2 0) (usr (ks 3 5 0))) (fun t => rv t 3) = some (-2) := by decide +kernel

theorem test_mulh_signs : got (exec (.mulh 3 1 2 1) (usr (ks (-2) 3 0))) (fun t => rv t 3) = some (-1) := by decide +kernel

/-- R163: -2^31 / -1 at width 32, and its remainder. -/
theorem test_div_corner : got (exec (.div 3 1 2 2) (usr (ks 0x80000000 (-1) 0))) (fun t => rv t 3) = some (-0x80000000) := by decide +kernel
theorem test_rem_sign : got (exec (.rem 3 1 2 0) (usr (ks (-7) 2 0))) (fun t => rv t 3) = some (-1) := by decide +kernel
theorem test_div_zero_traps : exec (.div 3 1 2 0) (usr { ks 7 0 9 with dzt := true }) = .next (trapWord 7 (usr { ks 7 0 9 with dzt := true })) := rfl

/-- R162: the shift amount is taken modulo the width. -/
theorem test_sll_modulo : got (exec (.sll 3 1 2 2) (usr (ks 3 33 0))) (fun t => rv t 3) = some 6 := by decide +kernel
theorem test_ror : got (exec (.ror 3 1 2 1) (usr (ks 1 4 0))) (fun t => rv t 3) = some (1 <<< 60) := by decide +kernel
theorem test_clz_zero : got (exec (.clz 3 1 1) (usr (ks (1 <<< 64) 0 0))) (fun t => rv t 3) = some 64 := by decide +kernel

/-- R164: SEL tests the old destination. -/
theorem test_sel_old : got (exec (.sel 3 1 2) (usr (ks 5 6 7))) (fun t => rv t 3) = some 5 := by decide +kernel

/-- R165: bits 11:4 sign-extended; and a field put back in its place. -/
theorem test_bfx_signed : got (exec (.bfx 3 1 2 true) (usr (ks 0xF80 0x804 0))) (fun t => rv t 3) = some (-8) := by decide +kernel
theorem test_bfi : got (exec (.bfi 3 1 2) (usr (ks 0x1FF 0x804 0xF000F))) (fun t => rv t 3) = some 0xF0FFF := by decide +kernel

/-- R137, R161: an HX of 1 before LDI 0 gives 0x1_0000 (the guide listing's words at 4 and 8). -/
theorem test_ldi_wide : got (exec (.ldi 4 0) (usr { hint := .hx [1] })) (fun t => ((rv t 4), (cx t).hint)) = some (0x10000, .none) := by decide +kernel

/-- R145: a write to k0 is discarded. -/
theorem test_k0 : got (exec (.addi 0 1 5) (usr (ks 1 0 0))) (fun t => (rv t 0, (cx t).regs == (ks 1 0 0).regs)) = some (0, true) := by decide +kernel

/-- R167, R168: 1.0 + 2.0; 1.0 x 2.0 + 3.0; 1/3 of FP32 to FP16 is inexact. -/
theorem test_fadd : got (exec (.fadd 3 1 2 0) (usr (ks 0x3F800000 0x40000000 0))) (fun t => (rv t 3, (cx t).fexc)) = some (0x40400000, 0) := by decide +kernel
theorem test_ffma : got (exec (.ffma 3 1 2 0) (usr (ks 0x3F800000 0x40000000 0x40400000))) (fun t => rv t 3) = some 0x40A00000 := by decide +kernel
theorem test_fcvt_inexact : got (exec (.fcvt 3 1 0 2) (usr (ks 0x3EAAAAAB 0 0))) (fun t => (rv t 3, (cx t).fexc)) = some (0x3555, 0x10) := by decide +kernel

/-- R169: -0 is the lesser; a comparison with a quiet NaN is false and, for FLT, invalid. -/
theorem test_fmin_zeros : got (exec (.fmin 3 1 2 0) (usr (ks 0 0x80000000 0))) (fun t => rv t 3) = some 0x80000000 := by decide +kernel
theorem test_flt_nan : got (exec (.flt 3 1 2 0) (usr (ks 0x7FC00000 0 0))) (fun t => (rv t 3, (cx t).fexc)) = some (0, 1) := by decide +kernel

/-- R173's example: bounds of 1 MiB from 0x10_0000, address 0x10_0010, length 0x5_0000: [0x10_0000, 0x15_0020), inexact. -/
def capMiB : Word := BitVec.ofNat 128 (0x100010 + 0x400 * 2 ^ 52 + 0x400 * 2 ^ 66 + 10 * 2 ^ 80 + 0xFF * 2 ^ 86)
theorem test_csetb_example : (let s := usr { regs := [(1, { val := capMiB, tag := true }), (2, { val := 0x50000 })] }
    (got (exec (.csetb 3 1 2 false) s) (fun t => (capBounds (rv t 3).toNat, capTop (rv t 3).toNat, (rk t 3).tag)),
     got (exec (.csetb 3 1 2 true) s) (fun t => (rk t 3).tag))) = (some ((0x100000, 0x150020), 10241, true), some false) := by decide +kernel

/-- R176, R178: a branch back by two words; a jump to a register, the link written after it is read. -/
theorem test_blt_back : got (exec (.blt 1 2 (-2)) (usr { ks (-1) 0 0 with pc := 16 })) (fun t => (cx t).pc) = some 8 := by decide +kernel
theorem test_bltu_not : got (exec (.bltu 1 2 (-2)) (usr { ks (-1) 0 0 with pc := 16 })) (fun t => (cx t).pc) = some 20 := by decide +kernel
theorem test_jr_link : got (exec (.jr 1 1) (usr { ks 0x10040 0 0 with pc := 16 })) (fun t => ((cx t).pc, rv t 1)) = some (0x40, 20) := by decide +kernel

/-- R180: the last word of the body goes back to the first, on the next pass. -/
theorem test_rep_wraps : got (exec .nop (usr { pc := 8, reps := [{ start := 4, n := 2, stride := 0, count := 2 }] }))
    (fun t => ((cx t).pc, (cx t).reps.map (·.pass))) = some (4, [1]) := by decide +kernel

/-- R331, R333, R337, R338: the entry of a user's TRAP 5 and the return from it. -/
theorem test_trap_entry : (let t := takeTrap 0 0x85 false 77 (one { uload := true, tvec := 0x4001, user := { ks 77 0 0 with pc := 12 } })
    ((Machine.core t 0).tcause, (Machine.core t 0).tpc, (Machine.core t 0).tval, (Machine.core t 0).pendT, (Machine.core t 0).supOn, (Machine.core t 0).sup.pc)) =
    (0x85, 12, 77, true, true, 0x4000 + 64 * 6) := by decide +kernel
theorem test_tret : (let t := returnUser 0 (one { uload := true, supOn := true, pendT := true, tpc := 12, user := { pc := 0 } })
    ((Machine.core t 0).pendT, (Machine.core t 0).supOn, (Machine.core t 0).user.pc)) = (false, false, 12) := by decide +kernel

/-- R148, R150: SRD gives the core's number; a reserved bit written traps with cause 4. -/
theorem test_swr_reserved : exec (.swr 1 2) (usr (ks 0x20 0 0)) = .next (trapWord 4 (usr (ks 0x20 0 0))) := rfl
theorem test_srd_fmt : got (exec (.srd 3 1) (usr {})) (fun t => rv t 3) = some 0x00FF100A := by decide +kernel

/-- R208: a byte stored, and loaded sign-extended from the bank behind slot 0. -/
theorem test_store_byte : got (exec (.stB 1 2 1) (usr (slot0 (ks 0x1F0 0x20 0)))) (fun t => (t.bankMem, (cx t).pc)) = some ([(3 * 32768 + 0x21, 0xF0)], 4) := by
  decide +kernel
theorem test_load_sign : got (exec (.ldHS 3 2 1) { usr (slot0 (ks 0 0x20 0)) with bankMem := [(3 * 32768 + 0x22, 0x01), (3 * 32768 + 0x23, 0x80)] })
    (fun t => rv t 3) = some (-0x7FFF) := by decide +kernel

/-- R218, R228, R293: a store of 16 bytes with its tag is applied at its home; a load's register is outstanding until the reply. -/
theorem test_ldx_posts : got (exec (.ldxWZ 3 1 1) (usr (capk 0x100 3 0 true 0 0))) (fun t => (t.accesses.map (fun a => (a.dest == .home 0x104, a.size, a.reg)), tfind (cx t).pend 3)) =
    some ([(true, 4, some 3)], some 21) := by decide +kernel
theorem test_home_write : got (exec (.homeApply 7) (under { acc1 .slice with dest := .home 0x200, size := 16, write := some (toBytes 16 5), tags := [true], reg := none }))
    (fun t => (t.mem, t.tags, t.accesses == [])) = some ([(0x200, 5)], [0x20], true) := by decide +kernel
theorem test_read_return : got (exec (.readReturn 7) (under { acc1 .served with val := [1, 2, 3, 0x84], sg := true })) (fun t => reg (Machine.core t 0).user 5) =
    some { val := -0x7BFCFDFF } := by decide +kernel

/-- R230: an atomic minimum is signed or unsigned by its operation. -/
theorem test_amo_min : amoResult 1 4 0xFFFFFFFF 1 0 = 0xFFFFFFFF ∧ amoResult 3 4 0xFFFFFFFF 1 0 = 1 := by decide +kernel

/-- R246, R253: one group of VADD adds 1.0 and 2.0. -/
theorem test_vadd_group : got (exec (.vectorGroup 0) { usr (strs { vq := [{ vadd1 with run := some { len := 1 } }] }) with
      bankMem := [(0x18042, 0x80), (0x18043, 0x3F), (0x18083, 0x40)] }) (fun t => ofBytes (memBytes t.bankMem 0x18000 4)) = some 0x40400000 := by decide +kernel

/-- The example after R262: VQNT of 1.0, -0.375, 0.0625, 0.6875 and 252 zeros with tolerance 24 gives a BX4 block: bytes 0x12, 0x7F, 0x48,
0x83, and a tail of 0x18 and 0x04. -/
def vqntExample : State :=
  { usr { attach := [(0, { valid := true, perm := 15, bank := 3 }), (1, { valid := true, perm := 15, bank := 4 })],
          streams := [(2, { fmt := 0, base := 0, stride := 1, count := 256 }), (3, { fmt := 18, base := 0x8000, stride := 1, count := 256 })],
          vq := [{ op := .qnt false false, x := 3, y := 2, z := 0, env := { tol := 24 }, run := some { len := 256 } }] } with
    bankMem := memPut [] 0x18000 (toBytes 4 0x3F800000 ++ toBytes 4 0xBEC00000 ++ toBytes 4 0x3D800000 ++ toBytes 4 0x3F300000) }
theorem test_vqnt_example : got (exec (.vectorGroup 0) vqntExample) (fun t => (memBytes t.bankMem 0x20000 4, memBytes t.bankMem 0x2003E 2)) =
    some ([0x12, 0x7F, 0x48, 0x83], [0x18, 0x04]) := by decide +kernel

/-- R62, R278: MMA of two one-element tiles of 1.0, accumulating on an empty accumulator, keeps the cell 1.0 for its write-back. -/
theorem test_mma : (let m : MCmd := { op := .mma 2 false false false false, x := 0, y := 0, z := 1 }
    match takeHead 0 false m (usr (tiles { mq := [m] })) with | .done t => some (tget (tget (Machine.core t 0).user.fresh 0 []) 0 0#32) | _ => none) =
    some 0x3F800000 := by decide +kernel

/-- R197: ATT of a fresh bank gives the nearest one; R306: SEND waits for its status. -/
theorem test_att_fresh : got (exec (.att 3 1 2) (usr (ks 0x304 0 0))) (fun t => (rv t 3, entry (cx t) 4, (bankAt t 0).cond)) =
    some (0, { perm := 3, valid := true }, .attached) := by decide +kernel
theorem test_send : got (exec (.send 3 1 2 6) (usr (ks 0 99 0))) (fun t => (t.flight.any (fun e => match e with | .messageArrival m => m.payload == 99 && m.target == 0 | _ => false),
      tfind (cx t).pend 3, (cx t).sends)) = some (true, some 8, 1) := by
  decide +kernel

/-- R350, R351: TXB opens a group; a second is misuse. -/
theorem test_txb_twice : exec .txb (usr { tx := some {} }) = .next (trapWord 0x0A (usr { tx := some {} })) := rfl

/-- R110, R320: the last decrement readies its target. -/
theorem test_decrement : got (exec (.dependenceDecrement { target := refB, byNode := 0, core := 0, pc := 8, reg := some 9 }) (task instA instB (usr {})))
    (fun t => ((inst t refB).map (fun i => (i.counter, i.st)), reg (Machine.core t 0).user 9)) = some (some (0, .ready), { val := 19 }) := by decide +kernel

/-- R389: the SM3 digest of "abc", from the standard's own example. -/
theorem test_sm3_abc : ofBytesBE (sm3 [0x61, 0x62, 0x63]) = 0x66c7f0f462eeedd9d1f2d46bdc10e4e24167c4875cf2f7a2297da02b8f4ba8e0 := by decide +kernel

/-- R389: the SM4 standard's example block. -/
theorem test_sm4_block : (let k := (toBytes 16 0x0123456789abcdeffedcba9876543210).reverse
    ofBytesBE (sm4Block (sm4Schedule k) k)) = 0x681edf34d206965e86b3e94f536e4246 := by decide +kernel

/-- A step fetches the word at the program counter and runs it: ADDI k1, k0, 7 placed by withFetchWord. -/
theorem test_step : got (step (State.reset.withFetchWord 32 0x0C010007)) (fun t => ((Machine.core t 0).sup.pc, reg (Machine.core t 0).sup 1)) = some (4, { val := 7 }) := by
  decide +kernel

end Sys2Proof.Tests
end

section
/-! SUPPORT. The scalar integer results as bit vectors (R162, R163), and precise traps apart from time (R331, R333, R336). -/

namespace Sys2Proof.Machine

open Sys2Proof.Claims

/-! ## Numbers as bit vectors -/

theorem ofNat_wrap (w : Nat) (i : Int) : BitVec.ofNat w (wrap w i) = BitVec.ofInt w i := by
  rw [wrap, ← BitVec.toNat_ofInt, BitVec.ofNat_toNat, BitVec.setWidth_eq]

theorem signed_eq_toInt (w x : Nat) : signed w x = (BitVec.ofNat w x).toInt := by
  have half : x % 2 ^ w < 2 ^ (w - 1) ↔ 2 * (x % 2 ^ w) < 2 ^ w := by
    cases w with
    | zero => simp [Nat.mod_one]
    | succ w => rw [Nat.add_sub_cancel, Nat.pow_succ]; omega
  simp only [signed, BitVec.toInt, BitVec.toNat_ofNat, half]

@[simp] theorem signed_toNat {w : Nat} (x : BitVec w) : signed w x.toNat = x.toInt := by
  rw [signed_eq_toInt, BitVec.ofNat_toNat, BitVec.setWidth_eq]

theorem toWord_eq_ofInt (i : Int) : toWord i = BitVec.ofInt 128 i := ofNat_wrap 128 i

theorem sext_eq_signExtend (w x : Nat) : sext w x = (BitVec.ofNat w x).signExtend 128 := by
  rw [sext, toWord_eq_ofInt, signed_eq_toInt]; rfl

/-! ## The operands and the result of an integer operation (R162) -/

/-- A width code selects its width. -/
theorem widthOf_of_width {n : BitVec 2} {w : Nat} (h : Width n w) : widthOf n = w := by
  obtain ⟨rfl, rfl⟩ | ⟨rfl, rfl⟩ | ⟨rfl, rfl⟩ := h <;> rfl

/-- The operands read the low `w` bits of the two registers. -/
theorem intArgs_of_width {n : BitVec 2} {w : Nat} (h : Width n w) (a b : BitVec 6) (s : State) :
    intArgs a b n s = { w := w, xu := ((rv s a).setWidth w).toNat, yu := ((rv s b).setWidth w).toNat } := by
  simp only [intArgs, widthOf_of_width h, rn, BitVec.toNat_setWidth]

@[simp] theorem xs_ofBitVec {w : Nat} (x : BitVec w) (y : Nat) : IntArgs.xs ⟨w, x.toNat, y⟩ = x.toInt := signed_toNat x

@[simp] theorem ys_ofBitVec {w : Nat} (x : Nat) (y : BitVec w) : IntArgs.ys ⟨w, x, y.toNat⟩ = y.toInt := signed_toNat y

/-- An integer result is its bits at width `w`, sign-extended. -/
theorem integer_intDone {w : Nat} (d : BitVec 6) (s : State) {i : Int} {r : BitVec w} (h : BitVec.ofInt w i = r) :
    Integer (.next (intDone d w i s)) s d r := by
  have hv : sext w (wrap w i) = r.signExtend 128 := by rw [sext_eq_signExtend, ofNat_wrap, h]
  unfold Integer
  rw [← hv]
  exact writes_putReg s d _

/-- A word that writes a value to kD with tag 0. -/
theorem value_putWord (d : BitVec 6) (s : State) {v v' : Word} (h : v = v') : Value (.next (finish (putWord d v s))) s d v' :=
  h ▸ writes_putReg s d _

/-! ## Precise traps apart from time (R331, R333, R336) -/

theorem stillCtx_abortTx (x : Ctx) (why : Nat) : stillCtx (x.abortTx why) = (stillCtx x).abortTx why := by
  simp only [Ctx.abortTx, show (stillCtx x).tx = x.tx from rfl]
  split
  · split <;> rfl
  · rfl

theorem stillCtx_detach (x : Ctx) : stillCtx x.detach = (stillCtx x).detach := by
  simp only [Ctx.detach, show (stillCtx x).role = x.role from rfl]
  split <;> rfl

/-- An abort leaves where the context restarts as it was. -/
theorem restart_abortTx (x : Ctx) (why : Nat) : restart (x.abortTx why) = restart x := by
  unfold Ctx.abortTx
  split
  · split <;> rfl
  · rfl

/-- So does detaching from a leader. -/
theorem restart_detach (x : Ctx) : restart x.detach = restart x := by
  unfold Ctx.detach
  split <;> rfl

/-- The core after a precise trap of its user context. -/
def userTrapCore (cause class_ : Nat) (val : Word) (k : Core) : Core :=
  { k with
    user := { (k.user.abortTx 3).detach with pc := restart k.user, hint := .none, waiting := none }
    fwd := none, fwdh := [], walkFail := none, tcause := cause, tpc := restart k.user, tval := val, pendT := true, supOn := true
    sup := { k.sup with pc := (k.tvec / 512 * 512 + 64 * class_) % 65536, hint := .none, waiting := none } }

/-- The core after a first trap of its supervisor. -/
def supTrapCore (cause : Nat) (val : Word) (k : Core) : Core :=
  { k with
    stcause := cause, stpc := restart k.sup, stval := val, spend := true, repShadow := some k.sup.reps
    sup := { k.sup.abortTx 3 with pc := (k.tvec / 512 * 512 + 0x1C0) % 65536, hint := .none, waiting := none, reps := [] } }

theorem userTrapped_eq (s : State) (cause class_ : Nat) (val : Word) :
    userTrapped s cause class_ val = setCore s s.cur (userTrapCore cause class_ val (curCore s)) := rfl

theorem supTrapped_eq (s : State) (cause : Nat) (val : Word) :
    supTrapped s cause val = setCore s s.cur (supTrapCore cause val (curCore s)) := rfl

theorem stillCore_userTrapCore (cause class_ : Nat) (val : Word) (k : Core) :
    stillCore (userTrapCore cause class_ val k) = userTrapCore cause class_ val (stillCore k) := by
  have hu : stillCtx (k.user.abortTx 3).detach = ((stillCtx k.user).abortTx 3).detach := by rw [stillCtx_detach, stillCtx_abortTx]
  simp only [userTrapCore, stillCore]
  rw [← hu]
  rfl

theorem stillCore_supTrapCore (cause : Nat) (val : Word) (k : Core) :
    stillCore (supTrapCore cause val k) = supTrapCore cause val (stillCore k) := by
  simp only [supTrapCore, stillCore]
  rw [← stillCtx_abortTx]
  rfl

theorem tvec_of_still {k k' : Core} (h : stillCore k = stillCore k') : k.tvec = k'.tvec := by
  have := congrArg Core.tvec h; exact this

theorem spend_of_still {k k' : Core} (h : stillCore k = stillCore k') : k.spend = k'.spend := by
  have := congrArg Core.spend h; exact this

/-- Settling a core's accounts is invisible apart from time. -/
theorem stillCore_core_settle (s : State) (c : Nat) : stillCore (core (settle c s) c) = stillCore (core s c) := by
  unfold settle
  split
  · rfl
  · rw [core_setCore, if_pos rfl, stillCore_chargeCore]

theorem setCore_settle (s : State) (c : Nat) (k : Core) : setCore (settle c s) c k = setCore s c k := by
  unfold settle
  split
  · rfl
  · rw [setCore_setCore]

/-- The restart address as `userTrap` and `supTrap` compute it. -/
theorem restart_eq_ite (x : Ctx) : (if (false || x.hint == Hint.none) = true then x.pc else x.hintPc) = restart x := by
  simp [restart]

/-- A precise trap of a user context, with traps on. -/
theorem userTrap_of_on (c cause : Nat) (val : Word) (s : State) (h : (core s c).tvec % 2 = 1) :
    userTrap c cause false val s = setCore s c (userTrapCore cause (causeClass cause) val (core (settle c s) c)) := by
  have ht : (core (settle c s) c).tvec = (core s c).tvec := tvec_of_still (stillCore_core_settle s c)
  have h0 : ¬ (core (settle c s) c).tvec % 2 = 0 := by omega
  simp only [userTrap, if_neg h0, restart_eq_ite, restart_detach, restart_abortTx, setCore_settle]
  rfl

/-- A first trap of a supervisor, with traps on. -/
theorem supTrap_of_on (c cause : Nat) (val : Word) (s : State) (h : (core s c).tvec % 2 = 1) (hs : (core s c).spend = false) :
    supTrap c cause false val s = setCore s c (supTrapCore cause val (core s c)) := by
  have h0 : ¬ ((core s c).spend = true ∨ (core s c).tvec % 2 = 0) := by simp [hs]; omega
  have hr : (Ctx.abortTx (core s c).sup 3).reps = (core s c).sup.reps := by
    unfold Ctx.abortTx
    split
    · split <;> rfl
    · rfl
  simp only [supTrap, if_neg h0, restart_eq_ite, restart_abortTx, hr]
  rfl

/-- A precise trap of the word in issue, of whichever context, where traps are on. -/
theorem traps_trapVal (cause : Nat) (val : Word) (s : State) : Traps (.next (trapVal cause val s)) s cause (causeClass cause) val := by
  intro hv
  have hk : stillCore (core (spend 8 s) s.cur) = stillCore (curCore s) := stillCore_core_spendFor s s.cur 1 s.cur (some 8) none none
  have hv' : (core (spend 8 s) s.cur).tvec % 2 = 1 := by rw [tvec_of_still hk]; exact hv
  have hsup : (core (spend 8 s) s.cur).supOn = onSup s := supOn_of_still hk
  constructor
  · intro hu
    refine ⟨_, rfl, ?_⟩
    rw [trapVal, takeTrap, hsup, hu, if_neg Bool.false_ne_true, userTrap_of_on _ _ _ _ hv', userTrapped_eq]
    refine still_setCore_spendFor s s.cur 1 s.cur (some 8) none none _ _ ?_ rfl
    rw [stillCore_userTrapCore, stillCore_core_settle, hk, stillCore_userTrapCore]
  · intro hs hp
    have hp' : (core (spend 8 s) s.cur).spend = false := by rw [spend_of_still hk]; exact hp
    refine ⟨_, rfl, ?_⟩
    rw [trapVal, takeTrap, hsup, hs, if_pos rfl, supTrap_of_on _ _ _ _ hv' hp', supTrapped_eq]
    refine still_setCore_spendFor s s.cur 1 s.cur (some 8) none none _ _ ?_ rfl
    rw [stillCore_supTrapCore, hk, stillCore_supTrapCore]

/-- A precise trap of class 0 records the word in issue. -/
theorem traps_trapWord (cause : Nat) (s : State) : Traps (.next (trapWord cause s)) s cause (causeClass cause) (issuedWord s) := by
  have h : issuedWord s = BitVec.ofNat 128 (cx s).word.toNat := (BitVec.ofNat_toNat 128 _).symm
  rw [h]
  exact traps_trapVal cause _ s

/-! ## Division (R162, R163) -/

/-- The outcome that the four division instructions share: `z` with a zero divisor that does not trap, else `r`. -/
def divideOut (d : BitVec 6) (n : BitVec 2) (y : Nat) (z r : Int) (s : State) : Out :=
  if y = 0 then
    if (cx s).dzt then .next (trapWord 0x07 s) else .next (intDone d (widthOf n) z s)
  else .next (intDone d (widthOf n) r s)

section
variable (d a b : BitVec 6) (n : BitVec 2) (s : State)

theorem exec_div : exec (.div d a b n) s = divideOut d n (intArgs a b n s).yu (-1) (divR (intArgs a b n s)) s := rfl
theorem exec_divu : exec (.divu d a b n) s = divideOut d n (intArgs a b n s).yu (-1) (divuR (intArgs a b n s)) s := rfl
theorem exec_rem : exec (.rem d a b n) s = divideOut d n (intArgs a b n s).yu (intArgs a b n s).xu (remR (intArgs a b n s)) s := rfl
theorem exec_remu : exec (.remu d a b n) s = divideOut d n (intArgs a b n s).yu (intArgs a b n s).xu (remuR (intArgs a b n s)) s := rfl

end

theorem divR_ofBitVec {w : Nat} (x y : BitVec w) : BitVec.ofInt w (divR ⟨w, x.toNat, y.toNat⟩) = x.sdiv y := by
  apply BitVec.eq_of_toInt_eq
  simp [divR, BitVec.toInt_sdiv]

theorem divuR_ofBitVec {w : Nat} (x y : BitVec w) : BitVec.ofInt w (divuR ⟨w, x.toNat, y.toNat⟩) = x / y := by
  apply BitVec.eq_of_toNat_eq
  rw [divuR, ← Int.natCast_ediv, BitVec.ofInt_natCast, BitVec.toNat_ofNat, BitVec.toNat_udiv,
    Nat.mod_eq_of_lt (Nat.lt_of_le_of_lt (Nat.div_le_self ..) x.isLt)]

theorem remR_ofBitVec {w : Nat} (x y : BitVec w) : BitVec.ofInt w (remR ⟨w, x.toNat, y.toNat⟩) = x.srem y := by
  apply BitVec.eq_of_toInt_eq
  rw [remR, xs_ofBitVec, ys_ofBitVec, ← BitVec.toInt_srem, BitVec.ofInt_toInt]

theorem remuR_ofBitVec {w : Nat} (x y : BitVec w) : BitVec.ofInt w (remuR ⟨w, x.toNat, y.toNat⟩) = x % y := by
  apply BitVec.eq_of_toNat_eq
  rw [remuR, ← Int.natCast_emod, BitVec.ofInt_natCast, BitVec.toNat_ofNat, BitVec.toNat_umod,
    Nat.mod_eq_of_lt (Nat.lt_of_le_of_lt (Nat.mod_le ..) x.isLt)]

section
variable {n : BitVec 2} {w : Nat} (hn : Width n w) (d : BitVec 6) (s : State) (z r : Int) {y : BitVec w}
include hn

/-- With a nonzero divisor, the quotient or the remainder. -/
theorem integer_divideOut_of_ne_zero {v : BitVec w} (hy : y ≠ 0) (h : BitVec.ofInt w r = v) :
    Integer (divideOut d n y.toNat z r s) s d v := by
  have hy' : ¬ y.toNat = 0 := fun h0 => hy (BitVec.eq_of_toNat_eq h0)
  rw [divideOut, if_neg hy', widthOf_of_width hn]
  exact integer_intDone d s h

/-- With divisor 0 and DZT clear, the value for it. -/
theorem integer_divideOut_of_zero {v : BitVec w} (hy : y = 0) (hz : (cx s).dzt = false) (h : BitVec.ofInt w z = v) :
    Integer (divideOut d n y.toNat z r s) s d v := by
  rw [divideOut, if_pos (by rw [hy]; rfl), hz, if_neg Bool.false_ne_true, widthOf_of_width hn]
  exact integer_intDone d s h

end

/-- With divisor 0 and DZT set, the trap. -/
theorem traps_divideOut (d : BitVec 6) (n : BitVec 2) (s : State) (z r : Int) {w : Nat} {y : BitVec w} (hy : y = 0) (hz : (cx s).dzt = true) :
    Traps (divideOut d n y.toNat z r s) s 0x07 0 (issuedWord s) := by
  rw [divideOut, if_pos (by rw [hy]; rfl), if_pos hz]
  exact traps_trapWord 0x07 s

theorem ofInt_toNat {w : Nat} (x : BitVec w) : BitVec.ofInt w x.toNat = x := by
  rw [BitVec.ofInt_natCast, BitVec.ofNat_toNat, BitVec.setWidth_eq]

theorem ofInt_neg_one (w : Nat) : BitVec.ofInt w (-1) = BitVec.allOnes w := by
  simp [BitVec.ofInt_neg, BitVec.neg_one_eq_allOnes]

/-- Settles O2: the four instructions share one outcome, whose three cases are those of the statement. -/
theorem divisionResults : Obligations.DivisionResults := by
  intro s d a b n w hn x y
  simp only [exec_div, exec_divu, exec_rem, exec_remu, intArgs_of_width hn, List.forall_mem_cons]
  refine ⟨fun hy => ?_, fun hy hz => ?_, fun hy hz => ?_⟩
  · exact ⟨integer_divideOut_of_ne_zero hn d s _ _ hy (divR_ofBitVec x y), integer_divideOut_of_ne_zero hn d s _ _ hy (divuR_ofBitVec x y),
      integer_divideOut_of_ne_zero hn d s _ _ hy (remR_ofBitVec x y), integer_divideOut_of_ne_zero hn d s _ _ hy (remuR_ofBitVec x y)⟩
  · exact ⟨integer_divideOut_of_zero hn d s _ _ hy hz (ofInt_neg_one w), integer_divideOut_of_zero hn d s _ _ hy hz (ofInt_neg_one w),
      integer_divideOut_of_zero hn d s _ _ hy hz (ofInt_toNat x), integer_divideOut_of_zero hn d s _ _ hy hz (ofInt_toNat x)⟩
  · exact ⟨traps_divideOut d n s _ _ hy hz, traps_divideOut d n s _ _ hy hz, traps_divideOut d n s _ _ hy hz, traps_divideOut d n s _ _ hy hz,
      fun _ h => absurd h List.not_mem_nil⟩

end Sys2Proof.Machine
end

section
/-! SUPPORT. Branches and jumps (R176 to R178). -/

namespace Sys2Proof.Machine

open Sys2Proof.Claims

/-! ## Transfers of control apart from time -/

/-- A transfer's target does not depend on how the context in issue was replaced before it. -/
@[simp] theorem transferred_setCx (s : State) (x y : Ctx) (target : Nat) : transferred (setCx s x) y target = transferred s y target := by
  simp [transferred]

theorem completes_jump (target : Nat) (s : State) : Completes (.next (jump target s)) (transferred s (cx s) (target % 65536)) :=
  ⟨_, rfl, still_jump target s⟩

/-- A taken transfer that links: the register is written with it. -/
theorem completes_jump_putReg (target : Nat) (d : BitVec 6) (r : Reg) (s : State) :
    Completes (.next (jump target (putReg d r s))) (transferred s (setReg (cx s) d.toNat r) (target % 65536)) := by
  have h := completes_jump target (putReg d r s)
  rwa [cx_putReg, putReg, transferred_setCx] at h

/-- A word offset from the pc, modulo 2^16. -/
theorem wrap_offset {n : Nat} (pc : Nat) (o : BitVec n) :
    wrap 16 (pc + 4 * signed n o.toNat) % 65536 = ((pc + 4 * o.toInt) % 65536).toNat := by
  rw [signed_toNat]
  unfold wrap
  omega

/-! ## Branches (R176, R177) -/

theorem branches_branch (taken : Bool) (o : BitVec 10) (s : State) : Branches (.next (branch taken o s)) s taken o := by
  unfold Branches branch
  cases taken with
  | false => exact completes_finish s
  | true =>
    rw [if_pos rfl, if_pos rfl, ← wrap_offset]
    exact completes_jump _ s

/-- Condition 3: the ring at the slot holds a filled slot. -/
theorem condition_filled (sel : Nat) (s : State) : condition 3 sel s = (slotRing s s.cur (cx s) sel).any fun r => decide (0 < r.filled) := by
  simp only [condition]
  cases slotRing s s.cur (cx s) sel <;> rfl

/-- Condition 4: the ring at the slot holds a free slot. -/
theorem condition_free (sel : Nat) (s : State) : condition 4 sel s = (slotRing s s.cur (cx s) sel).any fun r => decide (0 < r.free) := by
  simp only [condition]
  cases slotRing s s.cur (cx s) sel <;> rfl

/-- The listed conditions are those that the model tests (R177). -/
theorem condition_of_mem {s : State} {e : BitVec 6} {p : BitVec 6 × Bool} (h : p ∈ conditions s e) : condition p.1.toNat e.toNat s = p.2 := by
  simp only [conditions, List.mem_cons, List.not_mem_nil, or_false] at h
  obtain rfl | rfl | rfl | rfl | rfl | rfl | rfl | rfl := h
  case inr.inr.inr.inl => exact condition_filled e.toNat s
  case inr.inr.inr.inr.inl => exact condition_free e.toNat s
  all_goals rfl

/-- Settles O11: every branch of the model is `branch` on a truth value, and that value is the statement's. -/
theorem branchOutcomes : Obligations.BranchOutcomes := by
  intro s a b o
  have taken {t t' : Bool} (h : t = t') : Branches (.next (branch t o s)) s t' o := h ▸ branches_branch t o s
  refine ⟨taken ?_, taken ?_, taken ?_, taken ?_, taken ?_, taken ?_, fun p hp => ⟨taken ?_, taken ?_⟩⟩
  · exact beq_eq_decide ..
  · simp [bne, beq_eq_decide]
  · rfl
  · simp [BitVec.slt, ← decide_not]
  · rfl
  · simp [BitVec.ult, ← decide_not]
  · exact condition_of_mem hp
  · rw [condition_of_mem hp]

/-! ## Jumps (R178) -/

/-- Settles O12: each jump is `jump` to the statement's target, and JR's trap is that of its misaligned target. -/
theorem jumps : Obligations.Jumps := by
  intro s d a o pc link target
  have low : rn s a % 65536 % 4 = (rv s a).toNat % 4 := by unfold rn; omega
  have ht : wrap 16 (pc + 4 * signed 22 o.toNat) % 65536 = target := wrap_offset pc o
  refine ⟨?_, ?_, fun h => ?_, fun h => ?_⟩
  · rw [← ht]
    exact completes_jump _ s
  · rw [← ht]
    exact completes_jump_putReg _ 63 link s
  · have : exec (.jr d a) s = .next (jump (rn s a % 65536) (putReg d link s)) := if_neg (by rw [low]; simpa using h)
    rw [this, show (rv s a).toNat % 65536 = rn s a % 65536 % 65536 from (Nat.mod_mod ..).symm]
    exact completes_jump_putReg _ d link s
  · have : exec (.jr d a) s = .next (trapWord 0x06 s) := if_pos (by rw [low]; exact h)
    rw [this]
    exact traps_trapWord 0x06 s

end Sys2Proof.Machine
end

section
/-! SUPPORT. Hint words, wide immediates (R133 to R137, R161) and the immediate operations (R166). -/

namespace Sys2Proof.Machine

open Sys2Proof.Claims

/-! ## Hint words apart from time -/

/-- The context after a hint word: the hint waits, with the address of its sequence's first word, and the pc has moved on. -/
def hintedCtx (h : Hint) (first : Nat) (x : Ctx) : Ctx :=
  { x with hint := h, hintPc := first, pc := (repAdvance ((x.pc + 4) % 65536) x.reps).1, reps := (repAdvance ((x.pc + 4) % 65536) x.reps).2 }

theorem stillCtx_hintedCtx (h : Hint) (first : Nat) (x : Ctx) : stillCtx (hintedCtx h first x) = hintedCtx h first (stillCtx x) := rfl

/-- A hint word that issues: its first address is where the instruction restarts. -/
theorem completes_hintDone (h : Hint) (s : State) {first : Nat} (hf : restart (cx s) = first) :
    Completes (.next (hintDone h s)) (markIssued (setCx s (hintedCtx h first (cx s)))) := by
  refine ⟨_, rfl, ?_⟩
  have hr : (if ((cx s).hint == Hint.none) = true then (cx s).pc else (cx s).hintPc) = first := by rw [← hf]; simp [restart]
  simp only [hintDone, hr]
  exact still_markIssued_spend (y := hintedCtx h first (cx s)) _ s (by rw [stillCtx_hintedCtx, ← stillCtx_cx_spend]; rfl)

theorem restart_of_none {x : Ctx} (h : x.hint = .none) : restart x = x.pc := if_pos h

theorem restart_of_hx {x : Ctx} {l : List Nat} (h : x.hint = .hx l) : restart x = x.hintPc := if_neg (by simp [h])

theorem exec_hx_first {s : State} (h : (cx s).hint = .none) (p : BitVec 22) : exec (.hx p) s = .next (hintDone (.hx [p.toNat]) s) := by
  show execHx p s = _
  simp only [execHx, h]

theorem exec_hx_second {s : State} {a : Nat} (h : (cx s).hint = .hx [a]) (p : BitVec 22) :
    exec (.hx p) s = .next (hintDone (.hx [a, p.toNat]) s) := by
  show execHx p s = _
  simp only [execHx, h]

/-! ## The payload of HV (R134) -/

theorem toNat_append_add {m n : Nat} (x : BitVec m) (y : BitVec n) : (x ++ y).toNat = x.toNat * 2 ^ n + y.toNat := by
  rw [BitVec.toNat_append, ← Nat.shiftLeft_add_eq_or_of_lt y.isLt, Nat.shiftLeft_eq]

theorem toNat_ofBool_b2n (b : Bool) : (BitVec.ofBool b).toNat = b2n b := by cases b <;> rfl

theorem exec_hv_first {s : State} (h : (cx s).hint = .none) (t : Bool) (o : BitVec 8) (e : Bool) (m : BitVec 3) (z : BitVec 2) (r : BitVec 3)
    (f : Bool) (k : BitVec 3) :
    exec (.hv t o e m z r f k) s =
      .next (hintDone (.hv (BitVec.ofBool t ++ o ++ BitVec.ofBool e ++ m ++ z ++ r ++ BitVec.ofBool f ++ k).toNat) s) := by
  have payload : fld (b2n t) 21 + fld o.toNat 13 + fld (b2n e) 12 + fld m.toNat 9 + fld z.toNat 7 + fld r.toNat 4 + fld (b2n f) 3 + k.toNat =
      (BitVec.ofBool t ++ o ++ BitVec.ofBool e ++ m ++ z ++ r ++ BitVec.ofBool f ++ k).toNat := by
    simp only [toNat_append_add, toNat_ofBool_b2n, fld]
    ring
  show execHv t o e m z r f k s = _
  simp only [execHv, h, payload]

/-! ## Wide immediates (R133) -/

theorem sext_toNat {w : Nat} (x : BitVec w) : sext w x.toNat = x.signExtend 128 := by
  rw [sext_eq_signExtend, BitVec.ofNat_toNat, BitVec.setWidth_eq]

theorem wideImm_none (i : BitVec 16) : wideImm .none i = i.signExtend 128 := sext_toNat i

theorem wideImm_one (p : BitVec 22) (i : BitVec 16) : wideImm (.hx [p.toNat]) i = (p ++ i).signExtend 128 := by
  rw [← sext_toNat, toNat_append_add]; rfl

theorem wideImm_two (p q : BitVec 22) (i : BitVec 16) : wideImm (.hx [p.toNat, q.toNat]) i = (p ++ q ++ i).signExtend 128 := by
  rw [← sext_toNat, toNat_append_add, toNat_append_add]; rfl

/-- LDI and ADDL with an immediate that the hints widen to `v`. -/
theorem values_wideImm (d : BitVec 6) (i : BitVec 16) (s : State) {v : Word} (h : wideImm (cx s).hint i = v) :
    Value (exec (.ldi d i) s) s d v ∧ Value (exec (.addl d i) s) s d (rv s d + v) :=
  ⟨value_putWord d s h, value_putWord d s (h ▸ rfl)⟩

/-- Settles O5: by the hint that stands before the word, none, one HX or two. -/
theorem hintsAndWideImmediates : Obligations.HintsAndWideImmediates := by
  intro s d i p q x hinted
  refine ⟨fun h => ⟨?_, fun t o e m z r f k => ?_, ?_⟩, fun h => ⟨?_, ?_⟩, fun h => ?_⟩
  · rw [exec_hx_first h]
    exact completes_hintDone _ s (restart_of_none h)
  · rw [exec_hv_first h]
    exact completes_hintDone _ s (restart_of_none h)
  · exact values_wideImm d i s (h ▸ wideImm_none i)
  · rw [exec_hx_second h]
    exact completes_hintDone _ s (restart_of_hx h)
  · exact values_wideImm d i s (h ▸ wideImm_one p i)
  · exact values_wideImm d i s (h ▸ wideImm_two p q i)

/-! ## Immediate operations (R166) -/

theorem toWord_imm (i : BitVec 10) : toWord (imm i) = i.signExtend 128 := by
  rw [toWord_eq_ofInt, imm, signed_toNat]; rfl

/-- A truth value written to a register. -/
theorem ofNat_ite_one (p : Prop) [Decidable p] (b : Bool) (h : p ↔ b = true) :
    BitVec.ofNat 128 (if p then 1 else 0) = if b then (1 : Word) else 0 := by
  simp only [h]
  cases b <;> rfl

theorem slti_iff (x : Word) (i : BitVec 10) : signed 128 x.toNat < imm i ↔ x.slt (i.signExtend 128) = true := by
  rw [BitVec.slt_iff_toInt_lt, BitVec.toInt_signExtend_of_le (by omega), signed_toNat, imm, signed_toNat]

theorem sltiu_iff (x : Word) (i : BitVec 10) : x.toNat < (toWord (imm i)).toNat ↔ x.ult (i.signExtend 128) = true := by
  rw [toWord_imm, BitVec.ult_iff_lt, BitVec.lt_def]

/-- The operands of a shift by an amount below the width. -/
theorem shiftArgs_of_width {c : BitVec 2} {w : Nat} (h : Width c w) (a : BitVec 6) (m : BitVec 7) (s : State) :
    shiftArgs a c m s = { w := w, xu := ((rv s a).setWidth w).toNat, yu := m.toNat } := by
  simp only [shiftArgs, widthOf_of_width h, rn, BitVec.toNat_setWidth]

section
variable (d a : BitVec 6) (c : BitVec 2) (m : BitVec 7) (s : State)

theorem exec_slli : exec (.slli d a c m) s = .next (intDone d (widthOf c) (sllR (shiftArgs a c m s)) s) := rfl
theorem exec_srli : exec (.srli d a c m) s = .next (intDone d (widthOf c) (srlR (shiftArgs a c m s)) s) := rfl
theorem exec_srai : exec (.srai d a c m) s = .next (intDone d (widthOf c) (sraR (shiftArgs a c m s)) s) := rfl

end

section
variable {w k : Nat} (h : k < w) (x : BitVec w)
include h

theorem sllR_ofBitVec : BitVec.ofInt w (sllR ⟨w, x.toNat, k⟩) = x <<< k := by
  apply BitVec.eq_of_toNat_eq
  have : sllR ⟨w, x.toNat, k⟩ = ((x.toNat * 2 ^ k : Nat) : Int) := by simp [sllR, IntArgs.sh, Nat.mod_eq_of_lt h]
  rw [this, BitVec.ofInt_natCast, BitVec.toNat_ofNat, BitVec.toNat_shiftLeft, Nat.shiftLeft_eq]

theorem srlR_ofBitVec : BitVec.ofInt w (srlR ⟨w, x.toNat, k⟩) = x >>> k := by
  apply BitVec.eq_of_toNat_eq
  have : srlR ⟨w, x.toNat, k⟩ = ((x.toNat / 2 ^ k : Nat) : Int) := by simp [srlR, IntArgs.sh, Nat.mod_eq_of_lt h]
  rw [this, BitVec.ofInt_natCast, BitVec.toNat_ofNat, BitVec.toNat_ushiftRight, Nat.shiftRight_eq_div_pow,
    Nat.mod_eq_of_lt (Nat.lt_of_le_of_lt (Nat.div_le_self ..) x.isLt)]

theorem sraR_ofBitVec : BitVec.ofInt w (sraR ⟨w, x.toNat, k⟩) = x.sshiftRight k := by
  have : sraR ⟨w, x.toNat, k⟩ = (x.sshiftRight k).toInt := by
    rw [BitVec.toInt_sshiftRight, Int.shiftRight_eq_div_pow, sraR, xs_ofBitVec, IntArgs.sh, Nat.mod_eq_of_lt h]
  rw [this, BitVec.ofInt_toInt]

end

/-- Settles O4: the seven word operations on the sign-extended immediate, then the three shifts at the coded width. -/
theorem immediateResults : Obligations.ImmediateResults := by
  intro s d a i c m w hw hm v x
  refine ⟨value_putWord d s ?_, value_putWord d s ?_, value_putWord d s ?_, value_putWord d s ?_, value_putWord d s ?_, value_putWord d s ?_,
    value_putWord d s ?_, ?_, ?_, ?_⟩
  · rw [toWord_imm]
  · rw [toWord_imm]
  · rw [toWord_imm]
  · rw [toWord_imm]
  · exact ofNat_ite_one _ _ (slti_iff _ i)
  · exact ofNat_ite_one _ _ (sltiu_iff _ i)
  · rw [toWord_imm]
  all_goals simp only [exec_slli, exec_srli, exec_srai, shiftArgs_of_width hw, widthOf_of_width hw]
  · exact integer_intDone d s (sllR_ofBitVec hm x)
  · exact integer_intDone d s (srlR_ofBitVec hm x)
  · exact integer_intDone d s (sraR_ofBitVec hm x)

end Sys2Proof.Machine
end

section
/-! SUPPORT. Bit counts, selects and fields (R162, R164, R165). -/

namespace Sys2Proof.Machine

open Sys2Proof.Claims

/-! ## Bit counts (R162) -/

/-- The leading zeros of a number below 2^w. -/
theorem clzN_spec {w x : Nat} (hx : x < 2 ^ w) :
    clzN w x ≤ w ∧ x < 2 ^ (w - clzN w x) ∧ (clzN w x < w → 2 ^ (w - clzN w x - 1) ≤ x) := by
  unfold clzN
  split
  · next h0 => simp [h0]
  · next h0 =>
    have hlog : x.log2 < w := (Nat.log2_lt h0).mpr hx
    have he : w - (w - 1 - x.log2) = x.log2 + 1 := by omega
    rw [he, Nat.add_sub_cancel]
    exact ⟨by omega, Nat.lt_log2_self, fun _ => Nat.log2_self_le h0⟩

/-- The trailing zeros among `w` bits. -/
theorem ctzN_spec (w x : Nat) : ctzN w x ≤ w ∧ x % 2 ^ ctzN w x = 0 ∧ (ctzN w x < w → x.testBit (ctzN w x) = true) := by
  induction w generalizing x with
  | zero => simp [ctzN, Nat.mod_one]
  | succ w ih =>
    obtain ⟨hle, hmod, hbit⟩ := ih (x / 2)
    unfold ctzN
    split
    · next odd => simp [Nat.mod_one, odd]
    · next even =>
      refine ⟨by omega, ?_, fun h => ?_⟩
      · rw [Nat.pow_add, Nat.pow_one, Nat.mod_mul, hmod]; omega
      · rw [Nat.add_comm 1, Nat.testBit_add_one]; exact hbit (by omega)

/-- The one bits among `w` bits are counted one by one. -/
theorem popcN_eq_length (w x : Nat) : popcN w x = ((List.range w).filter x.testBit).length := by
  induction w generalizing x with
  | zero => rfl
  | succ w ih =>
    have tail : ((List.map Nat.succ (List.range w)).filter x.testBit).length = popcN w (x / 2) := by
      rw [List.filter_map, List.length_map, ih]
      congr 2
      funext i
      exact Nat.testBit_add_one x i
    rw [popcN, List.range_succ_eq_map, List.filter_cons]
    split
    · next h =>
      rw [List.length_cons, tail]
      simp at h; omega
    · next h =>
      rw [tail]
      simp at h; omega

theorem popcN_le (w x : Nat) : popcN w x ≤ w := by
  rw [popcN_eq_length]
  exact (List.length_filter_le ..).trans_eq List.length_range

/-- A number below 2^(w-1) is the same at width `w`, sign-extended. -/
theorem sext_wrap_of_lt {w r : Nat} (h : r < 2 ^ (w - 1)) : sext w (wrap w r) = BitVec.ofNat 128 r := by
  have hw : r < 2 ^ w := h.trans_le (Nat.pow_le_pow_right (by omega) (by omega))
  have hr : wrap w r = r := by
    rw [wrap, ← Int.natCast_emod, Int.toNat_natCast, Nat.mod_eq_of_lt hw]
  rw [hr, sext, signed, Nat.mod_eq_of_lt hw]
  simp only [if_pos h]
  rw [toWord_eq_ofInt, BitVec.ofInt_natCast]

/-- A count of at most `w` is written as it is. -/
theorem value_intDone_of_le {n : BitVec 2} {w r : Nat} (hn : Width n w) (d : BitVec 6) (s : State) (h : r ≤ w) :
    Value (.next (intDone d w r s)) s d (BitVec.ofNat 128 r) := by
  have small : r < 2 ^ (w - 1) := by
    obtain ⟨-, rfl⟩ | ⟨-, rfl⟩ | ⟨-, rfl⟩ := hn <;> omega
  exact value_putWord d s (sext_wrap_of_lt small)

section
variable (d a : BitVec 6) (n : BitVec 2) (s : State)

theorem exec_clz : exec (.clz d a n) s = .next (intDone d (widthOf n) (clzN (widthOf n) (rn s a % 2 ^ widthOf n)) s) := rfl
theorem exec_ctz : exec (.ctz d a n) s = .next (intDone d (widthOf n) (ctzN (widthOf n) (rn s a % 2 ^ widthOf n)) s) := rfl
theorem exec_popc : exec (.popc d a n) s = .next (intDone d (widthOf n) (popcN (widthOf n) (rn s a % 2 ^ widthOf n)) s) := rfl

end

/-! ## Bits of a number with a field replaced (R31) -/

/-- Splitting a number at a field of `n` bits from bit `lo` on. -/
theorem split_at_field (x lo n : Nat) : x = 2 ^ lo * (2 ^ n * (x / 2 ^ lo / 2 ^ n) + x / 2 ^ lo % 2 ^ n) + x % 2 ^ lo := by
  rw [Nat.div_add_mod, Nat.div_add_mod]

/-- Replacing a field puts the new one between the bits above and below. -/
theorem setBits_eq (x hi lo v : Nat) :
    setBits x hi lo v = 2 ^ lo * (2 ^ (hi + 1 - lo) * (x / 2 ^ lo / 2 ^ (hi + 1 - lo)) + v % 2 ^ (hi + 1 - lo)) + x % 2 ^ lo := by
  unfold setBits bits fld
  generalize hi + 1 - lo = n
  have hx := split_at_field x lo n
  rw [Nat.mul_add] at hx ⊢
  rw [Nat.mul_comm (x / 2 ^ lo % 2 ^ n), Nat.mul_comm (v % 2 ^ n)]
  omega

theorem testBit_setBits (x hi lo v i : Nat) :
    (setBits x hi lo v).testBit i = if lo ≤ i ∧ i < hi + 1 then v.testBit (i - lo) else x.testBit i := by
  rw [setBits_eq, Nat.testBit_two_pow_mul_add _ (Nat.mod_lt _ (Nat.two_pow_pos lo)),
    Nat.testBit_two_pow_mul_add _ (Nat.mod_lt _ (Nat.two_pow_pos _)), Nat.testBit_mod_two_pow, Nat.testBit_mod_two_pow,
    Nat.testBit_div_two_pow, Nat.testBit_div_two_pow]
  by_cases below : i < lo
  · simp [below]
  · by_cases within : i < hi + 1
    · have : i - lo < hi + 1 - lo := by omega
      simp [below, within, this, Nat.le_of_not_lt below]
    · have hn : ¬ i - lo < hi + 1 - lo := by omega
      simp only [if_neg below, if_neg hn, if_neg (fun h : lo ≤ i ∧ i < hi + 1 => within h.2)]
      congr 1
      omega

/-! ## Extensions and fields (R164, R165) -/

theorem sext_register (w : Nat) (x : Word) : sext w x.toNat = (x.setWidth w).signExtend 128 := by
  rw [sext_eq_signExtend, BitVec.ofNat_toNat]

theorem zext_register (w : Nat) (x : Word) : zext w x.toNat = (x.setWidth w).setWidth 128 := by
  rw [zext, ← BitVec.toNat_setWidth, BitVec.ofNat_toNat]

/-- An extension of no bits is zero. -/
theorem ite_extend (n : Bool) (len v : Nat) :
    (if len = 0 then 0 else if n then sext len v else zext len v : Word) = if n then sext len v else zext len v := by
  split
  · next h =>
    subst h
    cases n
    · simp [zext, Nat.mod_one]
    · rw [if_pos rfl, sext_eq_signExtend, BitVec.of_length_zero (x := BitVec.ofNat 0 v)]; rfl
  · rfl

theorem bfPos_lt (b : Nat) : bfPos b < 128 := Nat.mod_lt _ (by omega)

theorem bfPos_add_bfLen (b : Nat) : bfPos b + bfLen b ≤ 128 := by
  have := bfPos_lt b
  have : bfLen b ≤ 128 - bfPos b := Nat.min_le_right ..
  omega

theorem exec_bfx (d a b : BitVec 6) (n : Bool) (s : State) :
    exec (.bfx d a b n) s = .next (finish (putWord d (if n then sext (bfLen (rn s b)) (rn s a / 2 ^ bfPos (rn s b))
      else zext (bfLen (rn s b)) (rn s a / 2 ^ bfPos (rn s b))) s)) := by
  rw [← ite_extend]; rfl

theorem rn_div_two_pow (s : State) (a : BitVec 6) (pos : Nat) : rn s a / 2 ^ pos = (rv s a >>> pos).toNat := by
  rw [rn, BitVec.toNat_ushiftRight, Nat.shiftRight_eq_div_pow]

/-- The low `len` bits, as a mask selects them. -/
theorem zext_eq_and_mask {len : Nat} (h : len ≤ 128) (x : Word) : zext len x.toNat = x &&& BitVec.ofNat 128 (2 ^ len - 1) := by
  apply BitVec.eq_of_toNat_eq
  have hm : 2 ^ len - 1 < 2 ^ 128 := by
    have : 2 ^ len ≤ 2 ^ 128 := Nat.pow_le_pow_right (by omega) h
    omega
  have hx : x.toNat % 2 ^ len < 2 ^ 128 := (Nat.mod_le ..).trans_lt x.isLt
  rw [zext, BitVec.toNat_and, BitVec.toNat_ofNat, BitVec.toNat_ofNat, Nat.mod_eq_of_lt hm, Nat.mod_eq_of_lt hx, Nat.and_two_pow_sub_one_eq_mod]

/-- The value that BFI writes. -/
def bfiValue (old v pos len : Nat) : Nat := if len = 0 then old else setBits old (pos + len - 1) pos v

theorem exec_bfi (d a b : BitVec 6) (s : State) :
    exec (.bfi d a b) s = .next (finish (putNat d (bfiValue (rn s d) (rn s a) (bfPos (rn s b)) (bfLen (rn s b))) s)) := rfl

theorem testBit_bfiValue (old v pos len i : Nat) :
    (bfiValue old v pos len).testBit i = if pos ≤ i ∧ i < pos + len then v.testBit (i - pos) else old.testBit i := by
  unfold bfiValue
  split
  · next h => rw [if_neg (by omega)]
  · next h => rw [testBit_setBits, show pos + len - 1 + 1 = pos + len by omega]

/-- BFI's value, as masks and a shift give it. -/
theorem bfiValue_eq_masked {pos len : Nat} (h : pos + len ≤ 128) (old v : Word) :
    BitVec.ofNat 128 (bfiValue old.toNat v.toNat pos len) =
      (old &&& ~~~(BitVec.ofNat 128 (2 ^ len - 1) <<< pos)) ||| ((v &&& BitVec.ofNat 128 (2 ^ len - 1)) <<< pos) := by
  apply BitVec.eq_of_getLsbD_eq
  intro i hi
  simp only [BitVec.getLsbD_ofNat, hi, decide_true, Bool.true_and, testBit_bfiValue, BitVec.testBit_toNat, BitVec.getLsbD_or, BitVec.getLsbD_and,
    BitVec.getLsbD_not, BitVec.getLsbD_shiftLeft, Nat.testBit_two_pow_sub_one]
  by_cases below : i < pos
  · simp [below, Nat.not_le.mpr below]
  · have hp : pos ≤ i := Nat.le_of_not_lt below
    have h128 : i - pos < 128 := by omega
    by_cases within : i < pos + len
    · have : i - pos < len := by omega
      simp [below, hp, within, this, h128]
    · have : ¬ i - pos < len := by omega
      simp [within, this]

/-- Settles O3: the counts by their characterisations, the extensions and fields as bit vectors. -/
theorem countsSelectsAndFields : Obligations.CountsSelectsAndFields := by
  constructor
  · intro s d a n w hn x
    have hx : x < 2 ^ w := Nat.mod_lt _ (Nat.two_pow_pos w)
    obtain ⟨lead, above, top⟩ := clzN_spec hx
    obtain ⟨trail, below, bottom⟩ := ctzN_spec w x
    rw [exec_clz, exec_ctz, exec_popc, widthOf_of_width hn, ← popcN_eq_length]
    exact ⟨⟨_, lead, above, top, value_intDone_of_le hn d s lead⟩, ⟨_, trail, below, bottom, value_intDone_of_le hn d s trail⟩,
      value_intDone_of_le hn d s (popcN_le w x)⟩
  · intro s d a b n pos len m
    have hle : pos + len ≤ 128 := bfPos_add_bfLen (rn s b)
    rw [exec_bfx, exec_bfx, exec_bfi]
    refine ⟨value_putWord d s rfl, value_putWord d s (sext_register _ _), value_putWord d s (zext_register _ _), value_putWord d s ?_,
      value_putWord d s ?_, value_putWord d s ?_⟩
    · rw [if_neg Bool.false_ne_true, rn_div_two_pow]
      exact zext_eq_and_mask (len := len) (by omega) _
    · rw [if_pos rfl, rn_div_two_pow]
      exact sext_register _ _
    · exact bfiValue_eq_masked hle _ _

end Sys2Proof.Machine
end

section
/-! SUPPORT. Capabilities (R146, R173 to R175). -/

namespace Sys2Proof.Machine

open Sys2Proof.Claims

/-! ## Fields and bounds (R146) -/

theorem bits_toNat {w : Nat} (c : BitVec w) (hi lo : Nat) : bits c.toNat hi lo = (c.extractLsb' lo (hi + 1 - lo)).toNat := by
  rw [BitVec.extractLsb'_toNat, Nat.shiftRight_eq_div_pow, bits]

theorem capAddr_toNat (c : Word) : capAddr c.toNat = (c.extractLsb' 0 52).toNat := bits_toNat c 51 0

theorem capSeal_toNat (c : Word) : (capSeal c.toNat == 0) = (c.extractLsb' 102 4 == 0) := by
  rw [capSeal, bits_toNat, Bool.eq_iff_iff, beq_iff_eq, beq_iff_eq]
  exact ⟨fun h => BitVec.eq_of_toNat_eq h, fun h => congrArg BitVec.toNat h⟩

/-- The model's bounds are the claim's. -/
theorem capBounds_toNat (c : Word) : capBounds c.toNat = boundsOf c := by
  have hb : capBase c.toNat = (c.extractLsb' 52 14).toNat := bits_toNat c 65 52
  have ht : capTop c.toNat = (c.extractLsb' 66 14).toNat := bits_toNat c 79 66
  have he : capExp c.toNat = (c.extractLsb' 80 6).toNat := bits_toNat c 85 80
  simp only [capBounds, boundsOf, capAddr_toNat, hb, ht, he, Prod.mk.injEq]
  push_cast
  constructor
  · split <;> ring
  · split <;> ring

theorem setBits_lt {w x hi lo v : Nat} (hx : x < 2 ^ w) (hi' : hi < w) : setBits x hi lo v < 2 ^ w := by
  apply Nat.lt_pow_two_of_testBit
  intro i h
  rw [testBit_setBits, if_neg (by omega)]
  exact Nat.testBit_lt_two_pow (hx.trans_le (Nat.pow_le_pow_right (by omega) h))

/-- A capability with bits hi:lo replaced, bit by bit. -/
theorem getLsbD_ofNat_setBits (x hi lo v : Nat) {i : Nat} (h : i < 128) :
    (BitVec.ofNat 128 (setBits x hi lo v)).getLsbD i = if lo ≤ i ∧ i < hi + 1 then v.testBit (i - lo) else x.testBit i := by
  rw [BitVec.getLsbD_ofNat, testBit_setBits, decide_eq_true h, Bool.true_and]

/-! ## One field changed (R174) -/

theorem writes_capDone (d : BitVec 6) (s : State) {v : Nat} {t t' : Bool} {w : Word} (hv : BitVec.ofNat 128 v = w) (ht : t = t') :
    Writes (.next (capDone d v t s)) s d { val := w, tag := t' } := by
  subst hv ht
  exact writes_putReg s d _

/-- A capability with the field of `n` bits from bit `lo` on replaced: what is above, the new field, what is below. -/
theorem ofNat_setBits_field (c : Word) {hi lo m n : Nat} (v : BitVec n) (hhi : hi + 1 = lo + n) (h : m + n + lo = 128) :
    BitVec.ofNat 128 (setBits c.toNat hi lo v.toNat) = (c.extractLsb' (lo + n) m ++ v ++ c.extractLsb' 0 lo).cast h := by
  apply BitVec.eq_of_getLsbD_eq
  intro i hi
  rw [getLsbD_ofNat_setBits _ _ _ _ hi, hhi, BitVec.getLsbD_cast, BitVec.getLsbD_append, BitVec.getLsbD_append]
  simp only [BitVec.getLsbD_extractLsb', BitVec.testBit_toNat]
  by_cases below : i < lo
  · simp [below, Nat.not_le.mpr below]
  · by_cases within : i - lo < n
    · have : lo ≤ i ∧ i < lo + n := by omega
      simp [below, within, this]
    · have above : ¬ (lo ≤ i ∧ i < lo + n) := by omega
      have he : lo + n + (i - lo - n) = i := by omega
      have hm : i - lo - n < m := by omega
      simp [below, within, above, he, hm]

/-- CPERM's value: the permissions masked. -/
theorem permissions_masked (c b : Word) :
    BitVec.ofNat 128 (setBits c.toNat 93 86 (bits c.toNat 93 86 &&& bits b.toNat 7 0)) =
      c.extractLsb' 94 34 ++ (c.extractLsb' 86 8 &&& b.extractLsb' 0 8) ++ c.extractLsb' 0 86 := by
  have hv : bits c.toNat 93 86 &&& bits b.toNat 7 0 = (c.extractLsb' 86 8 &&& b.extractLsb' 0 8).toNat := by
    rw [bits_toNat, bits_toNat, BitVec.toNat_and]
  rw [hv]
  exact ofNat_setBits_field (m := 34) c (c.extractLsb' 86 8 &&& b.extractLsb' 0 8) rfl rfl

/-- CSEAL's value: the seal of a sealed capability. -/
theorem seal_replaced (c : Word) :
    BitVec.ofNat 128 (setBits c.toNat 105 102 1) = c.extractLsb' 106 22 ++ (1 : BitVec 4) ++ c.extractLsb' 0 102 :=
  ofNat_setBits_field (m := 22) c (1 : BitVec 4) rfl rfl

/-- COFF's value: the address replaced, modulo 2^52. -/
theorem address_replaced (c : Word) (v : Int) :
    BitVec.ofNat 128 (setBits c.toNat 51 0 (wrap 52 v)) = c.extractLsb' 52 76 ++ BitVec.ofInt 52 v := by
  have hv : wrap 52 v = (BitVec.ofInt 52 v).toNat := (BitVec.toNat_ofInt ..).symm
  rw [hv, ofNat_setBits_field (m := 76) c (BitVec.ofInt 52 v) rfl rfl]
  apply BitVec.eq_of_toNat_eq
  rw [BitVec.toNat_cast, toNat_append_add, BitVec.of_length_zero (x := c.extractLsb' 0 0)]
  simp

/-- Whether the bounds stay as they are when the address is replaced. -/
theorem representable_address (c : Word) (v : Int) :
    representable c.toNat (setBits c.toNat 51 0 (wrap 52 v)) =
      decide (boundsOf (c.extractLsb' 52 76 ++ BitVec.ofInt 52 v) = boundsOf c) := by
  have hn : setBits c.toNat 51 0 (wrap 52 v) = (c.extractLsb' 52 76 ++ BitVec.ofInt 52 v).toNat := by
    rw [← address_replaced, BitVec.toNat_ofNat, Nat.mod_eq_of_lt (setBits_lt c.isLt (by omega))]
  rw [representable, hn, capBounds_toNat, capBounds_toNat, beq_eq_decide, decide_eq_decide]
  exact eq_comm

/-! ## Reading a field (R175) -/

theorem address_word (c : Word) : BitVec.ofNat 128 (capAddr c.toNat) = (c.extractLsb' 0 52).setWidth 128 := by
  rw [capAddr_toNat, BitVec.ofNat_toNat]

/-- CGPRM's value: the tag, the seal and the permissions. -/
theorem permissions_word (c : Word) (t : Bool) :
    BitVec.ofNat 128 (bits c.toNat 93 86 + fld (capSeal c.toNat) 8 + fld (b2n t) 12) =
      (BitVec.ofBool t ++ c.extractLsb' 102 4 ++ c.extractLsb' 86 8).setWidth 128 := by
  have hv : bits c.toNat 93 86 + fld (capSeal c.toNat) 8 + fld (b2n t) 12 =
      (BitVec.ofBool t ++ c.extractLsb' 102 4 ++ c.extractLsb' 86 8).toNat := by
    rw [toNat_append_add, toNat_append_add, toNat_ofBool_b2n, capSeal, bits_toNat, bits_toNat, fld, fld]
    ring
  rw [hv, BitVec.ofNat_toNat]

/-! ## Narrowing the bounds (R173) -/

/-- The rounded bounds of [base, base + len) at an exponent fit in TOP. -/
def fitsAt (base len e : Nat) : Prop := ceilDiv (base + len) (2 ^ e) - base / 2 ^ e ≤ 16383

theorem leastExp_eq_some (base len e : Nat) (fits : fitsAt base len e) (fuel e0 : Nat) (h0 : e0 ≤ e) (h1 : e < e0 + fuel)
    (least : ∀ e', e0 ≤ e' → e' < e → ¬ fitsAt base len e') : leastExp base len fuel e0 = some e := by
  induction fuel generalizing e0 with
  | zero => omega
  | succ fuel ih =>
    unfold leastExp
    obtain rfl | hlt := h0.eq_or_lt
    · exact if_pos fits
    · refine (if_neg (least e0 (Nat.le_refl _) hlt)).trans ?_
      exact ih (e0 + 1) hlt (by omega) fun e' h => least e' (by omega)

theorem leastExp_eq_none (base len fuel e0 : Nat) (none_fits : ∀ e, e0 ≤ e → e < e0 + fuel → ¬ fitsAt base len e) :
    leastExp base len fuel e0 = none := by
  induction fuel generalizing e0 with
  | zero => rfl
  | succ fuel ih =>
    unfold leastExp
    refine (if_neg (none_fits e0 (Nat.le_refl _) (by omega))).trans ?_
    exact ih (e0 + 1) fun e h h' => none_fits e (by omega) (by omega)

/-- CSETB's value: the exponent and both bounds replaced. -/
theorem bounds_replaced (c : Word) (e b t : Nat) :
    BitVec.ofNat 128 (setBits (setBits (setBits c.toNat 85 80 e) 65 52 b) 79 66 t) =
      c.extractLsb' 86 42 ++ BitVec.ofNat 6 e ++ BitVec.ofNat 14 t ++ BitVec.ofNat 14 b ++ c.extractLsb' 0 52 := by
  apply BitVec.eq_of_getLsbD_eq
  intro i hi
  rw [getLsbD_ofNat_setBits _ _ _ _ hi]
  simp only [testBit_setBits, BitVec.getLsbD_append, BitVec.getLsbD_extractLsb', BitVec.getLsbD_ofNat, BitVec.testBit_toNat]
  obtain h | h | h | h | h : i < 52 ∨ (52 ≤ i ∧ i < 66) ∨ (66 ≤ i ∧ i < 80) ∨ (80 ≤ i ∧ i < 86) ∨ 86 ≤ i := by omega
  all_goals simp (disch := omega) only [if_pos, if_neg, decide_eq_true, Bool.true_and, Nat.sub_sub, Nat.reduceAdd, Nat.zero_add, Nat.add_sub_of_le]

/-- CSETB with the least exponent at which the rounded bounds fit. -/
theorem csetbResult_of_fits (c len : Nat) (t exact : Bool) {e : Nat} (he : e ≤ 38) (fits : fitsAt (capAddr c) len e)
    (least : ∀ e' < e, ¬ fitsAt (capAddr c) len e') :
    csetbResult c len t exact =
      (setBits (setBits (setBits c 85 80 e) 65 52 (capAddr c / 2 ^ e)) 79 66 (ceilDiv (capAddr c + len) (2 ^ e) - capAddr c / 2 ^ e),
       t && capSeal c == 0 && decide ((capBounds c).1 ≤ (capAddr c / 2 ^ e * 2 ^ e : Nat)) &&
         decide ((ceilDiv (capAddr c + len) (2 ^ e) * 2 ^ e : Nat) ≤ (capBounds c).2) &&
         decide (ceilDiv (capAddr c + len) (2 ^ e) * 2 ^ e ≤ 2 ^ 52) &&
         !(exact && (capAddr c / 2 ^ e * 2 ^ e != capAddr c || ceilDiv (capAddr c + len) (2 ^ e) * 2 ^ e != capAddr c + len))) := by
  have hpos : 0 < 2 ^ e := Nat.two_pow_pos e
  have hs := leastExp_eq_some (capAddr c) len e fits 39 0 (Nat.zero_le e) (by omega) fun e' _ => least e'
  simp only [csetbResult, hs, ← Nat.sub_mul, Nat.mul_div_cancel _ hpos]

/-- CSETB with no such exponent. -/
theorem csetbResult_of_not_fits (c len : Nat) (t exact : Bool) (h : ∀ e, e ≤ 38 → ¬ fitsAt (capAddr c) len e) :
    csetbResult c len t exact = (c, false) := by
  have hn := leastExp_eq_none (capAddr c) len 39 0 fun e _ he => h e (by omega)
  simp only [csetbResult, hn]

theorem exec_csetb (d a b : BitVec 6) (x : Bool) (s : State) :
    exec (.csetb d a b x) s = .next (capDone d (csetbResult (rn s a) (rn s b) (rk s a).tag x).1
      (csetbResult (rn s a) (rn s b) (rk s a).tag x).2 s) := rfl

/-! ## The statement -/

theorem ofNat_rn (s : State) (a : BitVec 6) : BitVec.ofNat 128 (rn s a) = rv s a := by
  rw [rn, BitVec.ofNat_toNat, BitVec.setWidth_eq]

/-- The tag of a result that keeps it from an unsealed capability. -/
theorem tag_unsealed (s : State) (a : BitVec 6) :
    ((rk s a).tag && capSeal (rn s a) == 0) = ((rk s a).tag && (rv s a).extractLsb' 102 4 == 0) := by
  rw [rn, capSeal_toNat]

/-- COFF's tag. -/
theorem tag_moved (c b : Word) (t : Bool) :
    (t && capSeal c.toNat == 0 && decide (0 ≤ (capAddr c.toNat : Int) + signed 128 b.toNat) &&
        decide ((capAddr c.toNat : Int) + signed 128 b.toNat < (2 ^ 52 : Nat)) &&
        representable c.toNat (setBits c.toNat 51 0 (wrap 52 (capAddr c.toNat + signed 128 b.toNat)))) =
      (t && c.extractLsb' 102 4 == 0 && decide (0 ≤ ((c.extractLsb' 0 52).toNat : Int) + b.toInt) &&
        decide (((c.extractLsb' 0 52).toNat : Int) + b.toInt < 2 ^ 52) &&
        decide (boundsOf (c.extractLsb' 52 76 ++ BitVec.ofInt 52 ((c.extractLsb' 0 52).toNat + b.toInt)) = boundsOf c)) := by
  rw [representable_address, capSeal_toNat, capAddr_toNat, signed_toNat]
  rfl

/-- Settles O16: each instruction's value and tag, field by field; CSETB by whether an exponent fits. -/
theorem capabilities : Obligations.Capabilities := by
  constructor
  · intro s d a b c t unsealed moved n
    refine ⟨writes_capDone d s (permissions_masked c _) (tag_unsealed s a), writes_capDone d s ?_ (tag_moved c (rv s b) t),
      writes_capDone d s (seal_replaced c) (tag_unsealed s a), writes_capDone d s (address_word c) rfl, writes_capDone d s ?_ rfl,
      writes_capDone d s ?_ rfl, writes_capDone d s (permissions_word c t) rfl, writes_capDone d s (ofNat_rn s a) rfl,
      writes_capDone d s (ofNat_rn s a) rfl⟩
    · rw [rn, rn, capAddr_toNat, signed_toNat, address_replaced]
    · rw [ofNat_wrap, rn, capBounds_toNat]
    · rw [ofNat_wrap, rn, capBounds_toNat]
  · intro s d a b exact c base stop up fits
    have hbase : capAddr (rn s a) = base := capAddr_toNat c
    rw [exec_csetb]
    constructor
    · intro e he hfits least
      rw [csetbResult_of_fits (rn s a) (rn s b) _ exact he (by rw [hbase]; exact hfits) (by rw [hbase]; exact least)]
      refine writes_capDone d s ?_ ?_
      · rw [hbase]
        exact bounds_replaced c e _ _
      · rw [hbase, rn, capSeal_toNat, capBounds_toNat]
        rfl
    · intro hno
      rw [csetbResult_of_not_fits (rn s a) (rn s b) _ exact (by rw [hbase]; exact hno)]
      exact writes_capDone d s (ofNat_rn s a) rfl

end Sys2Proof.Machine
end

section
/-! SUPPORT. Decoding and encoding agree (R130 to R144). -/

namespace Sys2Proof.Machine

open Sys2Proof.Claims

/-! ## Fields of a word -/

/-- A field is read back where the word holds it. -/
theorem decF_eq {w lo n : Nat} {v : BitVec n} (h : w / 2 ^ lo % 2 ^ n = v.toNat) : decF w lo n = v :=
  BitVec.eq_of_toNat_eq (by rw [decF, BitVec.toNat_ofNat, h])

theorem bitAt_eq {w i : Nat} {b : Bool} (h : w / 2 ^ i % 2 = (BitVec.ofBool b).toNat) : bitAt w i = b := by
  rw [bitAt, h]; cases b <;> rfl

theorem encB_eq (b : Bool) (lo : Nat) : encB b lo = (BitVec.ofBool b).toNat * 2 ^ lo := by
  cases b <;> simp [encB]

/-- GE and GS as one field of four bits (R131). -/
def guardField : Option (BitVec 3) → BitVec 4
  | none => 0
  | some s => 1#1 ++ s

theorem toNat_guardField_some (s : BitVec 3) : (guardField (some s)).toNat = 8 + s.toNat := by
  rw [guardField, BitVec.toNat_append, ← Nat.shiftLeft_add_eq_or_of_lt s.isLt]; rfl

theorem encG_eq (g : Option (BitVec 3)) : encG g = (guardField g).toNat * 2 ^ 18 := by
  cases g with
  | none => rfl
  | some s => rw [toNat_guardField_some, encG]; omega

theorem decG_eq {w : Nat} {g : Option (BitVec 3)} (h : w / 2 ^ 18 % 2 ^ 4 = (guardField g).toNat) : decG w = g := by
  cases g with
  | none =>
    have hge : bitAt w 21 = false := bitAt_eq (by rw [show (guardField none).toNat = 0 from rfl] at h; simp; omega)
    rw [decG, hge, if_neg Bool.false_ne_true]
  | some s =>
    rw [toNat_guardField_some] at h
    have hge : bitAt w 21 = true := bitAt_eq (by simp; omega)
    rw [decG, if_pos hge, decF_eq (v := s) (by omega)]

/-! ## The opcode selects the row and the column (R144) -/

/-- The operation of an opcode `o` (R144). -/
def shapeAt (o w : Nat) : Option Instr :=
  match o / 16 with
  | 0 => row00 (o % 16) w
  | 1 => row01 (o % 16) w
  | 2 => row02 (o % 16) w
  | 3 => row03 (o % 16) w
  | 4 => row04 (o % 16) w
  | 5 => row05 (o % 16) w
  | 6 => row06 (o % 16) w
  | 7 => row07 (o % 16) w
  | 8 => row08 (o % 16) w
  | 9 => row09 (o % 16) w
  | 10 => row0A (o % 16) w
  | 11 => row0B (o % 16) w
  | 12 => row0C (o % 16) w
  | 13 => row0D (o % 16) w
  | 14 => row0E (o % 16) w
  | 15 => row0F (o % 16) w
  | 16 => row10 (o % 16) w
  | 17 => row11 (o % 16) w
  | 20 => rowSbind w
  | 21 => rowSbind w
  | _ => none

theorem shape_eq (w : Nat) : shape w = shapeAt (w / 2 ^ 22) w := rfl

/-- The opcode of a word whose fields lie below bit 22. -/
theorem opcode_add {k r : Nat} (hk : k % 4194304 = 0) (hr : r < 4194304) : (k + r) / 2 ^ 22 = k / 4194304 := by omega

/-- So too where the constant holds a function field below bit 4. -/
theorem opcode_add_low {k r : Nat} (hk : k % 4194304 < 16) (hr : r < 4194304) (h : r % 16 = 0) : (k + r) / 2 ^ 22 = k / 4194304 := by omega

/-- The opcodes of SBIND hold its format code (R210). -/
theorem shapeAt_sbind {f : Nat} (hf : f < 20) (nolorn : Bool) (w : Nat) :
    shapeAt (320 + f) w = rowSbind w ∧ assigned nolorn (320 + f) = true := by
  interval_cases f <;> exact ⟨rfl, rfl⟩

/-! ## The formats that most words share (R130) -/

/-- A word's opcode and function field name the instruction; the security instructions are the Nolorn core's (R141, R144). -/
def Named (nolorn : Bool) (i : Instr) (w : Nat) : Prop :=
  shape w = some i ∧ assigned nolorn (w / 2 ^ 22) = (!securityWord i || nolorn)

theorem named_of_opcode {nolorn : Bool} {o w : Nat} {i : Instr} (ho : w / 2 ^ 22 = o) (hs : shapeAt o w = some i)
    (ha : assigned nolorn o = (!securityWord i || nolorn)) : Named nolorn i w := by
  rw [Named, shape_eq, ho]
  exact ⟨hs, ha⟩

/-- A word whose constant holds a function field below bit 4, apart from the sum of its fields. -/
theorem named_of_function {nolorn : Bool} {k r w : Nat} {i : Instr} (hw : w = k + r) (hk : k % 4194304 < 16) (hr : r < 4194304)
    (h16 : r % 16 = 0) (hs : shapeAt (k / 4194304) w = some i) (ha : assigned nolorn (k / 4194304) = (!securityWord i || nolorn)) :
    Named nolorn i w :=
  named_of_opcode (hw ▸ opcode_add_low hk hr h16) hs ha

/-- A word as a number of its own, apart from the sum of its fields. -/
theorem named_of_eq {nolorn : Bool} {i : Instr} {v : Nat} (h : ∀ w, w = v → Named nolorn i w) : Named nolorn i v := h v rfl

theorem named_of_add_zero {nolorn : Bool} {i : Instr} {w : Nat} (h : Named nolorn i (w + 0)) : Named nolorn i w := h

theorem encF_zero_lt {m c : Nat} (n : BitVec m) (h : m ≤ c) : encF n 0 < 2 ^ c :=
  (Nat.mul_one _).trans_lt (n.isLt.trans_le (Nat.pow_le_pow_right (by decide) h))

theorem encB_zero_lt {c : Nat} (b : Bool) (h : 1 ≤ c) : encB b 0 < 2 ^ c := by
  rw [encB_eq]
  exact encF_zero_lt (BitVec.ofBool b) h

/-- The field at bit 0, from the bits below a register field. -/
theorem decF_low {w m c : Nat} {n : BitVec m} (hm : m ≤ c) (h : w % 2 ^ c = encF n 0) : decF w 0 m = n := by
  refine decF_eq ?_
  rw [Nat.pow_zero, Nat.div_one, ← Nat.mod_mod_of_dvd w (Nat.pow_dvd_pow 2 hm), h, encF, Nat.pow_zero, Nat.mul_one, Nat.mod_eq_of_lt n.isLt]

theorem bitAt_low {w c : Nat} {b : Bool} (hc : 1 ≤ c) (h : w % 2 ^ c = encB b 0) : bitAt w 0 = b := by
  refine bitAt_eq ?_
  rw [encB_eq] at h
  exact congrArg BitVec.toNat (decF_low (n := BitVec.ofBool b) hc h)

section
variable {k r : Nat} {P : Nat → Prop} (hk : k % 4194304 = 0)
include hk

/-- Fields d and a, and less than 2^10 below them. -/
theorem of_two_registers (d a : BitVec 6) (hr : r < 2 ^ 10)
    (h : ∀ w, w / 2 ^ 22 = k / 4194304 → decF w 16 6 = d → decF w 10 6 = a → w % 2 ^ 10 = r → P w) : P (k + (encF d 16 + (encF a 10 + r))) := by
  simp only [encF]
  exact h _ (by omega) (decF_eq (by omega)) (decF_eq (by omega)) (by omega)

/-- Fields d, a and b, and less than 2^4 below them. -/
theorem of_three_registers (d a b : BitVec 6) (hr : r < 2 ^ 4)
    (h : ∀ w, w / 2 ^ 22 = k / 4194304 → decF w 16 6 = d → decF w 10 6 = a → decF w 4 6 = b → w % 2 ^ 4 = r → P w) :
    P (k + (encF d 16 + (encF a 10 + (encF b 4 + r)))) := by
  simp only [encF]
  exact h _ (by omega) (decF_eq (by omega)) (decF_eq (by omega)) (decF_eq (by omega)) (by omega)

/-- A guard and fields x, y and z, and less than 2^9 below them. -/
theorem of_three_operands (g : Option (BitVec 3)) (x y z : BitVec 3) (hr : r < 2 ^ 9)
    (h : ∀ w, w / 2 ^ 22 = k / 4194304 → decG w = g → decF w 15 3 = x → decF w 12 3 = y → decF w 9 3 = z → w % 2 ^ 9 = r → P w) :
    P (k + (encG g + (encF x 15 + (encF y 12 + (encF z 9 + r))))) := by
  simp only [encF, encG_eq]
  exact h _ (by omega) (decG_eq (by omega)) (decF_eq (by omega)) (decF_eq (by omega)) (decF_eq (by omega)) (by omega)

/-- A guard and fields x and y, and less than 2^12 below them. -/
theorem of_two_operands (g : Option (BitVec 3)) (x y : BitVec 3) (hr : r < 2 ^ 12)
    (h : ∀ w, w / 2 ^ 22 = k / 4194304 → decG w = g → decF w 15 3 = x → decF w 12 3 = y → w % 2 ^ 12 = r → P w) :
    P (k + (encG g + (encF x 15 + (encF y 12 + r)))) := by
  simp only [encF, encG_eq]
  exact h _ (by omega) (decG_eq (by omega)) (decF_eq (by omega)) (decF_eq (by omega)) (by omega)

end

/-- The words that a guard may stand in (R131). -/
def guarded : Instr → Bool
  | .cpy .. | .cgth .. | .csct .. | .cdst .. | .cmcst .. | .cfnc .. | .vadd .. | .vsub .. | .vmul .. | .vfma .. | .vmin .. | .vmax ..
  | .vabs .. | .vneg .. | .vcmp .. | .vsel .. | .vand .. | .vor .. | .vxor .. | .vsll .. | .vsrl .. | .vsra .. | .vcvt .. | .vqnt ..
  | .vdqnt .. | .vred .. | .vscan .. | .vperm .. | .vbcst .. | .vmov .. | .mand .. | .mor .. | .mxor .. | .mnot .. | .mset .. | .msetU ..
  | .vrcp .. | .vrsq .. | .vexp2 .. | .vlog2 .. | .vtanh .. | .vsigm .. | .vsin .. | .vcos .. | .mclm .. | .mrel .. | .mld .. | .mma ..
  | .mdrn .. | .mspl .. | .mrst .. | .msnd .. | .mzacc .. | .mmov .. | .mmovG .. | .mmovT .. | .baddq .. => true
  | _ => false

/-- Every guarded word is named by its opcode and its function field. -/
theorem named_of_guarded (nolorn : Bool) {i : Instr} {w : Nat} (h : encodeNat i = some w) (hg : guarded i = true) : Named nolorn i w := by
  cases i
  all_goals cases hg
  all_goals cases h
  case vadd | vsub | vmul | vfma | vrcp | vrsq | vexp2 | vlog2 | vtanh | vsigm | vsin | vcos =>
    simp only [Nat.add_assoc]
    refine of_three_operands (P := Named nolorn _) rfl _ _ _ _ (encB_zero_lt _ (by decide)) fun w ho hg hx hy hz hr => ?_
    have hn := bitAt_low (by decide) hr
    subst hg hx hy hz hn
    exact named_of_opcode ho rfl rfl
  case vmin | vmax | vand | vor | vxor | vsll | vsrl | vsra | vperm | mand | mor | mxor | msnd =>
    refine named_of_add_zero ?_
    simp only [Nat.add_assoc]
    refine of_three_operands (P := Named nolorn _) rfl _ _ _ _ (by decide) fun w ho hg hx hy hz _ => ?_
    subst hg hx hy hz
    exact named_of_opcode ho rfl rfl
  case vcmp | vsel =>
    simp only [Nat.add_assoc]
    refine of_three_operands (P := Named nolorn _) rfl _ _ _ _ (encF_zero_lt _ (by decide)) fun w ho hg hx hy hz hr => ?_
    have hn := decF_low (by decide) hr
    subst hg hx hy hz hn
    exact named_of_opcode ho rfl rfl
  case cpy | cdst | cmcst | cgth | csct | vdqnt | baddq | mld | mma | mdrn =>
    simp only [Nat.add_assoc]
    refine of_three_operands (P := Named nolorn _) rfl _ _ _ _ (by simp only [encF, encB_eq]; omega) fun w ho hg hx hy hz hr => ?_
    subst hg hx hy hz
    simp only [encF, encB_eq] at hr
    refine named_of_opcode ho (congrArg some ?_) rfl
    congr 1
    all_goals first | refine decF_eq ?_ | refine bitAt_eq ?_
    all_goals omega
  case vcvt | vmov | mnot =>
    refine named_of_add_zero ?_
    simp only [Nat.add_assoc]
    refine of_two_operands (P := Named nolorn _) rfl _ _ _ (by decide) fun w ho hg hx hy _ => ?_
    subst hg hx hy
    exact named_of_opcode ho rfl rfl
  case vabs | vneg | vqnt | vred | vscan | vbcst | mspl | mrst =>
    simp only [Nat.add_assoc]
    refine of_two_operands (P := Named nolorn _) rfl _ _ _ (by simp only [encF, encB_eq]; omega) fun w ho hg hx hy hr => ?_
    subst hg hx hy
    simp only [encF, encB_eq] at hr
    refine named_of_opcode ho (congrArg some ?_) rfl
    congr 1
    all_goals first | refine decF_eq ?_ | refine bitAt_eq ?_
    all_goals omega
  case mset | mmov =>
    refine named_of_eq fun w hw => ?_
    simp only [encF, encG_eq, Nat.add_assoc] at hw
    refine named_of_function hw (by decide) (by omega) (by omega) ((if_pos ?_).trans (congrArg some ?_)) rfl
    · simp only [bits]; omega
    · congr 1
      all_goals first | refine decF_eq ?_ | refine decG_eq ?_
      all_goals omega
  case msetU | mmovG =>
    refine named_of_eq fun w hw => ?_
    simp only [encF, encG_eq, Nat.add_assoc] at hw
    refine named_of_function hw (by decide) (by omega) (by omega) ((if_neg ?_).trans ((if_pos ?_).trans (congrArg some ?_))) rfl
    · simp only [bits]; omega
    · simp only [bits]; omega
    · congr 1
      all_goals first | refine decF_eq ?_ | refine decG_eq ?_
      all_goals omega
  case mmovT =>
    refine named_of_eq fun w hw => ?_
    simp only [encF, encG_eq, Nat.add_assoc] at hw
    refine named_of_function hw (by decide) (by omega) (by omega)
      ((if_neg ?_).trans ((if_neg ?_).trans ((if_pos ?_).trans (congrArg some ?_)))) rfl
    · simp only [bits]; omega
    · simp only [bits]; omega
    · simp only [bits]; omega
    · congr 1
      all_goals first | refine decF_eq ?_ | refine decG_eq ?_
      all_goals omega
  all_goals
    simp only [Named, encF, encB_eq, encG_eq, Nat.add_assoc]
    rw [shape_eq, opcode_add rfl (by omega)]
    refine ⟨congrArg some ?_, rfl⟩
    congr 1
    all_goals first | refine decF_eq ?_ | refine bitAt_eq ?_ | refine decG_eq ?_
    all_goals omega

/-- Every other word with an encoding is. -/
theorem named_of_unguarded (nolorn : Bool) {i : Instr} {w : Nat} (h : encodeNat i = some w) (hwf : i.wf nolorn = true) (hg : guarded i = false) :
    Named nolorn i w := by
  cases i
  all_goals cases hg
  all_goals cases h
  case tret | tretK | tretS | idle | brk | lblpop | ifence | nop | exit | join | txb | txa => exact ⟨rfl, rfl⟩
  case clz | ctz | popc | sext | zext | addi | andi | ori | xori | slti | sltiu | muli | beq | bne | blt | bge | bltu | bgeu | bc | bnc | fclas |
      ldBS | ldBZ | ldHS | ldHZ | ldWS | ldWZ | ldDS | ldDZ | ldQ | stB | stH | stW | stD | stQ | ldxBS | ldxBZ | ldxHS | ldxHZ | ldxWS | ldxWZ |
      ldxDS | ldxDZ | ldxQ | stxB | stxH | stxW | stxD | stxQ | sqry =>
    simp only [Nat.add_assoc]
    refine of_two_registers (P := Named nolorn _) rfl _ _ (encF_zero_lt _ (by decide)) fun w ho hd ha hr => ?_
    have hn := decF_low (by decide) hr
    subst hd ha hn
    exact named_of_opcode ho rfl rfl
  case ctxsv | ctxld | cgadr | cgbas | cglen | cgprm | cclrt | capmv | cseal | jr | det | bqry | cqry | mcnt | gset | mqry | bar | tdec =>
    refine named_of_add_zero ?_
    simp only [Nat.add_assoc]
    refine of_two_registers (P := Named nolorn _) rfl _ _ (by decide) fun w ho hd ha _ => ?_
    subst hd ha
    exact named_of_opcode ho rfl rfl
  case add | sub | mul | mulh | mulhu | div | divu | rem | remu | and | or | xor | sll | srl | sra | rol | ror | min | max | minu | maxu | slt |
      sltu | fadd | fsub | fmul | ffma | fmin | fmax | feq | flt | fle | ldIndexed | stIndexed | ldxIndexed | stxIndexed | aadd | aand | aor |
      axor | aswp | acas | tdem | terr =>
    simp only [Nat.add_assoc]
    refine of_three_registers (P := Named nolorn _) rfl _ _ _ (encF_zero_lt _ (by decide)) fun w ho hd ha hb hr => ?_
    have hn := decF_low (by decide) hr
    subst hd ha hb hn
    exact named_of_opcode ho rfl rfl
  case sel | bfi | cperm | coff | att | hand | ring | revk | cwcnt | tred | pmin | pmax | lead | follow | precv | tspawn =>
    refine named_of_add_zero ?_
    simp only [Nat.add_assoc]
    refine of_three_registers (P := Named nolorn _) rfl _ _ _ (by decide) fun w ho hd ha hb _ => ?_
    subst hd ha hb
    exact named_of_opcode ho rfl rfl
  case bfx | csetb | padd | psub | pmul | pfma | pscl =>
    simp only [Nat.add_assoc]
    refine of_three_registers (P := Named nolorn _) rfl _ _ _ (encB_zero_lt _ (by decide)) fun w ho hd ha hb hr => ?_
    have hn := bitAt_low (by decide) hr
    subst hd ha hb hn
    exact named_of_opcode ho rfl rfl
  case recv | probeT =>
    refine named_of_eq fun w hw => ?_
    simp only [encF, Nat.add_assoc] at hw
    refine named_of_function hw (by decide) (by omega) (by omega) ((if_pos ?_).trans (congrArg some ?_)) rfl
    · simp only [bits]; omega
    · congr 1
      all_goals refine decF_eq ?_
      all_goals omega
  case recvT | probe =>
    refine named_of_eq fun w hw => ?_
    simp only [encF, Nat.add_assoc] at hw
    refine named_of_function hw (by decide) (by omega) (by omega) ((if_neg ?_).trans ((if_pos ?_).trans (congrArg some ?_))) rfl
    · simp only [bits]; omega
    · simp only [bits]; omega
    · congr 1
      all_goals refine decF_eq ?_
      all_goals omega
  case recvPort =>
    refine named_of_eq fun w hw => ?_
    simp only [encF, Nat.add_assoc] at hw
    refine named_of_function hw (by decide) (by omega) (by omega)
      ((if_neg ?_).trans ((if_neg ?_).trans ((if_pos ?_).trans (congrArg some ?_)))) rfl
    · simp only [bits]; omega
    · simp only [bits]; omega
    · simp only [bits]; omega
    · congr 1
      all_goals refine decF_eq ?_
      all_goals omega
  case recvF =>
    refine named_of_eq fun w hw => ?_
    simp only [encF, Nat.add_assoc] at hw
    refine named_of_function hw (by decide) (by omega) (by omega)
      ((if_neg ?_).trans ((if_neg ?_).trans ((if_neg ?_).trans ((if_pos ?_).trans (congrArg some ?_))))) rfl
    · simp only [bits]; omega
    · simp only [bits]; omega
    · simp only [bits]; omega
    · simp only [bits]; omega
    · congr 1
      all_goals refine decF_eq ?_
      all_goals omega
  case sendPort =>
    refine named_of_eq fun w hw => ?_
    simp only [encF, Nat.add_assoc] at hw
    refine named_of_function hw (by decide) (by omega) (by omega) ((if_pos ?_).trans (congrArg some ?_)) rfl
    · simp only [bits]; omega
    · congr 1
      all_goals refine decF_eq ?_
      all_goals omega
  case send d a b n =>
    have hn : n.toNat < 7 := of_decide_eq_true hwf
    refine named_of_eq fun w hw => ?_
    simp only [encF, Nat.add_assoc] at hw
    refine named_of_opcode ((congrArg (· / 2 ^ 22) hw).trans (opcode_add rfl (by omega))) ((if_neg ?_).trans (congrArg some ?_)) rfl
    · simp only [bits]; omega
    · congr 1
      all_goals refine decF_eq ?_
      all_goals omega
  case scryp | skey =>
    refine named_of_eq fun w hw => ?_
    simp only [encF, Nat.add_assoc] at hw
    refine named_of_function hw (by decide) (by omega) (by omega) ((if_pos ?_).trans (congrArg some ?_)) (Bool.and_true nolorn)
    · simp only [bits]; omega
    · congr 1
      all_goals refine decF_eq ?_
      all_goals omega
  case scrypDec | skeyWipe =>
    refine named_of_eq fun w hw => ?_
    simp only [encF, Nat.add_assoc] at hw
    refine named_of_function hw (by decide) (by omega) (by omega)
      ((if_neg ?_).trans ((if_pos ?_).trans (congrArg some ?_))) (Bool.and_true nolorn)
    · simp only [bits]; omega
    · simp only [bits]; omega
    · congr 1
      all_goals refine decF_eq ?_
      all_goals omega
  case shash | sverf | ssign | smext =>
    refine named_of_add_zero ?_
    simp only [Nat.add_assoc]
    refine of_three_registers (P := Named nolorn _) rfl _ _ _ (by decide) fun w ho hd ha hb _ => ?_
    subst hd ha hb
    exact named_of_opcode ho rfl (Bool.and_true nolorn)
  case sbind f d a b n =>
    have hf : f.toNat < 20 := by
      have : (decide (f < 20) && decide (d < 8)) = true := hwf
      simp only [Bool.and_eq_true, decide_eq_true_eq] at this
      exact this.1
    simp only [encF]
    obtain ⟨hrow, hassigned⟩ := shapeAt_sbind hf nolorn
      (0x50000000 + f.toNat * 2 ^ 22 + d.toNat * 2 ^ 16 + a.toNat * 2 ^ 10 + b.toNat * 2 ^ 4 + n.toNat * 2 ^ 0)
    refine named_of_opcode (o := 320 + f.toNat) (by omega) (hrow.trans (congrArg some ?_)) hassigned
    congr 1
    all_goals refine decF_eq ?_
    all_goals omega
  all_goals
    simp only [Named, encF, encB_eq, Nat.add_assoc]
    rw [shape_eq, opcode_add rfl (by omega)]
    refine ⟨congrArg some ?_, rfl⟩
    congr 1
    all_goals first | refine decF_eq ?_ | refine bitAt_eq ?_
    all_goals omega

theorem named_of_encodeNat (nolorn : Bool) {i : Instr} {w : Nat} (h : encodeNat i = some w) (hwf : i.wf nolorn = true) : Named nolorn i w :=
  match hg : guarded i with
  | true => named_of_guarded nolorn h hg
  | false => named_of_unguarded nolorn h hwf hg

/-- What an accepted word has passed: its instruction's encoding is the word, and no field holds a reserved value. -/
theorem encodeNat_of_decode {nolorn user : Bool} {h : Hint} {i : Instr} {w : Nat} (hd : decode nolorn user h w = .ok i) :
    encodeNat i = some w ∧ i.wf nolorn = true := by
  unfold decode at hd
  dsimp only at hd
  split at hd
  · cases hd
  split at hd
  · cases hd
  split at hd
  · cases hd
  split at hd
  · cases hd
  · next hok =>
    split at hd
    · cases hd
    · cases hd
      simpa using hok

/-- A word of an assigned opcode that encodes an instruction with no reserved field decodes to it. -/
theorem decode_of_encodeNat {nolorn : Bool} {i : Instr} {w : Nat} (h : encodeNat i = some w) (hwf : i.wf nolorn = true)
    (hs : shape w = some i) (ha : assigned nolorn (w / 2 ^ 22) = true) : decode nolorn false .none w = .ok i := by
  unfold decode
  dsimp only
  rw [ha, hs]
  simp [h, hwf, hintFault]

/-- A word of an opcode that is not assigned is illegal. -/
theorem decode_of_not_assigned {nolorn user : Bool} {h : Hint} {w : Nat} (ha : assigned nolorn (w / 2 ^ 22) = false) :
    decode nolorn user h w = .illegal := by
  unfold decode
  dsimp only
  rw [ha]
  rfl

/-- Settles O57: the opcode and the function field name the instruction, case by case; the decoder checks the rest of the word itself. -/
theorem decodeAndEncodeAgree : Obligations.DecodeAndEncodeAgree := by
  refine ⟨fun nolorn i w h hwf => ?_, fun _ _ _ _ _ => encodeNat_of_decode⟩
  obtain ⟨hs, ha⟩ := named_of_encodeNat nolorn h hwf
  constructor
  · intro hcore
    refine decode_of_encodeNat h hwf hs (ha.trans ?_)
    obtain rfl | hi := hcore
    · exact Bool.or_true _
    · rw [hi]; rfl
  · intro hcore hsec
    exact decode_of_not_assigned (by rw [ha, hcore, hsec]; rfl)

end Sys2Proof.Machine
end

section
/-! SUPPORT. The integer operations but for division (R162). -/

namespace Sys2Proof.Machine

open Sys2Proof.Claims

/-! ## The results of R162's table, modulo 2^w -/

section
variable {w : Nat} (x y : BitVec w)

theorem addR_ofBitVec : BitVec.ofInt w (addR ⟨w, x.toNat, y.toNat⟩) = x + y := by
  rw [addR, xs_ofBitVec, ys_ofBitVec, BitVec.ofInt_add, BitVec.ofInt_toInt, BitVec.ofInt_toInt]

theorem subR_ofBitVec : BitVec.ofInt w (subR ⟨w, x.toNat, y.toNat⟩) = x - y := by
  rw [subR, xs_ofBitVec, ys_ofBitVec, Int.sub_eq_add_neg, BitVec.ofInt_add, BitVec.ofInt_neg, BitVec.ofInt_toInt, BitVec.ofInt_toInt,
    BitVec.sub_eq_add_neg]

theorem mulR_ofBitVec : BitVec.ofInt w (mulR ⟨w, x.toNat, y.toNat⟩) = x * y := by
  rw [mulR, xs_ofBitVec, ys_ofBitVec, BitVec.ofInt_mul, BitVec.ofInt_toInt, BitVec.ofInt_toInt]

theorem mulhR_ofBitVec : BitVec.ofInt w (mulhR ⟨w, x.toNat, y.toNat⟩) = BitVec.ofInt w (x.toInt * y.toInt / (2 ^ w : Nat)) := by
  rw [mulhR, xs_ofBitVec, ys_ofBitVec]

theorem mulhuR_ofBitVec : BitVec.ofInt w (mulhuR ⟨w, x.toNat, y.toNat⟩) = BitVec.ofNat w (x.toNat * y.toNat / 2 ^ w) := by
  rw [← BitVec.ofInt_natCast, mulhuR]
  push_cast
  rfl

/-- Logic acts on the patterns. -/
theorem ofInt_and_toNat : BitVec.ofInt w ((x.toNat &&& y.toNat : Nat) : Int) = x &&& y := by
  rw [← BitVec.toNat_and, ofInt_toNat]

theorem ofInt_or_toNat : BitVec.ofInt w ((x.toNat ||| y.toNat : Nat) : Int) = x ||| y := by
  rw [← BitVec.toNat_or, ofInt_toNat]

theorem ofInt_xor_toNat : BitVec.ofInt w ((x.toNat ^^^ y.toNat : Nat) : Int) = x ^^^ y := by
  rw [← BitVec.toNat_xor, ofInt_toNat]

/-- A shift or rotate by a register takes the amount modulo the width. -/
theorem sllR_mod (k : Nat) : sllR ⟨w, x.toNat, k⟩ = sllR ⟨w, x.toNat, k % w⟩ := by
  simp only [sllR, IntArgs.sh, Nat.mod_mod]

theorem srlR_mod (k : Nat) : srlR ⟨w, x.toNat, k⟩ = srlR ⟨w, x.toNat, k % w⟩ := by
  simp only [srlR, IntArgs.sh, Nat.mod_mod]

theorem sraR_mod (k : Nat) : sraR ⟨w, x.toNat, k⟩ = sraR ⟨w, x.toNat, k % w⟩ := by
  simp only [sraR, IntArgs.sh, IntArgs.xs, Nat.mod_mod]

/-- A bit of a pattern written twice and shifted down. -/
theorem getLsbD_doubled_shifted {k i : Nat} (hi : i < w) :
    (BitVec.ofInt w (((x.toNat * 2 ^ w + x.toNat) / 2 ^ k : Nat) : Int)).getLsbD i =
      if i + k < w then x.getLsbD (i + k) else x.getLsbD (i + k - w) := by
  rw [BitVec.ofInt_natCast, BitVec.getLsbD_ofNat, decide_eq_true hi, Bool.true_and, Nat.testBit_div_two_pow, Nat.mul_comm,
    Nat.testBit_two_pow_mul_add _ x.isLt]
  rfl

theorem rolR_ofBitVec (hw : 0 < w) (k : Nat) : BitVec.ofInt w (rolR ⟨w, x.toNat, k⟩) = x.rotateLeft (k % w) := by
  have hk : k % w < w := Nat.mod_lt _ hw
  have hr : rolR ⟨w, x.toNat, k⟩ = (((x.toNat * 2 ^ w + x.toNat) / 2 ^ (w - k % w) : Nat) : Int) := by
    simp [rolR, IntArgs.sh]
  apply BitVec.eq_of_getLsbD_eq
  intro i hi
  rw [hr, getLsbD_doubled_shifted x hi, BitVec.getLsbD_rotateLeft, Nat.mod_mod, decide_eq_true hi, Bool.true_and]
  by_cases low : i < k % w
  · rw [if_pos (by omega), decide_eq_true low, cond_true]
    congr 1; omega
  · rw [if_neg (by omega), decide_eq_false low, cond_false]
    congr 1; omega

theorem rorR_ofBitVec (k : Nat) : BitVec.ofInt w (rorR ⟨w, x.toNat, k⟩) = x.rotateRight (k % w) := by
  have hr : rorR ⟨w, x.toNat, k⟩ = (((x.toNat * 2 ^ w + x.toNat) / 2 ^ (k % w) : Nat) : Int) := by
    simp [rorR, IntArgs.sh]
  apply BitVec.eq_of_getLsbD_eq
  intro i hi
  have hk : k % w < w := Nat.mod_lt _ (by omega)
  rw [hr, getLsbD_doubled_shifted x hi, BitVec.getLsbD_rotateRight, Nat.mod_mod, decide_eq_true hi, Bool.true_and]
  by_cases low : i < w - k % w
  · rw [if_pos (by omega), decide_eq_true low, cond_true, Nat.add_comm]
  · rw [if_neg (by omega), decide_eq_false low, cond_false]
    congr 1; omega

/-- The lesser and the greater of two numbers, as the patterns that stand for them. -/
theorem ofInt_ite {p : Prop} [Decidable p] {b : Bool} (h : p ↔ b = true) {i j : Int} {u v : BitVec w} (hi : BitVec.ofInt w i = u)
    (hj : BitVec.ofInt w j = v) : BitVec.ofInt w (if p then i else j) = if b then u else v := by
  simp only [h]
  split <;> assumption

theorem sle_iff : x.toInt ≤ y.toInt ↔ x.sle y = true := BitVec.sle_iff_toInt_le.symm

theorem ule_iff : x.toNat ≤ y.toNat ↔ x.ule y = true := by rw [BitVec.ule_iff_le, BitVec.le_def]

theorem minR_ofBitVec : BitVec.ofInt w (minR ⟨w, x.toNat, y.toNat⟩) = if x.sle y then x else y := by
  rw [minR, xs_ofBitVec, ys_ofBitVec]
  exact ofInt_ite (sle_iff x y) (BitVec.ofInt_toInt ..) (BitVec.ofInt_toInt ..)

theorem maxR_ofBitVec : BitVec.ofInt w (maxR ⟨w, x.toNat, y.toNat⟩) = if x.sle y then y else x := by
  rw [maxR, xs_ofBitVec, ys_ofBitVec]
  exact ofInt_ite (sle_iff x y) (BitVec.ofInt_toInt ..) (BitVec.ofInt_toInt ..)

theorem minuR_ofBitVec : BitVec.ofInt w (minuR ⟨w, x.toNat, y.toNat⟩) = if x.ule y then x else y :=
  ofInt_ite (ule_iff x y) (ofInt_toNat x) (ofInt_toNat y)

theorem maxuR_ofBitVec : BitVec.ofInt w (maxuR ⟨w, x.toNat, y.toNat⟩) = if x.ule y then y else x :=
  ofInt_ite (ule_iff x y) (ofInt_toNat y) (ofInt_toNat x)

end

/-! ## Comparisons -/

/-- A truth value is written as it is at every width. -/
theorem value_intDone_truth {n : BitVec 2} {w : Nat} (hn : Width n w) (d : BitVec 6) (s : State) {p : Prop} [Decidable p] {b : Bool} (h : p ↔ b = true) :
    Value (.next (intDone d w (if p then 1 else 0) s)) s d (if b then 1 else 0) := by
  have hw : 1 ≤ w := by
    obtain ⟨-, rfl⟩ | ⟨-, rfl⟩ | ⟨-, rfl⟩ := hn <;> decide
  simp only [h]
  cases b with
  | false => exact value_intDone_of_le hn d s (Nat.zero_le w)
  | true => exact value_intDone_of_le hn d s hw

/-- An operation of R162 at a coded width: the result of its table, sign-extended. -/
theorem integer_of_result {n : BitVec 2} {w : Nat} (hn : Width n w) (a b d : BitVec 6) (s : State) (f : IntArgs → Int) {r : BitVec w}
    (h : BitVec.ofInt w (f ⟨w, ((rv s a).setWidth w).toNat, ((rv s b).setWidth w).toNat⟩) = r) :
    Integer (.next (intDone d (widthOf n) (f (intArgs a b n s)) s)) s d r := by
  rw [widthOf_of_width hn, intArgs_of_width hn]
  exact integer_intDone d s h

/-- A comparison of R162 at a coded width: a truth value. -/
theorem value_of_comparison {n : BitVec 2} {w : Nat} (hn : Width n w) (a b d : BitVec 6) (s : State) (f : IntArgs → Int) {p : Prop} [Decidable p]
    {t : Bool} (h : p ↔ t = true) (hf : f ⟨w, ((rv s a).setWidth w).toNat, ((rv s b).setWidth w).toNat⟩ = if p then 1 else 0) :
    Value (.next (intDone d (widthOf n) (f (intArgs a b n s)) s)) s d (if t then 1 else 0) := by
  rw [widthOf_of_width hn, intArgs_of_width hn, hf]
  exact value_intDone_truth hn d s h

/-- Settles O1: each row of the table, by the lemma about its result; the two comparisons write a truth value. -/
theorem integerResults : Obligations.IntegerResults := by
  intro s d a b n w hn x y sh
  have hw : 0 < w := by
    obtain ⟨-, rfl⟩ | ⟨-, rfl⟩ | ⟨-, rfl⟩ := hn <;> decide
  have hsh : sh < w := Nat.mod_lt _ hw
  have result := integer_of_result hn a b d s
  refine ⟨result addR (addR_ofBitVec x y), result subR (subR_ofBitVec x y), result mulR (mulR_ofBitVec x y), result mulhR (mulhR_ofBitVec x y),
    result mulhuR (mulhuR_ofBitVec x y), result andR (ofInt_and_toNat x y), result orR (ofInt_or_toNat x y), result xorR (ofInt_xor_toNat x y),
    result sllR ((congrArg _ (sllR_mod x _)).trans (sllR_ofBitVec hsh x)), result srlR ((congrArg _ (srlR_mod x _)).trans (srlR_ofBitVec hsh x)),
    result sraR ((congrArg _ (sraR_mod x _)).trans (sraR_ofBitVec hsh x)), result rolR (rolR_ofBitVec x hw _), result rorR (rorR_ofBitVec x _),
    result minR (minR_ofBitVec x y), result maxR (maxR_ofBitVec x y), result minuR (minuR_ofBitVec x y), result maxuR (maxuR_ofBitVec x y), ?_, ?_⟩
  · exact value_of_comparison hn a b d s sltR (BitVec.slt_iff_toInt_lt (x := x) (y := y)).symm (by rw [sltR, xs_ofBitVec, ys_ofBitVec])
  · have hlt : x.toNat < y.toNat ↔ x.ult y = true := by rw [BitVec.ult_iff_lt, BitVec.lt_def]
    exact value_of_comparison hn a b d s sltuR hlt rfl

end Sys2Proof.Machine
end

section
/-! SUPPORT. TRAP and TRET (R331 to R338), and privilege (R141, R148). -/

namespace Sys2Proof.Machine

open Sys2Proof.Claims

/-! ## TRAP (R337) -/

theorem exec_trap (a : BitVec 6) (i : BitVec 7) (s : State) : exec (.trap a i) s = .next (trapVal (0x80 + i.toNat) (rv s a) s) := rfl

/-- The causes of TRAP are of class 6. -/
theorem causeClass_trap (i : BitVec 7) : causeClass (0x80 + i.toNat) = 6 := by
  unfold causeClass
  repeat rw [if_neg (by omega)]

theorem traps_trap (a : BitVec 6) (i : BitVec 7) (s : State) : Traps (exec (.trap a i) s) s (0x80 + i.toNat) 6 (rv s a) := by
  have h := traps_trapVal (0x80 + i.toNat) (rv s a) s
  rwa [causeClass_trap] at h

/-- Settles O6: TRAP is a precise trap. -/
theorem softwareTraps : Obligations.SoftwareTraps :=
  ⟨fun s a i hu hv => (traps_trap a i s hv).1 hu, fun s a i hs hv hp => (traps_trap a i s hv).2 hs hp⟩

/-! ## The core in issue after a word, apart from time -/

/-- The core in issue once its word is complete. -/
def completedCore (s : State) : Core := ((curCore s).put (onSup s) (cx s).advance).marked_

theorem completed_cx_eq (s : State) : completed s (cx s) = setCore s s.cur (completedCore s) := markIssued_setCx s (cx s).advance

theorem stillCore_core_of_still {s t : State} (h : still s = still t) (c : Nat) : stillCore (core s c) = stillCore (core t c) := by
  rw [← core_still, ← core_still, h]

theorem still_setCore_congr {s t : State} (h : still s = still t) (c : Nat) {k k' : Core} (hk : stillCore k = stillCore k') :
    still (setCore s c k) = still (setCore t c k') := by
  rw [still_setCore, still_setCore, h, hk]

theorem stillCore_core_finish (s : State) : stillCore (core (finish s) s.cur) = stillCore (completedCore s) := by
  rw [stillCore_core_of_still (still_finish s), completed_cx_eq, core_setCore, if_pos rfl]

/-- What a completed word's core is replaced by, apart from time. -/
theorem still_setCore_finish (s : State) {k k' : Core} (h : stillCore k = stillCore k') :
    still (setCore (finish s) s.cur k) = still (setCore s s.cur k') := by
  rw [still_setCore_congr ((still_finish s).trans (congrArg still (completed_cx_eq s))) s.cur h, setCore_setCore]

theorem cx_of_sup {s : State} (h : onSup s = true) : cx s = (curCore s).sup := by
  unfold cx ctxOf
  rw [show (curCore s).supOn = true from h]
  rfl

theorem cx_of_user {s : State} (h : onSup s = false) : cx s = (curCore s).user := by
  unfold cx ctxOf
  rw [show (curCore s).supOn = false from h]
  rfl

theorem completedCore_of_sup {s : State} (h : onSup s = true) :
    completedCore s = { curCore s with issued := true, took := false, sup := (curCore s).sup.advance } := by
  have hs : (curCore s).supOn = true := h
  rw [completedCore, h, cx_of_sup h]
  simp [Core.put, Core.marked_, hs]

theorem uload_of_still {k k' : Core} (h : stillCore k = stillCore k') : k.uload = k'.uload := by
  have := congrArg Core.uload h; exact this
theorem killing_of_still {k k' : Core} (h : stillCore k = stillCore k') : k.killing = k'.killing := by
  have := congrArg Core.killing h; exact this

theorem still_send_congr (e : Event) {s t : State} (h : still s = still t) : still (send e s) = still (send e t) := congrArg (send e) h

/-! ## Kills (R340, R356) -/

theorem setCore_send (e : Event) (s : State) (c : Nat) (k : Core) : setCore (send e s) c k = send e (setCore s c k) := rfl

@[simp] theorem core_send (e : Event) (s : State) (c : Nat) : core (send e s) c = core s c := rfl

/-- The core of a user context whose kill is decided, and the event that follows. -/
theorem beginKill_of_loaded (c cause : Nat) (imp : Bool) (pc : Nat) (val : Word) {s : State} (hu : (core s c).uload = true)
    (hk : (core s c).killing = false) :
    beginKill c cause imp pc val s =
      send (.contextKill c (BitVec.ofNat 8 cause) (BitVec.ofNat 16 pc) val) (setCore s c { core s c with killing := true, killImp := imp }) := by
  simp [beginKill, hu, hk]

theorem markIdle_of_loaded (c : Nat) {s : State} (hu : (core s c).uload = true) : markIdle c s = s := by simp [markIdle, hu]

/-- A core whose user context's kill is decided by a precise cause. -/
def dyingCore (k : Core) : Core := { k with killing := true, killImp := false }

theorem stillCore_dyingCore (k : Core) : stillCore (dyingCore k) = dyingCore (stillCore k) := rfl

theorem killDecided_eq (s : State) (cause : BitVec 8) (pc : Nat) (val : Word) :
    killDecided s cause pc val =
      send (.contextKill s.cur cause (BitVec.ofNat 16 pc) val) (setCore s s.cur (dyingCore (curCore s))) := rfl

/-! ## TRAP with traps off, and double traps (R333, R336) -/

/-- The core of a user context that a trap holds, with traps off. -/
def heldCore (k : Core) : Core :=
  { k with fwd := none, fwdh := [], walkFail := none, user := { (k.user.abortTx 3).detach with pc := restart k.user, hint := .none, waiting := none } }

theorem stillCore_heldCore (k : Core) : stillCore (heldCore k) = heldCore (stillCore k) := by
  have hu : stillCtx (k.user.abortTx 3).detach = ((stillCtx k.user).abortTx 3).detach := by rw [stillCtx_detach, stillCtx_abortTx]
  simp only [heldCore, stillCore]
  rw [← hu]
  rfl

/-- A precise trap of a user context, with traps off. -/
theorem userTrap_of_off (c cause : Nat) (val : Word) (s : State) (h : (core s c).tvec % 2 = 0) :
    userTrap c cause false val s = beginKill c cause false (restart (core (settle c s) c).user) val (setCore s c (heldCore (core (settle c s) c))) := by
  have ht : (core (settle c s) c).tvec % 2 = 0 := by rw [tvec_of_still (stillCore_core_settle s c)]; exact h
  simp only [userTrap, if_pos ht, restart_eq_ite, restart_detach, restart_abortTx, setCore_settle]
  rfl

theorem restart_of_still {x y : Ctx} (h : stillCtx x = stillCtx y) : restart x = restart y := by
  have e : ∀ z : Ctx, restart z = restart (stillCtx z) := fun _ => rfl
  rw [e x, e y, h]

theorem core_homeWrite (s : State) (pa : Nat) (b : List Byte) (c : Nat) : core (homeWrite s pa b) c = core s c := by
  unfold homeWrite
  split <;> rfl

theorem core_logRecord (base pages rec_ : Nat) (s : State) (c : Nat) : core (logRecord base pages rec_ s) c = core s c := by
  unfold logRecord
  split
  · rfl
  · dsimp only
    split <;> simp only [homeWriteNat, core_homeWrite]

/-- The management log's record changes no core. -/
theorem core_mgmtLog (rec_ : Nat) (s : State) (c : Nat) : core (mgmtLog rec_ s) c = core s c := core_logRecord ..

@[simp] theorem settle_mgmt (c : Nat) (s : State) : (settle c s).mgmt = s.mgmt := by
  unfold settle
  split <;> rfl

@[simp] theorem markIdle_mgmt (c : Nat) (s : State) : (markIdle c s).mgmt = s.mgmt := by
  unfold markIdle
  dsimp only
  split <;> rfl

@[simp] theorem beginKill_mgmt (c cause : Nat) (imp : Bool) (pc : Nat) (val : Word) (s : State) : (beginKill c cause imp pc val s).mgmt = s.mgmt := by
  unfold beginKill
  dsimp only
  split <;> rfl

theorem core_markIdle (c : Nat) (s : State) : ∃ n, core (markIdle c s) c = { core s c with idleSince := n } := by
  unfold markIdle
  dsimp only
  split
  · exact ⟨_, rfl⟩
  · exact ⟨_, by rw [core_setCore, if_pos rfl]⟩

/-- A kill decides only that the loaded user context is being killed. -/
theorem core_beginKill (c cause : Nat) (imp : Bool) (pc : Nat) (val : Word) (s : State) :
    ∃ b b', core (beginKill c cause imp pc val s) c = { core s c with killing := b, killImp := b' } ∧ ((core s c).uload = true → b = true) := by
  unfold beginKill
  dsimp only
  split
  · next h =>
    refine ⟨(core s c).killing, (core s c).killImp, rfl, fun hu => ?_⟩
    simpa [hu] using h
  · exact ⟨true, imp, by rw [show core (send _ _) c = core (setCore s c _) c from rfl, core_setCore, if_pos rfl], fun _ => rfl⟩

/-- What a double trap leaves. -/
theorem core_doubleTrap (c cause pc : Nat) (s : State) :
    let t := doubleTrap c cause pc s
    (core t c).supOn = false ∧ (core t c).dead = true ∧ (core t c).repShadow = none ∧ t.mgmt.logNew = true ∧
      ((core s c).uload = true → (core t c).killing = true) := by
  intro t
  have ht : t = doubleTrap c cause pc s := rfl
  clear_value t
  unfold doubleTrap at ht
  dsimp only at ht
  generalize hl : mgmtLog _ s = l at ht
  have hu : (core (settle c l) c).uload = (core s c).uload := by
    rw [uload_of_still (stillCore_core_settle l c), ← hl, core_mgmtLog]
  have hn : l.mgmt.logNew = true := by rw [← hl]; rfl
  subst ht
  obtain ⟨b, b', hb, hkill⟩ := core_beginKill c 0x6C false pc
    (BitVec.ofNat 128 (cause + if (core s c).spend = true then fld ((core s c).stcause % 256) 8 + fld 1 16 else 0))
    (markIdle c (setCore (settle c l) c { core (settle c l) c with
      supOn := false, dead := true, repShadow := none, sup := { (core (settle c l) c).sup with hint := .none, waiting := none, reps := [] } }))
  obtain ⟨n, hm⟩ := core_markIdle c (setCore (settle c l) c { core (settle c l) c with
      supOn := false, dead := true, repShadow := none, sup := { (core (settle c l) c).sup with hint := .none, waiting := none, reps := [] } })
  rw [core_setCore, if_pos rfl] at hm
  rw [hm] at hb hkill
  rw [hb]
  refine ⟨rfl, rfl, rfl, ?_, fun h => ?_⟩
  · simpa using hn
  · exact hkill (hu.trans h)

/-- The cycle of a precise trap, apart from time. -/
theorem stillCore_core_spend (cause : Nat) (s : State) : stillCore (core (spend cause s) s.cur) = stillCore (curCore s) :=
  stillCore_core_spendFor s s.cur 1 s.cur (some cause) none none

/-- With traps off, a precise trap of the loaded user context decides its kill. -/
theorem completes_trapVal_off (cause : Nat) (val : Word) (s : State) (hu : onSup s = false) (hv : (curCore s).tvec % 2 = 0)
    (hl : (curCore s).uload = true) (hn : (curCore s).killing = false) :
    Completes (.next (trapVal cause val s))
      (killDecided (setCore s s.cur (heldCore (curCore s))) (BitVec.ofNat 8 cause) (restart (curCore s).user) val) := by
  have hk := stillCore_core_spend 8 s
  have hsup : (core (spend 8 s) s.cur).supOn = false := (supOn_of_still hk).trans hu
  have hv' : (core (spend 8 s) s.cur).tvec % 2 = 0 := by rw [tvec_of_still hk]; exact hv
  have hc := (stillCore_core_settle (spend 8 s) s.cur).trans hk
  have hr := restart_of_still (stillCtx_user hc)
  have hh : stillCore (heldCore (core (settle s.cur (spend 8 s)) s.cur)) = stillCore (heldCore (curCore s)) := by
    rw [stillCore_heldCore, hc, stillCore_heldCore]
  refine ⟨_, rfl, ?_⟩
  rw [trapVal, takeTrap, hsup, if_neg Bool.false_ne_true, userTrap_of_off _ _ _ _ hv', hr, beginKill_of_loaded, killDecided_eq]
  · refine still_send_congr _ (still_setCore_congr ?_ _ ?_)
    · exact still_setCore_spendFor s s.cur 1 s.cur (some 8) none none _ _ hh rfl
    · rw [core_setCore, if_pos rfl, curCore, setCore_cur, core_setCore, if_pos rfl]
      exact (congrArg dyingCore hh :)
  · rw [core_setCore, if_pos rfl]; exact (uload_of_still hh).trans hl
  · rw [core_setCore, if_pos rfl]; exact (killing_of_still hh).trans hn

/-- A trap of the supervisor with traps off, or while one is handled, is a double trap. -/
theorem supTrap_of_double (c cause : Nat) (val : Word) (s : State) (h : (core s c).spend = true ∨ (core s c).tvec % 2 = 0) :
    supTrap c cause false val s = doubleTrap c cause (restart (core s c).sup) s := by
  simp only [supTrap, if_pos h, restart_eq_ite, restart_abortTx]

/-- Settles O7: with traps off the user context's kill is decided, and a supervisor's trap is a double trap. -/
theorem trapsOffAndDoubleTraps : Obligations.TrapsOffAndDoubleTraps := by
  intro s a i
  refine ⟨completes_trapVal_off (0x80 + i.toNat) (rv s a) s, fun hs hd => ⟨_, rfl, ?_⟩⟩
  have hk := stillCore_core_spend 8 s
  have hsup : (core (spend 8 s) s.cur).supOn = true := (supOn_of_still hk).trans hs
  have hp : (core (spend 8 s) s.cur).spend = true ∨ (core (spend 8 s) s.cur).tvec % 2 = 0 := by
    rw [spend_of_still hk, tvec_of_still hk]; exact hd.symm
  have ht : trapVal (0x80 + i.toNat) (rv s a) s = doubleTrap s.cur (0x80 + i.toNat) (restart (core (spend 8 s) s.cur).sup) (spend 8 s) := by
    rw [trapVal, takeTrap, hsup, if_pos rfl, supTrap_of_double _ _ _ _ hp]
  obtain ⟨idle, dead, shadow, logged, killed⟩ := core_doubleTrap s.cur (0x80 + i.toNat) (restart (core (spend 8 s) s.cur).sup) (spend 8 s)
  rw [ht]
  exact ⟨idle, dead, shadow, logged, fun h => killed ((uload_of_still hk).trans h)⟩

/-! ## TRET (R338) -/

theorem exec_tret (s : State) :
    exec .tret s = if !(curCore s).uload then .next (trapWord 0x0B s) else .next (returnUser s.cur (finish s)) := rfl

theorem exec_tretS (s : State) :
    exec .tretS s = if !(curCore s).spend then .next (trapWord 0x0B s) else .next (returnSup s.cur (finish s)) := rfl

/-- A core whose user context goes on after its trap. -/
def returnedCore (k : Core) : Core :=
  { k with pendT := false, supOn := false, user := { k.user.recapture with pc := k.tpc, stale := [] } }

theorem stillCore_returnedCore (k : Core) : stillCore (returnedCore k) = returnedCore (stillCore k) := rfl

/-- A core whose supervisor goes on after its trap. -/
def returnedSupCore (k : Core) : Core :=
  { k with spend := false, repShadow := none, smapOld := none,
           sup := { k.sup with pc := k.stpc, stale := [], reps := (k.repShadow.getD []).map fun r => { r with body := [] } } }

theorem stillCore_returnedSupCore (k : Core) : stillCore (returnedSupCore k) = returnedSupCore (stillCore k) := rfl

theorem returnUser_eq (c : Nat) (s : State) : returnUser c s = setCore s c (returnedCore (core (settle c s) c)) := by
  simp only [returnUser, setCore_settle]
  rfl

theorem returnSup_eq (c : Nat) (s : State) : returnSup c s = setCore s c (returnedSupCore (core s c)) := rfl

/-- TRET with a user context loaded. -/
theorem completes_returnUser (s : State) : Completes (.next (returnUser s.cur (finish s))) (setCore s s.cur (returnedCore (completedCore s))) := by
  refine ⟨_, rfl, ?_⟩
  rw [returnUser_eq]
  refine still_setCore_finish s ?_
  rw [stillCore_returnedCore, stillCore_returnedCore, ← stillCore_core_finish, ← finish_cur s, stillCore_core_settle]

/-- TRET.s while a supervisor trap is handled. -/
theorem completes_returnSup (s : State) : Completes (.next (returnSup s.cur (finish s))) (setCore s s.cur (returnedSupCore (completedCore s))) := by
  refine ⟨_, rfl, ?_⟩
  rw [returnSup_eq]
  refine still_setCore_finish s ?_
  rw [stillCore_returnedSupCore, stillCore_returnedSupCore, ← stillCore_core_finish]

/-- The core whose supervisor becomes idle in killing the user context. -/
def retiredCore (k : Core) : Core := { k with pendT := false, supOn := false }

theorem stillCore_retiredCore (k : Core) : stillCore (retiredCore k) = retiredCore (stillCore k) := rfl

/-- TRET.k with a user context loaded that is not being killed. -/
theorem completes_tretK (s : State) (hs : onSup s = true) (hu : (curCore s).uload = true) (hk : (curCore s).killing = false) :
    Completes (exec .tretK s)
      (killDecided (setCore s s.cur (retiredCore (completedCore s))) 0x67 (curCore s).user.pc (BitVec.ofNat 128 (curCore s).tcause)) := by
  have hc := stillCore_core_finish s
  have hu' : (core (finish s) s.cur).uload = true := by
    rw [uload_of_still hc, completedCore_of_sup hs]; exact hu
  have hk' : (core (finish s) s.cur).killing = false := by
    rw [killing_of_still hc, completedCore_of_sup hs]; exact hk
  generalize hw : BitVec.ofNat 128 (curCore s).tcause = val
  generalize hp : (curCore s).user.pc = pc
  let b := beginKill s.cur 0x67 false pc val (finish s)
  have hx : exec .tretK s = .next (markIdle s.cur (setCore (settle s.cur b) s.cur (retiredCore (core (settle s.cur b) s.cur)))) := by
    subst hw hp
    exact if_neg (by rw [hu]; decide)
  have hb : b = send (.contextKill s.cur 0x67 (BitVec.ofNat 16 pc) val) (setCore (finish s) s.cur (dyingCore (core (finish s) s.cur))) :=
    beginKill_of_loaded _ _ _ _ _ hu' hk'
  have hcb : stillCore (core b s.cur) = stillCore (dyingCore (completedCore s)) := by
    rw [hb, core_send, core_setCore, if_pos rfl, stillCore_dyingCore, hc, stillCore_dyingCore]
  have hcs := (stillCore_core_settle b s.cur).trans hcb
  have hidle : (retiredCore (core (settle s.cur b) s.cur)).uload = true :=
    (uload_of_still hcs).trans (by rw [completedCore_of_sup hs]; exact hu)
  refine ⟨_, hx, ?_⟩
  rw [markIdle_of_loaded _ (by rw [core_setCore, if_pos rfl]; exact hidle), setCore_settle, killDecided_eq]
  generalize core (settle s.cur b) s.cur = k at hcs
  rw [hb, setCore_send, setCore_setCore, curCore, setCore_cur, core_setCore, if_pos rfl, setCore_setCore]
  refine still_send_congr _ (still_setCore_finish s ?_)
  rw [stillCore_retiredCore, hcs]
  rfl

/-- Settles O8: the three forms of TRET as completed words, and context misuse elsewhere. -/
theorem returnsFromTraps : Obligations.ReturnsFromTraps := by
  constructor
  · intro s hs k done
    have hd : completedCore s = done := completedCore_of_sup hs
    refine ⟨fun hu => ⟨?_, fun hk => ?_⟩, fun hp => ?_⟩
    · have hx : exec .tret s = .next (returnUser s.cur (finish s)) := if_neg (by rw [hu]; decide)
      have h := completes_returnUser s
      rw [← hx, hd] at h
      exact h
    · have h := completes_tretK s hs hu hk
      rw [hd] at h
      exact h
    · have hx : exec .tretS s = .next (returnSup s.cur (finish s)) := if_neg (by rw [hp]; decide)
      have h := completes_returnSup s
      rw [← hx, hd] at h
      exact h
  · intro s hs hv hp
    have misuse := (traps_trapWord 0x0B s hv).2 hs hp
    refine ⟨?_, fun hu => ⟨?_, ?_⟩⟩
    · have hx : exec .tretS s = .next (trapWord 0x0B s) := if_pos (by rw [hp]; rfl)
      rwa [hx]
    · have hx : exec .tret s = .next (trapWord 0x0B s) := if_pos (by rw [hu]; rfl)
      rwa [hx]
    · have hx : exec .tretK s = .next (trapWord 0x0B s) := if_pos (by rw [hu]; rfl)
      rwa [hx]

/-! ## Privilege (R141, R148) -/

theorem supervisorOnly_iff (o : Nat) :
    supervisorOnly o = true ↔ o ∈ [0x008, 0x00A, 0x00B, 0x0A6, 0x110, 0x111, 0x112, 0x113, 0x114, 0x115] := by
  simp only [supervisorOnly, Bool.or_eq_true, Bool.and_eq_true, decide_eq_true_eq, beq_iff_eq, List.mem_cons, List.not_mem_nil, or_false]
  omega

/-- A word that decodes in the supervisor context decodes in the user context alike, or to the privileged-instruction fault. -/
theorem decode_user_of_ok {nolorn : Bool} {h : Hint} {w : Nat} {i : Instr} (hd : decode nolorn false h w = .ok i) :
    decode nolorn true h w = if supervisorOnly (w / 2 ^ 22) then .privileged else .ok i := by
  unfold decode at hd ⊢
  dsimp only at hd ⊢
  split_ifs at hd ⊢ with ha hf hp
  all_goals
    cases hs : shape w with
    | none => simp [hs] at hd
    | some j =>
      simp only [hs] at hd ⊢
      split_ifs at hd ⊢ with hb
      all_goals simp_all

/-- The word in issue of the user context, with a trap of class 0. -/
theorem completes_trapWord_user (cause : Nat) (hc : causeClass cause = 0) (s : State) (hu : onSup s = false) (hv : (curCore s).tvec % 2 = 1) :
    Completes (.next (trapWord cause s)) (userTrapped s cause 0 (issuedWord s)) := by
  have h := (traps_trapWord cause s hv).1 hu
  rwa [hc] at h

theorem specialPrivileged_read : ∀ h ∈ supervisorReads, specialPrivileged false h.toNat = true :=
  List.all_eq_true.mp (by decide +kernel)

theorem specialPrivileged_write : ∀ h ∈ supervisorReads ++ supervisorWrites, specialPrivileged true h.toNat = true :=
  List.all_eq_true.mp (by decide +kernel)

theorem exec_srd_privileged (d : BitVec 6) {h : BitVec 16} {s : State} (hp : specialPrivileged false h.toNat = true) (hu : onSup s = false) :
    exec (.srd d h) s = .next (trapWord 0x03 s) := if_pos (by rw [hp, hu]; rfl)

theorem exec_swr_privileged (d : BitVec 6) {h : BitVec 16} {s : State} (hp : specialPrivileged true h.toNat = true) (hu : onSup s = false) :
    exec (.swr d h) s = .next (trapWord 0x03 s) := if_pos (by rw [hp, hu]; rfl)

/-- Settles O9: the decoder's last check, and that of SRD and SWR. -/
theorem privilege : Obligations.Privilege := by
  constructor
  · intro nolorn h w i hd
    rw [← supervisorOnly_iff, decode_user_of_ok hd]
    exact ⟨fun hs => if_pos hs, fun hs => if_neg hs⟩
  · intro s d h hu hv
    refine ⟨fun hr => ?_, fun hw => ?_⟩
    · rw [exec_srd_privileged d (specialPrivileged_read h hr) hu]
      exact completes_trapWord_user 0x03 rfl s hu hv
    · rw [exec_swr_privileged d (specialPrivileged_write h hw) hu]
      exact completes_trapWord_user 0x03 rfl s hu hv

/-! ## Words with an effect at the end of their cycle, apart from time -/

/-- The machine with the core in issue listed. -/
def listed (s : State) : State := setCore s s.cur (curCore s)

theorem still_spend (cause : Nat) (s : State) : still (spend cause s) = still (listed s) := still_wait cause s

theorem still_cur {s t : State} (h : still s = still t) : s.cur = t.cur := by
  have := congrArg State.cur h; exact this

theorem onSup_of_still {s t : State} (h : still s = still t) : onSup s = onSup t := by
  have hk := stillCore_core_of_still h s.cur
  rw [onSup, curCore, supOn_of_still hk, still_cur h]
  rfl

theorem stillCtx_cx_of_still {s t : State} (h : still s = still t) : stillCtx (cx s) = stillCtx (cx t) := by
  have hk := stillCore_core_of_still h s.cur
  have hs := onSup_of_still h
  have hc := still_cur h
  cases hb : onSup t with
  | true => rw [cx_of_sup (hs.trans hb), cx_of_sup hb, curCore, curCore, ← hc]; exact stillCtx_sup hk
  | false => rw [cx_of_user (hs.trans hb), cx_of_user hb, curCore, curCore, ← hc]; exact stillCtx_user hk

/-- Completing a word of a context, apart from time. -/
theorem still_completed {s t : State} (h : still s = still t) {x y : Ctx} (hx : stillCtx x = stillCtx y) : still (completed s x) = still (completed t y) := by
  have hk := stillCore_core_of_still h s.cur
  rw [completed, completed, markIssued_setCx, markIssued_setCx, ← still_cur h]
  refine still_setCore_congr h s.cur ?_
  rw [show (curCore t).supOn = (curCore s).supOn from (onSup_of_still h).symm]
  exact stillCore_marked (stillCore_put _ hk (stillCtx_advance hx))

theorem core_listed (s : State) (c : Nat) : core (listed s) c = core s c := by
  rw [listed, core_setCore]
  split
  · next h => rw [← h]; rfl
  · rfl

theorem cx_listed (s : State) : cx (listed s) = cx s := by
  unfold cx ctxOf curCore
  rw [core_listed]
  rfl

theorem completed_listed (s : State) (x : Ctx) : completed (listed s) x = completed s x := by
  rw [completed, completed, markIssued_setCx, markIssued_setCx, curCore, core_listed]
  simp only [listed, setCore_cur, setCore_setCore]
  rfl

/-- A word whose effect at the end of its cycle is `e`. -/
theorem completes_finishWith {f : State → State} {s e : State} (h : still (f (spend (issueCause (cx s)) s)) = still (listed e)) :
    Completes (.next (finishWith f s)) (completed e (cx e)) := by
  refine ⟨_, rfl, ?_⟩
  have hc := still_completed h (stillCtx_cx_of_still h)
  rw [cx_listed, completed_listed] at hc
  exact hc

theorem listed_setCore (s : State) (k : Core) : listed (setCore s s.cur k) = setCore s s.cur k := by
  rw [listed, curCore, setCore_cur, core_setCore, if_pos rfl, setCore_setCore]

theorem listed_setCx (s : State) (x : Ctx) : listed (setCx s x) = setCx s x := listed_setCore s _

theorem still_setCore_spend (cause : Nat) (s : State) {k k' : Core} (h : stillCore k = stillCore k') :
    still (setCore (spend cause s) s.cur k) = still (setCore s s.cur k') := still_setCore_spendFor s s.cur 1 s.cur (some cause) none none k k' h rfl

theorem still_setCx_spend (cause : Nat) (s : State) {x y : Ctx} (h : stillCtx x = stillCtx y) : still (setCx (spend cause s) x) = still (setCx s y) := by
  have hk := stillCore_core_spend cause s
  have hs : (curCore (spend cause s)).supOn = (curCore s).supOn := supOn_of_still hk
  rw [setCx, setCtxOf, setCx, setCtxOf, hs]
  exact still_setCore_spend cause s (stillCore_put _ hk h)

end Sys2Proof.Machine
end

section
/-! SUPPORT. SRD and SWR of every special register (R148 to R150). -/

namespace Sys2Proof.Machine

open Sys2Proof.Claims

/-! ## Special registers: reading (R148 to R150) -/

/-- The registers of `registerReads` that only the supervisor reads are marked so. -/
theorem privileged_of_registerReads (s : State) : ∀ p ∈ registerReads s, specialPrivileged false p.1.toNat = true → p.2.1 = true := by
  have h : (registerReads s).all (fun p => !specialPrivileged false p.1.toNat || p.2.1) = true := by rfl
  intro p hp hpr
  simpa [hpr] using List.all_eq_true.mp h p hp

theorem not_mem_takes_of_registerReads (s : State) : ∀ p ∈ registerReads s, p.1.toNat ≠ 0x231 ∧ p.1.toNat ≠ 0x312 := by
  have h : (registerReads s).all (fun p => p.1.toNat != 0x231 && p.1.toNat != 0x312) = true := by rfl
  intro p hp
  simpa using List.all_eq_true.mp h p hp

/-- Reading them changes nothing. -/
theorem specialTake_of_registerReads (s : State) {p : BitVec 16 × Bool × Nat} (hp : p ∈ registerReads s) : specialTake p.1.toNat s = s := by
  obtain ⟨h1, h2⟩ := not_mem_takes_of_registerReads s p hp
  rw [specialTake, if_neg h1, if_neg h2]

theorem tracedBank_eq (s : State) : tracedBank s = bwtBank s (cx s) := rfl

/-- %bwtc as the statement spells it. -/
theorem bwtc_eq (s : State) : bwtc s (cx s) = (cx s).dbg.bwtSlot + (match tracedBank s with
     | some g => let b := tget s.banks g {}; 256 * b2n b.traceOn + 512 + 65536 * b.trace.length + 2 ^ 32 * b.drops
     | none => 0) := by
  unfold bwtc
  rw [tracedBank_eq]
  cases bwtBank s (cx s) with
  | none => rfl
  | some g => simp only [bankAt, fld]; omega

theorem tstat_eq (k : Core) : tstat k = b2n k.pendT + 2 * b2n k.spend + 4 * b2n k.uload + 8 * b2n k.udisp + 16 * b2n k.user.tx.isSome +
    32 * b2n (match k.user.tx with | some g => g.abort != 0 | none => false) := by
  unfold tstat
  cases k.user.tx <;> simp only [fld] <;> omega

theorem dbgsts_eq (x : Ctx) : dbgsts x = x.dbg.reason + 16 * x.dbg.idx + 256 * b2n x.dbg.halted + 65536 * restart x := by
  rw [← restart_eq_ite, Bool.false_or]
  simp only [dbgsts, fld]
  omega

theorem lblst_eq (d : Debug) : lblst d = d.depth + 256 * b2n d.beyond + 512 * b2n d.under + 65536 * d.cur := by
  simp only [lblst, fld]
  omega

theorem lcs_eq (n : Nolorn) : lcs n = n.fuse + 8 * b2n n.unlk + 16 * (if n.unlk then 4 else n.fuse) + 256 * b2n n.wiped + 512 * b2n n.ext := by
  simp only [lcs, fld]
  omega

theorem bits_255_128 (x : BitVec 256) : bits x.toNat 255 128 = x.toNat / 2 ^ 128 := by
  unfold bits
  omega

/-- A half of a measurement register. -/
theorem specialRead_meas (s : State) (i : Nat) (hi : i < 8) :
    specialRead (0x304 + i) s = (tget s.nolorn.meas (i / 2) 0).toNat / 2 ^ (128 * (i % 2)) % 2 ^ 128 := by
  have h : specialRead (0x304 + i) s =
      if (0x304 + i - 0x304) % 2 = 0 then bits (tget s.nolorn.meas ((0x304 + i - 0x304) / 2) 0).toNat 127 0
      else bits (tget s.nolorn.meas ((0x304 + i - 0x304) / 2) 0).toNat 255 128 := by
    obtain rfl | rfl | rfl | rfl | rfl | rfl | rfl | rfl : i = 0 ∨ i = 1 ∨ i = 2 ∨ i = 3 ∨ i = 4 ∨ i = 5 ∨ i = 6 ∨ i = 7 := by omega
    all_goals rfl
  rw [h, Nat.add_sub_cancel_left]
  split
  · next he => rw [he]; rfl
  · next ho => rw [show i % 2 = 1 by omega]; rfl

/-- Each register reads as its content. -/
theorem specialRead_of_registerReads (s : State) : ∀ p ∈ registerReads s, specialRead p.1.toNat s = p.2.2 := by
  have none_left : ∀ p ∈ ([] : List (BitVec 16 × Bool × Nat)), specialRead p.1.toNat s = p.2.2 := List.forall_mem_nil _
  unfold registerReads
  simp only [List.forall_mem_append, List.forall_mem_cons, List.forall_mem_map, List.mem_range]
  refine ⟨⟨⟨⟨⟨⟨⟨⟨⟨rfl, rfl, rfl, rfl, rfl, rfl, rfl, rfl, rfl, rfl, rfl, rfl, rfl, rfl, rfl, rfl, rfl, ?_, rfl, rfl, none_left⟩,
    rfl, rfl, rfl, rfl, tstat_eq (curCore s), rfl, rfl, rfl, rfl, none_left⟩,
    rfl, dbgsts_eq (cx s), lblst_eq (cx s).dbg, rfl, rfl, rfl, rfl, rfl, bwtc_eq s, none_left⟩, ?_⟩, ?_⟩, ?_⟩, ?_⟩,
    lcs_eq s.nolorn, rfl, rfl, bits_255_128 s.nolorn.nonce, none_left⟩, ?_⟩
  case refine_1 => exact congrArg (b2n (curCore s).umap + ·) (Nat.mul_comm _ 2)
  case refine_6 =>
    intro j hj
    rw [BitVec.toNat_ofNat, Nat.mod_eq_of_lt (by omega)]
    exact specialRead_meas s j hj
  all_goals
    intro j hj
    interval_cases j <;> rfl

theorem exec_srd_allowed (d : BitVec 6) {h : BitVec 16} {s : State} (hs : specialPrivileged false h.toNat = true → onSup s = true)
    (h3 : h = 3 → rstoBusy (curCore s) = false) :
    exec (.srd d h) s = .next (finish (putNat d (specialRead h.toNat s) (specialTake h.toNat s))) := by
  have hp : ¬ ((specialPrivileged false h.toNat && !onSup s) = true) := by simpa using hs
  have hb : ¬ (h.toNat = 3 ∧ rstoBusy (curCore s) = true) := by
    rintro ⟨hn, hb⟩
    rw [h3 (BitVec.eq_of_toNat_eq hn)] at hb
    exact Bool.false_ne_true hb
  exact (if_neg hp).trans (if_neg hb)

theorem value_srd (d : BitVec 6) {h : BitVec 16} {s e : State} {v : Nat} (hs : specialPrivileged false h.toNat = true → onSup s = true)
    (h3 : h = 3 → rstoBusy (curCore s) = false) (hv : specialRead h.toNat s = v) (he : specialTake h.toNat s = e) :
    Value (exec (.srd d h) s) e d (BitVec.ofNat 128 v) := by
  rw [exec_srd_allowed d hs h3, hv, he]
  exact value_putWord d e rfl

theorem oldest_record (l : List (BitVec 64)) :
    (match l with | r :: _ => r.toNat + fld 1 64 | [] => 0) = match l with | r :: _ => 2 ^ 64 + r.toNat | [] => 0 := by
  cases l with
  | nil => rfl
  | cons r t => simp only [fld]; omega

/-- The oldest record that %bwtr reads. -/
theorem specialRead_bwtr (s : State) : specialRead 0x231 s =
    match tracedBank s with
    | some g => match (tget s.banks g {}).trace with | r :: _ => 2 ^ 64 + r.toNat | [] => 0
    | none => 0 := by
  rw [tracedBank_eq]
  have h : specialRead 0x231 s = match bwtBank s (cx s) with
    | some gb => match (bankAt s gb).trace with | r :: _ => r.toNat + fld 1 64 | [] => 0
    | none => 0 := rfl
  rw [h]
  cases bwtBank s (cx s) with
  | none => rfl
  | some g => exact oldest_record _

/-- %bwtr takes it. -/
theorem specialTake_bwtr (s : State) : specialTake 0x231 s =
    match tracedBank s with
    | some g => { s with banks := tset s.banks g { tget s.banks g {} with trace := (tget s.banks g {}).trace.tail } }
    | none => s := by
  rw [tracedBank_eq, specialTake, if_pos rfl]
  cases bwtBank s (cx s) with
  | none => rfl
  | some g => simp only [setBank, bankAt, List.drop_one]

theorem specialRead_nonce0 (s : State) : specialRead 0x312 s = (Config.nonce s.nolorn.draws : BitVec 256).toNat % 2 ^ 128 :=
  congrArg (· % 2 ^ 128) (Nat.div_one _)

theorem registerTakes_eq (s : State) : ∀ p ∈ registerTakes s,
    (specialPrivileged false p.1.toNat = true → p.2.1 = true) ∧ p.1 ≠ 3 ∧ specialRead p.1.toNat s = p.2.2.1 ∧ specialTake p.1.toNat s = p.2.2.2 := by
  unfold registerTakes
  simp only [List.forall_mem_cons]
  refine ⟨⟨fun h => absurd h (by decide), by decide, (specialRead_bwtr s).trans ?_, (specialTake_bwtr s).trans ?_⟩,
    ⟨fun _ => trivial, by decide, specialRead_nonce0 s, rfl⟩, List.forall_mem_nil _⟩
  all_goals cases tracedBank s <;> rfl

/-! ## Special registers: writing (R148 to R150) -/

/-- A value written to a special register: the machine it leaves, where the value is allowed. -/
def WritesSpecial (n v : Nat) (s : State) (ok : Bool) (e : State) : Prop :=
  (ok = true → (specialWrite n v s).isSome = true ∧
    ∀ cause, still ((specialWrite n v (spend cause s)).getD (spend cause s)) = still (listed e)) ∧
  (ok = false → specialWrite n v s = none)

/-- A register of the context in issue. -/
theorem writesSpecial_ctx {n v : Nat} {s : State} {ok : Bool} (g h : Ctx → Ctx)
    (hw : ∀ t, onSup t = onSup s → specialWrite n v t = if ok then some (setCx t (g (cx t))) else none)
    (hg : ∀ x, stillCtx (g x) = h (stillCtx x)) : WritesSpecial n v s ok (setCx s (g (cx s))) := by
  refine ⟨fun ho => ⟨by rw [hw s rfl, if_pos ho]; rfl, fun cause => ?_⟩, fun ho => by rw [hw s rfl, ho]; rfl⟩
  have hs : onSup (spend cause s) = onSup s := supOn_of_still (stillCore_core_spend cause s)
  rw [hw _ hs, if_pos ho, Option.getD_some, listed_setCx]
  exact still_setCx_spend cause s (by rw [hg, stillCtx_cx_spend, ← hg])

/-- A register of the core in issue. -/
theorem writesSpecial_core {n v : Nat} {s : State} {ok : Bool} (g h : Core → Core)
    (hw : ∀ t, stillCore (curCore t) = stillCore (curCore s) → t.cur = s.cur →
      specialWrite n v t = if ok then some (setCore t t.cur (g (curCore t))) else none)
    (hg : ∀ k, stillCore (g k) = h (stillCore k)) : WritesSpecial n v s ok (setCore s s.cur (g (curCore s))) := by
  refine ⟨fun ho => ⟨by rw [hw s rfl rfl, if_pos ho]; rfl, fun cause => ?_⟩, fun ho => by rw [hw s rfl rfl, ho]; rfl⟩
  have hk := stillCore_core_spend cause s
  rw [hw _ hk rfl, if_pos ho, Option.getD_some, listed_setCore]
  refine still_setCore_spend cause s ?_
  rw [hg, show stillCore (curCore (spend cause s)) = stillCore (curCore s) from hk, ← hg]

theorem bitAt_eq_testBit (x i : Nat) : bitAt x i = x.testBit i := by
  rw [bitAt, Nat.testBit_eq_decide_div_mod_eq, beq_eq_decide]

theorem within_eq (v mask : Nat) (r : State) : within v mask r = if (v &&& mask == v) = true then some r else none := by
  simp [within]

/-- A write that a further condition on the value precedes. -/
theorem within_guarded {p : Prop} [Decidable p] {ok : Bool} (v mask : Nat) (r : State) (h : p ↔ ok = false) :
    (if p then none else within v mask r) = if (v &&& mask == v && ok) = true then some r else none := by
  rw [within_eq]
  cases ok with
  | false => rw [if_pos (h.mpr rfl), Bool.and_false]; rfl
  | true => rw [if_neg (fun hp => Bool.noConfusion (h.mp hp)), Bool.and_true]

/-- A register of the context in issue, under a mask alone. -/
theorem writesSpecial_ctx_masked {n v : Nat} {s : State} {mask : Nat} (g : Ctx → Ctx)
    (hw : ∀ t, specialWrite n v t = within v mask (setCx t (g (cx t)))) (hg : ∀ x, stillCtx (g x) = g (stillCtx x)) :
    WritesSpecial n v s (v &&& mask == v) (setCx s (g (cx s))) :=
  writesSpecial_ctx g g (fun t _ => (hw t).trans (within_eq ..)) hg

/-- A register of the context in issue, under a mask and one further condition. -/
theorem writesSpecial_ctx_guarded {n v : Nat} {s : State} {mask : Nat} (g : Ctx → Ctx) {p : Prop} [Decidable p] {ok : Bool} (hp : p ↔ ok = false)
    (hw : ∀ t, specialWrite n v t = if p then none else within v mask (setCx t (g (cx t)))) (hg : ∀ x, stillCtx (g x) = g (stillCtx x)) :
    WritesSpecial n v s (v &&& mask == v && ok) (setCx s (g (cx s))) :=
  writesSpecial_ctx g g (fun t _ => (hw t).trans (within_guarded _ _ _ hp)) hg

/-- A register of the core in issue, under a mask alone. -/
theorem writesSpecial_core_masked {n v : Nat} {s : State} {mask : Nat} (g : Core → Core)
    (hw : ∀ t, specialWrite n v t = within v mask (setCore t t.cur (g (curCore t)))) (hg : ∀ k, stillCore (g k) = g (stillCore k)) :
    WritesSpecial n v s (v &&& mask == v) (setCore s s.cur (g (curCore s))) :=
  writesSpecial_core g g (fun t _ _ => (hw t).trans (within_eq ..)) hg

section
variable (s : State) (v : Nat)

theorem writesSpecial_dzt : WritesSpecial 0 v s (v &&& 1 == v) (setCx s { cx s with dzt := v.testBit 0 }) := by
  rw [← bitAt_eq_testBit]
  exact writesSpecial_ctx_masked (fun x => { x with dzt := bitAt v 0 }) (fun _ => rfl) fun _ => rfl

theorem writesSpecial_fmt : WritesSpecial 1 v s (v &&& 0x00FF1F1F == v && decide (v / 256 % 8 < 6) && packedFormat (v % 32))
    (setCx s { cx s with fmt := v }) := by
  rw [Bool.and_assoc]
  refine writesSpecial_ctx_guarded (fun x => { x with fmt := v }) ?_ (fun _ => rfl) fun _ => rfl
  by_cases h : v / 256 % 8 < 6
  · simp [bits, h]
  · simp [bits, h]
    omega

theorem writesSpecial_acsel :
    WritesSpecial 0x22 v s (v &&& 0x1FF == v && v / 128 % 4 != 3 && v / 32 % 4 != 3 && decide (v % 32 ≤ 27) && (v / 128 % 4 == 0 || onSup s))
      (setCx s { cx s with acsel := v }) := by
  rw [Bool.and_assoc, Bool.and_assoc, Bool.and_assoc]
  refine writesSpecial_ctx (fun x => { x with acsel := v }) (fun x => { x with acsel := v }) (fun t ht => within_guarded _ _ _ ?_) fun _ => rfl
  rw [ht]
  cases onSup s <;> simp [bits] <;> omega

/-- %dtctl written on a core. -/
def dtctlCore (v : Nat) (k : Core) : Core :=
  { (if bitAt v 1 = k.smap then k else { k with smapOld := some (k.smapOld.getD (k.smap, k.sup.dtab)) }) with smap := bitAt v 1, umap := bitAt v 0 }

theorem keepMap_eq (k : Core) : keepMap k = { k with smapOld := some (k.smapOld.getD (k.smap, k.sup.dtab)) } := by
  unfold keepMap
  cases k.smapOld <;> rfl

theorem dtctlCore_eq (v : Nat) (k : Core) :
    dtctlCore v k = { (if bitAt v 1 = k.smap then k else { keepMap k with smap := bitAt v 1 }) with umap := bitAt v 0 } := by
  rw [dtctlCore, keepMap_eq]
  by_cases h : bitAt v 1 = k.smap
  · rw [if_pos h, if_pos h, h]
  · rw [if_neg h, if_neg h]

theorem stillCore_dtctlCore (v : Nat) (k : Core) : stillCore (dtctlCore v k) = dtctlCore v (stillCore k) := by
  unfold dtctlCore
  by_cases h : bitAt v 1 = k.smap
  · rw [if_pos h, if_pos (show bitAt v 1 = (stillCore k).smap from h)]
    rfl
  · rw [if_neg h, if_neg (show ¬ bitAt v 1 = (stillCore k).smap from h)]
    rfl

theorem writesSpecial_dtctl : WritesSpecial 0x30 v s (v &&& 3 == v) (setCore s s.cur (dtctlCore v (curCore s))) :=
  writesSpecial_core_masked (dtctlCore v) (fun t => by rw [dtctlCore_eq]; rfl) (stillCore_dtctlCore v)

/-- A decode table with the entry that %dtidx addresses written. -/
def dtentTable (nol : Bool) (v o : Nat) (t : AList (BitVec 16)) : AList (BitVec 16) :=
  if v = map0Entry nol o then tdel t o else tset t o (BitVec.ofNat 16 v)

/-- %dtent written on a core. -/
def dtentCore (nol : Bool) (v : Nat) (k : Core) : Core :=
  let o := k.dtidx % 1024
  if bitAt k.dtidx 10 then
    { k with smapOld := some (k.smapOld.getD (k.smap, k.sup.dtab)), sup := { k.sup with dtab := dtentTable nol v o k.sup.dtab }
             dtidx := k.dtidx / 1024 * 1024 + (o + 1) % 1024 }
  else { k with user := { k.user with dtab := dtentTable nol v o k.user.dtab }, dtidx := k.dtidx / 1024 * 1024 + (o + 1) % 1024 }

theorem stillCore_dtentCore (nol : Bool) (v : Nat) (k : Core) : stillCore (dtentCore nol v k) = dtentCore nol v (stillCore k) := by
  unfold dtentCore
  cases h : bitAt k.dtidx 10
  · rw [if_neg Bool.false_ne_true, show bitAt (stillCore k).dtidx 10 = false from h, if_neg Bool.false_ne_true]
    rfl
  · rw [if_pos rfl, show bitAt (stillCore k).dtidx 10 = true from h, if_pos rfl]
    rfl

/-- Whether %dtent takes a value while %dtidx addresses an entry. -/
def dtentAllowed (nol : Bool) (v i : Nat) : Bool :=
  decide (v < 2 ^ 16) && v / 1024 % 32 == 0 &&
    !((i % 1024 == 0 || i % 1024 == 0x3FF || (bitAt i 10 && decide (i % 1024 < 16))) && v != map0Entry nol (i % 1024))

theorem not_dtentAllowed (nol : Bool) (v i : Nat) :
    (bits v 14 10 ≠ 0 ∨ 2 ^ 16 ≤ v ∨
      (i % 1024 == 0 || i % 1024 == 0x3FF || (bitAt i 10 && decide (i % 1024 < 16))) = true ∧ v ≠ map0Entry nol (i % 1024)) ↔
    dtentAllowed nol v i = false := by
  unfold dtentAllowed
  generalize (i % 1024 == 0 || i % 1024 == 0x3FF || (bitAt i 10 && decide (i % 1024 < 16))) = fixed
  rw [show bits v 14 10 = v / 1024 % 32 from rfl]
  simp only [Bool.and_eq_false_iff, decide_eq_false_iff_not, Nat.not_lt, beq_eq_false_iff_ne, Bool.not_eq_false', Bool.and_eq_true, bne_iff_ne]
  tauto

theorem dtentCore_eq (nol : Bool) (v : Nat) (k : Core) :
    dtentCore nol v k =
      let k' := if bitAt k.dtidx 10 then { keepMap k with sup := { k.sup with dtab := dtentTable nol v (k.dtidx % 1024) k.sup.dtab } }
        else { k with user := { k.user with dtab := dtentTable nol v (k.dtidx % 1024) k.user.dtab } }
      { k' with dtidx := k'.dtidx / 1024 * 1024 + (k.dtidx % 1024 + 1) % 1024 } := by
  rw [dtentCore, keepMap_eq]
  cases bitAt k.dtidx 10 <;> rfl

theorem writeDtent_eq (s : State) : writeDtent v s =
    if dtentAllowed (s.cur == nolornCore) v (curCore s).dtidx = true then some (setCore s s.cur (dtentCore (s.cur == nolornCore) v (curCore s)))
    else none := by
  rw [dtentCore_eq]
  cases ha : dtentAllowed (s.cur == nolornCore) v (curCore s).dtidx with
  | false => exact if_pos ((not_dtentAllowed ..).mpr ha)
  | true => exact if_neg fun h => Bool.noConfusion (ha.symm.trans ((not_dtentAllowed ..).mp h))

theorem writesSpecial_dtent :
    WritesSpecial 0x32 v s (dtentAllowed (s.cur == nolornCore) v (curCore s).dtidx) (setCore s s.cur (dtentCore (s.cur == nolornCore) v (curCore s))) := by
  refine writesSpecial_core (dtentCore (s.cur == nolornCore) v) (dtentCore (s.cur == nolornCore) v) (fun t hk hc => ?_) (stillCore_dtentCore _ v)
  have hi : (curCore t).dtidx = (curCore s).dtidx := by
    have := congrArg Core.dtidx hk; exact this
  rw [← hc, ← hi]
  exact (show specialWrite 0x32 v t = writeDtent v t by simp [specialWrite, readOnly]).trans (writeDtent_eq v t)

/-! The debug registers. -/

theorem writesSpecial_debug {n mask : Nat} (f : Debug → Debug) (hw : ∀ t, specialWrite n v t = within v mask (onDebug f t))
    (hf : ∀ d : Debug, (f d).quiet = f d.quiet) : WritesSpecial n v s (v &&& mask == v) (setCx s { cx s with dbg := f (cx s).dbg }) :=
  writesSpecial_ctx_masked (fun x => { x with dbg := f x.dbg }) hw fun x => by
    simp only [stillCtx_quiet, hf]

theorem writesSpecial_debug_guarded {n mask : Nat} (f : Debug → Debug) {p : Prop} [Decidable p] {ok : Bool} (hp : p ↔ ok = false)
    (hw : ∀ t, specialWrite n v t = if p then none else within v mask (onDebug f t))
    (hf : ∀ d : Debug, (f d).quiet = f d.quiet) : WritesSpecial n v s (v &&& mask == v && ok) (setCx s { cx s with dbg := f (cx s).dbg }) :=
  writesSpecial_ctx_guarded (fun x => { x with dbg := f x.dbg }) hp hw fun x => by
    simp only [stillCtx_quiet, hf]

theorem writesSpecial_brkh : WritesSpecial 0x200 v s (v &&& 1 == v) (setCx s { cx s with dbg := { (cx s).dbg with brkh := v.testBit 0 } }) := by
  rw [← bitAt_eq_testBit]
  exact writesSpecial_debug s v (fun d => { d with brkh := bitAt v 0 }) (fun _ => rfl) fun _ => rfl

theorem writesSpecial_lblst :
    WritesSpecial 0x202 v s (v &&& 0xFFFF03FF == v) (setCx s { cx s with dbg := { (cx s).dbg with beyond := v.testBit 8, under := v.testBit 9 } }) := by
  rw [← bitAt_eq_testBit, ← bitAt_eq_testBit]
  exact writesSpecial_debug s v (fun d => { d with beyond := bitAt v 8, under := bitAt v 9 }) (fun _ => rfl) fun _ => rfl

/-- %trctl, whose CAP bit time changes. -/
theorem writesSpecial_trctl : WritesSpecial 0x210 v s (v &&& 0xFFFFFFFF007F == v && v / 32 % 4 != 3)
    (setCx s { cx s with dbg := { (cx s).dbg with trctl := setBits v 1 1 (if v.testBit 0 then 0 else (cx s).dbg.trctl / 2 % 2) } }) := by
  rw [← bitAt_eq_testBit]
  refine writesSpecial_ctx (fun x => { x with dbg := { x.dbg with trctl := setBits v 1 1 (if bitAt v 0 then 0 else bits x.dbg.trctl 1 1) } })
    (fun x => { x with dbg := { x.dbg with trctl := setBits v 1 1 0 } }) (fun t _ => ?_) fun x => ?_
  · exact within_guarded v _ _ (by simp [bits])
  · simp only [stillCtx, bit1_set]

theorem writesSpecial_trstart : WritesSpecial 0x211 v s (v &&& 0xFFFF0007 == v && decide (v % 8 < 6))
    (setCx s { cx s with dbg := { (cx s).dbg with trstart := v } }) :=
  writesSpecial_debug_guarded s v (fun d => { d with trstart := v }) (by simp) (fun _ => rfl) fun _ => rfl

theorem writesSpecial_trstop : WritesSpecial 0x212 v s (v &&& 0xFFFF0007 == v && decide (v % 8 < 6))
    (setCx s { cx s with dbg := { (cx s).dbg with trstop := v } }) :=
  writesSpecial_debug_guarded s v (fun d => { d with trstop := v }) (by simp) (fun _ => rfl) fun _ => rfl

theorem writesSpecial_trdrop : WritesSpecial 0x213 v s true (setCx s { cx s with dbg := { (cx s).dbg with trdrop := 0 } }) :=
  writesSpecial_ctx (fun x => { x with dbg := { x.dbg with trdrop := 0 } }) (fun x => { x with dbg := { x.dbg with trdrop := 0 } })
    (fun _ _ => rfl) fun _ => rfl

theorem writesSpecial_trbuf :
    WritesSpecial 0x214 v s (v &&& 0xF3FFFFFFFFF000 == v && v / 4096 % 2 ^ 38 * 4096 % 2 ^ (v / 2 ^ 52 % 16 + 12) == 0)
      (setCx s { cx s with dbg := { (cx s).dbg with trbuf := v } }) :=
  writesSpecial_debug_guarded s v (fun d => { d with trbuf := v }) (p := (bits v 49 12 * 4096) % 2 ^ (bits v 55 52 + 12) ≠ 0) (by simp [bits])
    (fun _ => rfl) fun _ => rfl

theorem writesSpecial_ibp {i : Nat} (hi : i < 4) : WritesSpecial (0x204 + i) v s (v &&& 0x3FFFC == v && v / 65536 % 4 != 3)
    (setCx s { cx s with dbg := { (cx s).dbg with ibp := tset (cx s).dbg.ibp i v } }) := by
  refine writesSpecial_debug_guarded s v (fun d => { d with ibp := tset d.ibp i v }) (p := bits v 17 16 = 3) (by simp [bits]) (fun _ => ?_) fun _ => rfl
  interval_cases i <;> rfl

theorem writesSpecial_wpa {i : Nat} (hi : i < 4) : WritesSpecial (0x208 + i) v s (v &&& (2 ^ 57 - 1) == v && v / 2 ^ 55 % 4 != 3)
    (setCx s { cx s with dbg := { (cx s).dbg with wpa := tset (cx s).dbg.wpa i v } }) := by
  refine writesSpecial_debug_guarded s v (fun d => { d with wpa := tset d.wpa i v }) (p := bits v 56 55 = 3) (by simp [bits]) (fun _ => ?_) fun _ => rfl
  interval_cases i <;> rfl

theorem writesSpecial_wpm {i : Nat} (hi : i < 4) : WritesSpecial (0x20C + i) v s (v &&& (2 ^ 52 - 1) == v)
    (setCx s { cx s with dbg := { (cx s).dbg with wpm := tset (cx s).dbg.wpm i v } }) := by
  refine writesSpecial_debug s v (fun d => { d with wpm := tset d.wpm i v }) (fun _ => ?_) fun _ => rfl
  interval_cases i <;> rfl

/-! The trap registers. -/

theorem writesSpecial_core_any {n : Nat} (g : Core → Core) (hw : ∀ t, specialWrite n v t = some (setCore t t.cur (g (curCore t))))
    (hg : ∀ k, stillCore (g k) = g (stillCore k)) : WritesSpecial n v s true (setCore s s.cur (g (curCore s))) :=
  writesSpecial_core g g (fun t _ _ => (hw t).trans (if_pos rfl).symm) hg

/-! The Nolorn core's registers. -/

theorem specialWrite_lcs (s : State) : specialWrite 0x300 v s =
    if (v &&& 0x37F == v && (decide (s.nolorn.fuse < v % 8) && (v % 8 != 4 && (v % 8 != 5 && v % 8 != 6)))) = true then
      some (send .fuseBlowDone { s with nolorn := { s.nolorn with blowing := s.nolorn.blowing ++ [(v % 8, s.elapsed + 100000)] } })
    else none := by
  have h : specialWrite 0x300 v s = writeLcs v s := by simp [specialWrite, readOnly]
  rw [h]
  refine within_guarded v 0x37F _ ?_
  simp only [Bool.and_eq_false_iff, decide_eq_false_iff_not, bne_eq_false_iff_eq]
  omega

theorem writesSpecial_lcs : WritesSpecial 0x300 v s
    (v &&& 0x37F == v && decide (s.nolorn.fuse < v % 8) && v % 8 != 4 && v % 8 != 5 && v % 8 != 6)
    { s with nolorn := { s.nolorn with blowing := s.nolorn.blowing ++ [(v % 8, s.elapsed + 1 + 100000)] }, flight := s.flight ++ [.fuseBlowDone] } := by
  rw [Bool.and_assoc, Bool.and_assoc, Bool.and_assoc]
  refine ⟨fun ho => ⟨by rw [specialWrite_lcs, if_pos ho]; rfl, fun cause => ?_⟩, fun ho => by rw [specialWrite_lcs, ho]; rfl⟩
  rw [specialWrite_lcs, spend_nolorn, if_pos ho, Option.getD_some]
  exact congrArg (fun u : State => send .fuseBlowDone { u with nolorn := { s.nolorn with blowing := s.nolorn.blowing ++ [(v % 8, s.elapsed + 1 + 100000)] } })
    (still_spend cause s)

theorem specialWrite_dbgopen (s : State) : specialWrite 0x310 v s =
    if (v == 1 && (s.nolorn.fuse == 2 || s.nolorn.fuse == 3) && s.nolorn.wiped && s.nolorn.ext) = true then
      some { s with nolorn := { s.nolorn with unlk := true } } else none := by
  have h : specialWrite 0x310 v s = writeDbgopen v s := by simp [specialWrite, readOnly]
  rw [h]
  refine if_congr ?_ rfl rfl
  simp [and_assoc]

theorem writesSpecial_dbgopen : WritesSpecial 0x310 v s (v == 1 && (s.nolorn.fuse == 2 || s.nolorn.fuse == 3) && s.nolorn.wiped && s.nolorn.ext)
    { s with nolorn := { s.nolorn with unlk := true } } := by
  refine ⟨fun ho => ⟨by rw [specialWrite_dbgopen, if_pos ho]; rfl, fun cause => ?_⟩, fun ho => by rw [specialWrite_dbgopen, ho]; rfl⟩
  rw [specialWrite_dbgopen, spend_nolorn, if_pos ho, Option.getD_some]
  exact congrArg (fun u : State => { u with nolorn := { s.nolorn with unlk := true } }) (still_spend cause s)

/-! The write trace ring's register. -/

/-- The machine with the slot of %bwtc set. -/
def slotSet (s : State) : State := setCx s { cx s with dbg := { (cx s).dbg with bwtSlot := v % 64 } }

theorem slotSet_spend (cause : Nat) : still (slotSet v (spend cause s)) = still (listed (slotSet v s)) := by
  unfold slotSet
  rw [listed_setCx]
  refine still_setCx_spend cause s ?_
  have h : ∀ x : Ctx, stillCtx { x with dbg := { x.dbg with bwtSlot := v % 64 } } = { stillCtx x with dbg := { (stillCtx x).dbg with bwtSlot := v % 64 } } :=
    fun _ => rfl
  rw [h, h, stillCtx_cx_spend]

/-- The ring of %bwtc's slot, where it has one, set to trace or not. -/
def ringSet (on : Bool) (s : State) : State :=
  match tracedBank s with
  | some g => setBank s g { bankAt s g with traceOn := on }
  | none => s

theorem specialWrite_bwtc (hv : v < 2 ^ 128) (s : State) : specialWrite 0x230 v s =
    if (v / 64 % 4 == 0 && v / 1024 % 64 == 0 && v / 2 ^ 23 % 512 == 0 && decide (v < 2 ^ 64) && ((tracedBank (slotSet v s)).isSome || !bitAt v 8)) = true
    then some (ringSet (bitAt v 8) (slotSet v s))
    else none := by
  have h : specialWrite 0x230 v s = writeBwtc v s := by simp [specialWrite, readOnly, writeDebug]
  have hb : (bits v 127 64 ≠ 0 ∨ bits v 31 23 ≠ 0 ∨ bits v 15 10 ≠ 0 ∨ bits v 7 6 ≠ 0) ↔
      (v / 64 % 4 == 0 && v / 1024 % 64 == 0 && v / 2 ^ 23 % 512 == 0 && decide (v < 2 ^ 64)) = false := by
    simp only [Bool.and_eq_false_iff, decide_eq_false_iff_not, beq_eq_false_iff_ne, bits]
    omega
  rw [h]
  generalize hq : (v / 64 % 4 == 0 && v / 1024 % 64 == 0 && v / 2 ^ 23 % 512 == 0 && decide (v < 2 ^ 64)) = q at hb
  unfold writeBwtc
  dsimp only
  rw [show onDebug (fun d => { d with bwtSlot := v % 64 }) s = slotSet v s from rfl, ← tracedBank_eq]
  cases q with
  | false => rw [if_pos (hb.mpr rfl)]; simp
  | true =>
    rw [if_neg (fun hp => Bool.noConfusion (hb.mp hp))]
    unfold ringSet
    cases tracedBank (slotSet v s) with
    | none => cases bitAt v 8 <;> rfl
    | some g => rfl

theorem tracedBank_of_still {s t : State} (h : still s = still t) : tracedBank s = tracedBank t := by
  have hx := stillCtx_cx_of_still h
  have ha : (cx s).attach = (cx t).attach := by have := congrArg Ctx.attach hx; exact this
  have hs : (cx s).dbg.bwtSlot = (cx t).dbg.bwtSlot := by have := congrArg (fun x : Ctx => x.dbg.bwtSlot) hx; exact this
  unfold tracedBank
  rw [ha, hs, still_cur h]

theorem tracedBank_listed (s : State) : tracedBank (listed s) = tracedBank s := by
  unfold tracedBank
  rw [cx_listed]
  rfl

theorem still_banks {s t : State} (h : still s = still t) : s.banks = t.banks := by
  have := congrArg State.banks h; exact this

theorem still_ringSet (on : Bool) {s t : State} (h : still s = still t) : still (ringSet on s) = still (ringSet on t) := by
  unfold ringSet
  rw [tracedBank_of_still h]
  cases tracedBank t with
  | none => exact h
  | some g =>
    have hb : bankAt s g = bankAt t g := by unfold bankAt; rw [still_banks h]
    show still (setBank s g { bankAt s g with traceOn := on }) = _
    generalize bankAt s g = b at hb
    subst hb
    exact congrArg (fun u : State => setBank u g { bankAt t g with traceOn := on }) h

theorem listed_ringSet (on : Bool) (s : State) : listed (ringSet on s) = ringSet on (listed s) := by
  unfold ringSet
  rw [tracedBank_listed]
  cases tracedBank s <;> rfl

theorem writesSpecial_bwtc (hv : v < 2 ^ 128) : WritesSpecial 0x230 v s
    (v / 64 % 4 == 0 && v / 1024 % 64 == 0 && v / 2 ^ 23 % 512 == 0 && decide (v < 2 ^ 64) && ((tracedBank (slotSet v s)).isSome || !bitAt v 8))
    (ringSet (bitAt v 8) (slotSet v s)) := by
  refine ⟨fun ho => ⟨by rw [specialWrite_bwtc v hv, if_pos ho]; rfl, fun cause => ?_⟩, fun ho => by rw [specialWrite_bwtc v hv, ho]; rfl⟩
  have hs := slotSet_spend s v cause
  rw [specialWrite_bwtc v hv, tracedBank_of_still hs, tracedBank_listed, if_pos ho, Option.getD_some, listed_ringSet]
  exact still_ringSet _ hs

end

/-! ### The statement -/

theorem readOnly_of_readOnlyRegisters : ∀ h ∈ readOnlyRegisters, readOnly h.toNat = true := List.all_eq_true.mp (by decide +kernel)

theorem privileged_of_readOnlyRegisters : ∀ h ∈ readOnlyRegisters, specialPrivileged true h.toNat = true → decide (h ∈ supervisorReads) = true := by
  have h : readOnlyRegisters.all (fun h => !specialPrivileged true h.toNat || decide (h ∈ supervisorReads)) = true := by decide +kernel
  intro p hp hpr
  simpa [hpr] using List.all_eq_true.mp h p hp

theorem writesSpecial_of_readOnly {n v : Nat} {s : State} (h : readOnly n = true) : WritesSpecial n v s false s :=
  ⟨fun h => absurd h Bool.false_ne_true, fun _ => if_pos h⟩

theorem privileged_of_registerWrites (s : State) (v : Nat) : ∀ p ∈ registerWrites s v, specialPrivileged true p.1.toNat = true → p.2.1 = true := by
  have h : (registerWrites s v).all (fun p => !specialPrivileged true p.1.toNat || p.2.1) = true := by rfl
  intro p hp hpr
  simpa [hpr] using List.all_eq_true.mp h p hp

/-- Every register takes the values of its field map. -/
theorem writesSpecial_of_registerWrites (s : State) (v : Nat) (hv : v < 2 ^ 128) :
    ∀ p ∈ registerWrites s v, WritesSpecial p.1.toNat v s p.2.2.1 p.2.2.2 := by
  have none_left : ∀ p ∈ ([] : List (BitVec 16 × Bool × Bool × State)), WritesSpecial p.1.toNat v s p.2.2.1 p.2.2.2 := List.forall_mem_nil _
  unfold registerWrites
  simp only [List.forall_mem_append, List.forall_mem_cons, List.forall_mem_map, List.mem_range]
  refine ⟨⟨⟨⟨⟨⟨⟨writesSpecial_dzt s v, writesSpecial_fmt s v, ?fexc, ?rseed, writesSpecial_acsel s v, ?dtctl, ?dtidx, ?dtent, none_left⟩,
    ?tvec, ?tcause, ?tpc, ?tval, ?stcause, ?stpc, ?stval, ?tlim, writesSpecial_brkh s v, writesSpecial_lblst s v, writesSpecial_trctl s v,
    writesSpecial_trstart s v, writesSpecial_trstop s v, writesSpecial_trdrop s v, writesSpecial_trbuf s v, ?bwtc, none_left⟩, ?ibp⟩, ?wpa⟩, ?wpm⟩,
    writesSpecial_lcs s v, writesSpecial_dbgopen s v, none_left⟩, ?readOnly⟩
  case fexc => exact writesSpecial_ctx_masked (fun x => { x with fexc := v }) (fun _ => rfl) fun _ => rfl
  case rseed => exact writesSpecial_core_masked (fun k => { k with rseed := if v = 0 then 1 else BitVec.ofNat 32 v }) (fun _ => rfl) fun _ => rfl
  case dtctl =>
    rw [← bitAt_eq_testBit, ← bitAt_eq_testBit]
    exact writesSpecial_dtctl s v
  case dtidx => exact writesSpecial_core_masked (fun k => { k with dtidx := v }) (fun _ => rfl) fun _ => rfl
  case dtent =>
    have h := writesSpecial_dtent s v
    rw [← bitAt_eq_testBit]
    unfold dtentCore at h
    rw [apply_ite (setCore s s.cur)] at h
    exact h
  case tvec => exact writesSpecial_core_masked (fun k => { k with tvec := v }) (fun _ => rfl) fun _ => rfl
  case tcause => exact writesSpecial_core_masked (fun k => { k with tcause := v }) (fun _ => rfl) fun _ => rfl
  case tpc => exact writesSpecial_core_masked (fun k => { k with tpc := v }) (fun _ => rfl) fun _ => rfl
  case tval => exact writesSpecial_core_any s v (fun k => { k with tval := BitVec.ofNat 128 v }) (fun _ => rfl) fun _ => rfl
  case stcause => exact writesSpecial_core_masked (fun k => { k with stcause := v }) (fun _ => rfl) fun _ => rfl
  case stpc => exact writesSpecial_core_masked (fun k => { k with stpc := v }) (fun _ => rfl) fun _ => rfl
  case stval => exact writesSpecial_core_any s v (fun k => { k with stval := BitVec.ofNat 128 v }) (fun _ => rfl) fun _ => rfl
  case tlim => exact writesSpecial_core_masked (fun k => { k with tlim := v }) (fun _ => rfl) fun _ => rfl
  case bwtc =>
    have h := writesSpecial_bwtc s v hv
    rw [← bitAt_eq_testBit]
    unfold ringSet at h
    exact h
  case ibp =>
    intro i hi
    rw [BitVec.toNat_ofNat, Nat.mod_eq_of_lt (by omega)]
    exact writesSpecial_ibp s v hi
  case wpa =>
    intro i hi
    rw [BitVec.toNat_ofNat, Nat.mod_eq_of_lt (by omega)]
    exact writesSpecial_wpa s v hi
  case wpm =>
    intro i hi
    rw [BitVec.toNat_ofNat, Nat.mod_eq_of_lt (by omega)]
    exact writesSpecial_wpm s v hi
  case readOnly =>
    intro h hh
    exact writesSpecial_of_readOnly (readOnly_of_readOnlyRegisters h hh)

theorem exec_swr_allowed (d : BitVec 6) {h : BitVec 16} {s : State} (hs : specialPrivileged true h.toNat = true → onSup s = true)
    (h3 : h = 3 → rstoBusy (curCore s) = false) :
    exec (.swr d h) s = match specialWrite h.toNat (rn s d) s with
      | some _ => .next (finishWith (fun t => (specialWrite h.toNat (rn s d) t).getD t) s)
      | none => .next (trapWord 0x04 s) := by
  have hp : ¬ ((specialPrivileged true h.toNat && !onSup s) = true) := by simpa using hs
  have hb : ¬ (h.toNat = 3 ∧ rstoBusy (curCore s) = true) := by
    rintro ⟨hn, hb⟩
    rw [h3 (BitVec.eq_of_toNat_eq hn)] at hb
    exact Bool.false_ne_true hb
  exact (if_neg hp).trans (if_neg hb)

/-- Settles O10: the reads by their contents, the writes register by register. -/
theorem specialRegisters : Obligations.SpecialRegisters := by
  refine ⟨fun s d p hp hs _ h3 => ?_, fun s d p hp hs _ => ?_, fun s d p hp hs _ h3 => ?_⟩
  · exact value_srd d (fun h => hs (privileged_of_registerReads s p hp h)) h3 (specialRead_of_registerReads s p hp)
      (specialTake_of_registerReads s hp)
  · obtain ⟨priv, seed, value, after⟩ := registerTakes_eq s p hp
    exact value_srd d (fun h => hs (priv h)) (fun h => absurd h seed) value after
  · have hw := writesSpecial_of_registerWrites s (rv s d).toNat (rv s d).isLt p hp
    rw [exec_swr_allowed d (fun h => hs (privileged_of_registerWrites s _ p hp h)) h3]
    refine ⟨fun ho => ?_, fun ho hv => ?_⟩
    · obtain ⟨some_written, after⟩ := hw.1 ho
      obtain ⟨t, ht⟩ := Option.isSome_iff_exists.mp some_written
      rw [show rn s d = (rv s d).toNat from rfl, ht]
      exact completes_finishWith (after _)
    · rw [show rn s d = (rv s d).toNat from rfl, hw.2 ho]
      exact traps_trapWord 0x04 s hv

end Sys2Proof.Machine
end

section
/-! SUPPORT. REP, the label stack, EXIT and JOIN (R128, R179 to R182, R315, R368). -/

namespace Sys2Proof.Machine

open Sys2Proof.Claims

/-! ## REP (R180, R182) -/

/-- The context after a REP: into its first pass, or past a body that it skips. -/
def repCtx (x : Ctx) (len stride count : Nat) : Ctx :=
  if count = 0 then
    { x with pc := (repAdvance ((x.pc + 4 + 4 * len) % 65536) x.reps).1, reps := (repAdvance ((x.pc + 4 + 4 * len) % 65536) x.reps).2 }
  else { x with pc := (x.pc + 4) % 65536, reps := { start := (x.pc + 4) % 65536, n := len, stride := stride, count := count } :: x.reps }

theorem stillCtx_repCtx (x : Ctx) (len stride count : Nat) : stillCtx (repCtx x len stride count) = repCtx (stillCtx x) len stride count := by
  unfold repCtx
  split <;> rfl

/-- Whether a body may not be repeated at `pc`. -/
def badBody (s : State) (len : Nat) : Bool :=
  endsBody (bodyOpcode s (((cx s).pc + 4 * len) % 65536)) || beyondOuter (cx s).pc len (cx s).reps

/-- The count of a REP. -/
def repCount (d : BitVec 6) (c : BitVec 8) (s : State) : Nat := if d = 0 then c.toNat else rn s d % 2 ^ 32

theorem exec_rep_attached (d : BitVec 6) (c : BitVec 8) (t n : BitVec 4) {s : State} {l : Nat} (h : (cx s).role = .attached l) :
    exec (.rep d c t n) s = .next (finish s) := by
  show execRep d c t n s = _
  unfold execRep
  simp only [h]

/-- REP of a context that is no attached follower. -/
theorem exec_rep (d : BitVec 6) (c : BitVec 8) (t n : BitVec 4) {s : State} (h : ∀ l, (cx s).role ≠ .attached l) :
    exec (.rep d c t n) s =
      if 2 ≤ (cx s).reps.length ∨ badBody s (n.toNat + 1) = true then .next (trapWord 0x05 s)
      else .next (markIssued (setCx (spend (issueCause (cx s)) s) (repCtx (cx (spend (issueCause (cx s)) s)) (n.toNat + 1) t.toNat (repCount d c s)))) := by
  show execRep d c t n s = _
  unfold execRep
  dsimp only
  split
  · next l hl => exact absurd hl (h l)
  · refine if_congr (by simp [badBody, or_assoc]) rfl ?_
    unfold repCtx
    by_cases hc : repCount d c s = 0
    · rw [if_pos hc]
      exact if_pos hc
    · rw [if_neg hc]
      exact if_neg hc

/-- Settles O13. -/
theorem repetitionStarts : Obligations.RepetitionStarts := by
  intro s d c t n x len count body
  have hstart : (∀ l, x.role ≠ .attached l) → x.reps.length < 2 → body = false →
      Completes (exec (.rep d c t n) s) (markIssued (setCx s (repCtx x len t.toNat count))) := by
    intro hr hlen hb
    have hn : ¬ (2 ≤ (cx s).reps.length ∨ badBody s (n.toNat + 1) = true) := by
      rintro (h | h)
      · exact absurd h (Nat.not_le.mpr hlen)
      · exact Bool.false_ne_true (hb.symm.trans h)
    rw [exec_rep d c t n hr, if_neg hn]
    refine ⟨_, rfl, still_markIssued_spend _ s ?_⟩
    rw [stillCtx_repCtx, stillCtx_repCtx, stillCtx_cx_spend]
    rfl
  refine ⟨fun hr hlen hb => ⟨fun hc => ?_, fun hc => ?_⟩, fun hr hb => ?_, fun l hl => ?_⟩
  · have h := hstart hr hlen hb
    unfold repCtx at h
    rwa [if_neg hc] at h
  · have h := hstart hr hlen hb
    unfold repCtx at h
    rwa [if_pos hc] at h
  · rw [exec_rep d c t n hr, if_pos (show 2 ≤ (cx s).reps.length ∨ badBody s (n.toNat + 1) = true from hb)]
    exact traps_trapWord 0x05 s
  · rw [exec_rep_attached d c t n hl]
    exact completes_finish s

/-! ## Words that change their context at the end of their cycle -/

theorem core_completed (s : State) (x : Ctx) : core (completed s x) s.cur = ((core s s.cur).put (onSup s) x.advance).marked_ := by
  rw [completed, markIssued_setCx, core_setCore, if_pos rfl]
  rfl

theorem onSup_completed (s : State) (x : Ctx) : onSup (completed s x) = onSup s := by
  rw [onSup, curCore, completed_cur, core_completed]
  cases h : onSup s <;> exact h

theorem cx_completed (s : State) (x : Ctx) : cx (completed s x) = x.advance := by
  cases h : onSup s with
  | true => rw [cx_of_sup ((onSup_completed s x).trans h), curCore, completed_cur, core_completed, h]; rfl
  | false => rw [cx_of_user ((onSup_completed s x).trans h), curCore, completed_cur, core_completed, h]; rfl

theorem still_setCx_congr {s t : State} (h : still s = still t) {x y : Ctx} (hx : stillCtx x = stillCtx y) : still (setCx s x) = still (setCx t y) := by
  rw [setCx, setCtxOf, setCx, setCtxOf, ← still_cur h]
  refine still_setCore_congr h _ ?_
  rw [show (curCore t).supOn = (curCore s).supOn from (onSup_of_still h).symm]
  exact stillCore_put _ (stillCore_core_of_still h _) hx

/-- The context of a completed word replaced. -/
theorem setCx_completed (s : State) (x y : Ctx) : setCx (completed s x) y.advance = completed s y := by
  have hs : (curCore (completed s x)).supOn = onSup s := onSup_completed s x
  rw [setCx, setCtxOf, hs, completed_cur, core_completed, completed, markIssued_setCx, setCore_setCore, completed, markIssued_setCx]
  cases h : onSup s <;> rw [show (curCore s).supOn = onSup s from rfl, h] <;> rfl

/-- A word that completes and then changes its context. -/
theorem completes_setCx_finish {s : State} (g h : Ctx → Ctx) (hg : ∀ x, stillCtx (g x) = h (stillCtx x)) (ha : ∀ x : Ctx, g x.advance = (g x).advance) :
    Completes (.next (setCx (finish s) (g (cx (finish s))))) (completed s (g (cx s))) := by
  have hf := still_finish s
  have hx : stillCtx (g (cx (finish s))) = stillCtx (g (cx s)).advance := by
    rw [hg, stillCtx_cx_of_still hf, cx_completed, ← hg, ha]
  refine ⟨_, rfl, ?_⟩
  rw [still_setCx_congr hf hx, setCx_completed]

/-! ## The label stack (R368) -/

theorem quiet_labelPush (n : Nat) (d : Debug) : (d.labelPush n).quiet = d.quiet.labelPush n := rfl

theorem completes_lblpush (i : BitVec 16) (s : State) :
    Completes (exec (.lblpush i) s) (completed s { cx s with dbg := (cx s).dbg.labelPush i.toNat }) :=
  completes_setCx_finish (fun x => { x with dbg := x.dbg.labelPush i.toNat }) (fun x => { x with dbg := x.dbg.labelPush i.toNat })
    (fun x => by simp only [stillCtx_quiet, quiet_labelPush]) fun _ => rfl

/-- Of one outcome, apart from time, one context is the completed one. -/
theorem stillCtx_advance_of_completes {o : Out} {s : State} {x y : Ctx} (hx : Completes o (completed s x)) (hy : Completes o (completed s y)) :
    stillCtx x.advance = stillCtx y.advance := by
  obtain ⟨t, ht, hxt⟩ := hx
  obtain ⟨u, hu, hyu⟩ := hy
  obtain rfl : t = u := Host.Outcome.next.inj (ht.symm.trans hu)
  have h := stillCtx_cx_of_still (hxt.symm.trans hyu)
  rwa [cx_completed, cx_completed] at h

/-- A machine whose label stack's depth counts beyond 255. -/
def deepLabels : State := setCx State.reset { cx State.reset with dbg := { depth := 256 } }

/-- Refutes O14: nothing in the statement bounds the label stack's depth, and LBLPUSH leaves a depth of 256 as it is, where the statement
makes it 255. -/
theorem not_controlWords : ¬ Obligations.ControlWords := by
  intro h
  obtain ⟨-, -, push, -⟩ := h.2.1 deepLabels 0 0 0
  have hd := congrArg (fun x : Ctx => x.dbg.depth) (stillCtx_advance_of_completes (completes_lblpush 0 deepLabels) push)
  simp only [deepLabels, cx_setCx] at hd
  exact absurd hd (by decide)

/-! ## EXIT (R179) -/

/-- The core whose supervisor becomes idle at its EXIT. -/
def exitedCore (k : Core) : Core := { k with supOn := false, issued := true, sup := { k.sup with hint := .none, waiting := none } }

theorem stillCore_exitedCore (k : Core) : stillCore (exitedCore k) = exitedCore (stillCore k) := rfl

/-- EXIT of the supervisor, with its engines idle and no group open. -/
theorem exec_exit_sup {s : State} (hs : onSup s = true) (ht : (cx s).tx = none) (he : enginesBusy (cx s) = false) :
    exec .exit s =
      (let t := commitAccounts s.cur true none (spend (issueCause (cx s)) s)
      .next (markIdle t.cur (setCore t t.cur (exitedCore (curCore t))))) := by
  show execExit s = _
  unfold execExit
  dsimp only
  rw [ht, hs, he]
  rfl

/-- EXIT of a user context of its own. -/
theorem exec_exit_single {s : State} (hs : onSup s = false) (hr : (cx s).role = .single) (ht : (cx s).tx = none) (he : enginesBusy (cx s) = false) :
    exec .exit s = .next (beginKill s.cur 0x66 false (cx s).pc 0 (spend (issueCause (cx s)) s)) := by
  show execExit s = _
  unfold execExit
  dsimp only
  rw [ht, hs, he, hr]
  rfl

/-- The accounts of a context of no region commit to the supervisor account, which time changes. -/
theorem commitAccounts_of_no_region (c : Nat) (sup : Bool) (row3 : Option Nat) {s : State} (h : (ctxOf (settle c s) c sup).region = none) :
    ∃ k, commitAccounts c sup row3 s = setCore s c k ∧ stillCore k = stillCore (core s c) := by
  have hc := stillCore_core_settle s c
  unfold ctxOf at h
  generalize hk : core (settle c s) c = k at h hc
  refine ⟨({ k with supAcct := acctMerge k.supAcct (if sup then k.sup else k.user).acct }.put sup { (if sup then k.sup else k.user) with acct := [] }), ?_, ?_⟩
  · unfold commitAccounts
    simp only [hk, h, setCore_settle]
  · rw [← hc]
    cases sup <;> rfl

theorem region_of_still {x y : Ctx} (h : stillCtx x = stillCtx y) : x.region = y.region := by
  have := congrArg Ctx.region h; exact this

theorem idleSince_of_still {k k' : Core} (h : stillCore k = stillCore k') : k.idleSince = k'.idleSince := by
  have := congrArg Core.idleSince h; exact this

/-- A core replaced and then marked idle: the time since when it is idle is its own while a user context is loaded. -/
theorem markIdle_setCore (c : Nat) (s : State) (k : Core) :
    ∃ n, (k.uload = true → n = k.idleSince) ∧ markIdle c (setCore s c k) = setCore s c { k with idleSince := n } := by
  unfold markIdle
  simp only [core_setCore, if_pos, setCore_setCore]
  split
  · exact ⟨k.idleSince, fun _ => rfl, rfl⟩
  · next h =>
    refine ⟨_, fun hu => absurd ?_ h, rfl⟩
    rw [hu]
    rfl

theorem completes_exit_sup {s : State} (hs : onSup s = true) (ht : (cx s).tx = none) (he : enginesBusy (cx s) = false) (hr : (cx s).region = none) :
    ∃ n, ((curCore s).uload = true → n = (curCore s).idleSince) ∧
      Completes (exec .exit s) (setCore s s.cur { exitedCore (curCore s) with idleSince := n }) := by
  have hk := stillCore_core_spend (issueCause (cx s)) s
  have hsup : (ctxOf (settle s.cur (spend (issueCause (cx s)) s)) s.cur true).region = none := by
    rw [ctxOf, if_pos rfl, region_of_still (stillCtx_sup ((stillCore_core_settle _ _).trans hk)), ← cx_of_sup hs]
    exact hr
  obtain ⟨k, hc, hkc⟩ := commitAccounts_of_no_region s.cur true none hsup
  rw [exec_exit_sup hs ht he]
  dsimp only
  rw [hc]
  have hcur : curCore (setCore (spend (issueCause (cx s)) s) s.cur k) = k := by rw [curCore, setCore_cur, spend_cur, core_setCore, if_pos rfl]
  rw [hcur, setCore_cur, spend_cur, setCore_setCore]
  obtain ⟨n, hn, hm⟩ := markIdle_setCore s.cur (spend (issueCause (cx s)) s) (exitedCore k)
  have hkk := hkc.trans hk
  have hi : k.idleSince = (curCore s).idleSince := idleSince_of_still hkk
  refine ⟨n, fun hu => (hn ((uload_of_still hkk).trans hu)).trans hi, _, rfl, ?_⟩
  refine (congrArg still hm).trans (still_setCore_spend _ s ?_)
  exact congrArg (fun k : Core => { exitedCore k with idleSince := n }) hkk

/-- Deciding the kill of the loaded user context in issue, once a cycle has passed. -/
theorem completes_beginKill_spend (n cause pc : Nat) (val : Word) {s : State} (hl : (curCore s).uload = true) (hk : (curCore s).killing = false) :
    Completes (.next (beginKill s.cur cause false pc val (spend n s))) (killDecided s (BitVec.ofNat 8 cause) pc val) := by
  have hc := stillCore_core_spend n s
  refine ⟨_, rfl, ?_⟩
  rw [beginKill_of_loaded _ _ _ _ _ ((uload_of_still hc).trans hl) ((killing_of_still hc).trans hk), killDecided_eq]
  exact still_send_congr _ (still_setCore_spend n s (congrArg dyingCore hc :))

/-! ## JOIN (R128, R315) -/

theorem exec_join_finish {s : State} (h : onSup s = true ∨ (cx s).role = .single ∨ ∃ l, (cx s).role = .attached l) : exec .join s = .next (finish s) := by
  show execJoin s = _
  unfold execJoin
  dsimp only
  cases hs : onSup s with
  | true => rfl
  | false =>
    rw [if_neg Bool.false_ne_true]
    obtain h | h | ⟨l, h⟩ := h
    · exact absurd (hs.symm.trans h) Bool.false_ne_true
    · rw [h]
    · rw [h]

theorem exec_join_detached {s : State} {l : Nat} (hs : onSup s = false) (hr : (cx s).role = .detached l) :
    exec .join s = .next (setCx (spend 7 s) { cx (spend 7 s) with role := .joining l (cx s).pc }) := by
  show execJoin s = _
  unfold execJoin
  dsimp only
  rw [hs, if_neg Bool.false_ne_true, hr]

theorem exec_join_leader {s : State} {fs : List Nat} (hs : onSup s = false) (hr : (cx s).role = .leader fs) (hf : followersAway s fs = false) :
    exec .join s = .next (finish (joinAll (cx s).pc fs s)) := by
  show execJoin s = _
  unfold execJoin
  dsimp only
  rw [hs, if_neg Bool.false_ne_true, hr]
  exact if_neg (by rw [hf]; exact Bool.false_ne_true)

/-- Settles O15. -/
theorem exitAndJoin : Obligations.ExitAndJoin := by
  intro s k x
  refine ⟨fun ht he => ⟨fun hs hr => completes_exit_sup hs ht he hr, fun hs hr hl hk => ?_⟩, fun h => ?_, fun l hs hr => ?_, fun fs hs hr hf => ?_⟩
  · rw [exec_exit_single hs hr ht he]
    exact completes_beginKill_spend _ 0x66 _ 0 hl hk
  · rw [exec_join_finish h]
    exact completes_finish s
  · rw [exec_join_detached hs hr]
    exact ⟨_, rfl, still_setCx_spend 7 s (congrArg (fun y : Ctx => { y with role := .joining l x.pc }) (stillCtx_cx_spend 7 s) :)⟩
  · rw [exec_join_leader hs hr hf]
    exact completes_finish _

end Sys2Proof.Machine
end

section
/-! SUPPORT. The scalar floating-point instructions (R167 to R171). -/

namespace Sys2Proof.Machine

open Sys2Proof.Claims

/-! ## Roundings written (R48, R49) -/

/-- The machine with the core in issue's generator at `seed`. -/
def seeded (s : State) (seed : BitVec 32) : State := setCore s s.cur { curCore s with rseed := seed }

theorem onSup_seeded (s : State) (seed : BitVec 32) : onSup (seeded s seed) = onSup s := by
  rw [onSup, curCore, seeded, setCore_cur, core_setCore, if_pos rfl]
  rfl

theorem putNum_eq (n : NumSt) (s : State) : putNum s.cur (onSup s) n s = setCx (seeded s n.seed) ((cx s).raise n.flags) := by
  have hs : (curCore (seeded s n.seed)).supOn = onSup s := onSup_seeded s n.seed
  have hc : ctxOf s s.cur (onSup s) = cx s := rfl
  rw [setCx, setCtxOf, hs]
  simp only [putNum, hc, setCtxOf, seeded, setCore_cur, core_setCore, if_pos, setCore_setCore]
  cases onSup s <;> rfl

@[simp] theorem completed_setCx (s : State) (x y : Ctx) : completed (setCx s x) y = completed s y := by
  rw [completed, completed, setCx_setCx]

/-- A word whose whole effect is a context with a register written after another change. -/
theorem completes_putReg_setCx (s : State) (x : Ctx) (d : BitVec 6) (r : Reg) :
    Completes (.next (finish (putReg d r (setCx s x)))) (completed s (setReg x d.toNat r)) := by
  have h := completes_setCx (setCx s x) (setReg x d.toNat r)
  rw [completed_setCx] at h
  rw [putReg, cx_setCx]
  exact h

theorem rounds_numDone (d : BitVec 6) (r : Nat × NumSt) (s : State) : Rounds (.next (numDone d r.1 r.2 s)) s d r := by
  rw [numDone, putNum_eq, putNat, putWord]
  exact completes_putReg_setCx ..

/-- A word whose result is a value and flags, with nothing drawn. -/
theorem rounds_flags (d : BitVec 6) (v flags : Nat) (s : State) :
    Rounds (.next (finish (putNat d v (setCx s ((cx s).raise flags))))) s d (v, { seed := (curCore s).rseed, flags := flags }) := by
  have h := completes_putReg_setCx s ((cx s).raise flags) d { val := BitVec.ofNat 128 v }
  rw [← completed_listed] at h
  exact h

theorem rounding_of_idle (f : State → Out) {s : State} (h : roundMode (cx s) = 5 → rstoBusy (curCore s) = false) : rounding f s = f s := by
  refine if_neg fun hb => ?_
  simp only [Bool.and_eq_true, decide_eq_true_eq] at hb
  exact Bool.false_ne_true ((h hb.1).symm.trans hb.2)

theorem num_raise (k : Core) (flags : Nat) : k.num.raise flags = { seed := k.rseed, flags := flags } := by
  simp [NumSt.raise, Core.num]

theorem floatDone_eq (d : BitVec 6) (f : BitVec 2) (r : FV × Nat) (s : State) :
    floatDone d f r s =
      numDone d (convert f.toNat r.1 (roundMode (cx s)) false { seed := (curCore s).rseed, flags := r.2 }).1
        (convert f.toNat r.1 (roundMode (cx s)) false { seed := (curCore s).rseed, flags := r.2 }).2 s := by
  rw [floatDone, num_raise]

theorem rounds_floatDone (d : BitVec 6) (f : BitVec 2) (r : FV × Nat) (s : State) :
    Rounds (.next (floatDone d f r s)) s d (convert f.toNat r.1 (roundMode (cx s)) false { seed := (curCore s).rseed, flags := r.2 }) := by
  rw [floatDone_eq]
  exact rounds_numDone ..

section
variable (d a b : BitVec 6) (f : BitVec 2) {s : State} (h : roundMode (cx s) = 5 → rstoBusy (curCore s) = false)
include h

theorem exec_fadd : exec (.fadd d a b f) s = .next (floatDone d f (addV (fval f a s) (fval f b s) (roundMode (cx s))) s) :=
  rounding_of_idle (fun s => .next (floatDone d f (addV (fval f a s) (fval f b s) (roundMode (cx s))) s)) h

theorem exec_fsub : exec (.fsub d a b f) s = .next (floatDone d f (addV (fval f a s) (negV (fval f b s)) (roundMode (cx s))) s) :=
  rounding_of_idle (fun s => .next (floatDone d f (addV (fval f a s) (negV (fval f b s)) (roundMode (cx s))) s)) h

theorem exec_fmul : exec (.fmul d a b f) s = .next (floatDone d f (mulV (fval f a s) (fval f b s)) s) :=
  rounding_of_idle (fun s => .next (floatDone d f (mulV (fval f a s) (fval f b s)) s)) h

theorem exec_ffma : exec (.ffma d a b f) s = .next (floatDone d f (fmaV (fval f a s) (fval f b s) (fval f d s) (roundMode (cx s))) s) :=
  rounding_of_idle (fun s => .next (floatDone d f (fmaV (fval f a s) (fval f b s) (fval f d s) (roundMode (cx s))) s)) h

/-- The conversion that FCVT does. -/
def fcvtResult (a : BitVec 6) (sf tf : BitVec 5) (s : State) : Nat × NumSt :=
  convert tf.toNat (scalarVal sf.toNat (rn s a)) (roundMode (cx s)) (fmtSat (cx s).fmt) (curCore s).num

theorem exec_fcvt (sf tf : BitVec 5) : exec (.fcvt d a sf tf) s = .next (numDone d (fcvtResult a sf tf s).1 (fcvtResult a sf tf s).2 s) :=
  rounding_of_idle (fun s => .next (numDone d (fcvtResult a sf tf s).1 (fcvtResult a sf tf s).2 s)) h

end

/-- Settles O17. -/
theorem floatArithmetic : Obligations.FloatArithmetic := by
  intro s d a b f sf tf h x y m out
  rw [exec_fadd d a b f h, exec_fsub d a b f h, exec_fmul d a b f h, exec_ffma d a b f h, exec_fcvt d a h sf tf]
  exact ⟨rounds_floatDone .., rounds_floatDone .., rounds_floatDone .., rounds_floatDone .., rounds_numDone ..⟩

/-! ## Comparisons and classes (R169, R170) -/

/-- A pick of one of two operands. -/
theorem rounds_pickDone (d : BitVec 6) (f : BitVec 2) (r : FV × Nat) (s : State) :
    Rounds (.next (pickDone d f r s)) s d (convert f.toNat r.1 0 false { seed := (curCore s).rseed, flags := r.2 }) := by
  rw [pickDone, num_raise]
  exact rounds_numDone ..

theorem minmaxV_flags (max : Bool) (a b : FV) : (minmaxV max a b).2 = if a.isSig || b.isSig then 1 else 0 := by
  unfold minmaxV
  dsimp only
  split_ifs
  all_goals first | rfl | (split <;> rfl)

theorem isNan_of_isSig {a : FV} (h : a.isSig = true) : a.isNan = true := by
  unfold FV.isSig at h
  split at h
  · rfl
  · exact absurd h Bool.false_ne_true

/-- A comparison that raises NV for a signalling NaN alone. -/
theorem compareV_quiet (test : Ordering → Bool) (a b : FV) :
    compareV true test a b = (!(a.isNan || b.isNan) && test (cmpV a b), if a.isSig || b.isSig then 1 else 0) := by
  have hs : (a.isNan || b.isNan) = false → (a.isSig || b.isSig) = false := by
    simp only [← Bool.not_eq_true, Bool.or_eq_true]
    exact mt (Or.imp isNan_of_isSig isNan_of_isSig)
  unfold compareV
  cases hn : a.isNan || b.isNan with
  | true => rfl
  | false => rw [hs hn]; rfl

/-- A comparison that raises NV for any NaN. -/
theorem compareV_signalling (test : Ordering → Bool) (a b : FV) :
    compareV false test a b = (!(a.isNan || b.isNan) && test (cmpV a b), if a.isNan || b.isNan then 1 else 0) := by
  unfold compareV
  cases a.isNan || b.isNan <;> rfl

theorem rounds_cmpDone (d : BitVec 6) (t : Bool) (fl : Nat) (s : State) :
    Rounds (.next (cmpDone d (t, fl) s)) s d (if t then 1 else 0, { seed := (curCore s).rseed, flags := fl }) := rounds_flags ..

theorem rounds_compare_quiet (d : BitVec 6) (test : Ordering → Bool) (a b : FV) (s : State) :
    Rounds (.next (cmpDone d (compareV true test a b) s)) s d
      (if !(a.isNan || b.isNan) && test (cmpV a b) then 1 else 0, { seed := (curCore s).rseed, flags := if a.isSig || b.isSig then 1 else 0 }) := by
  rw [compareV_quiet]
  exact rounds_cmpDone ..

theorem rounds_compare_signalling (d : BitVec 6) (test : Ordering → Bool) (a b : FV) (s : State) :
    Rounds (.next (cmpDone d (compareV false test a b) s)) s d
      (if !(a.isNan || b.isNan) && test (cmpV a b) then 1 else 0, { seed := (curCore s).rseed, flags := if a.isNan || b.isNan then 1 else 0 }) := by
  rw [compareV_signalling]
  exact rounds_cmpDone ..

theorem classOf_lt (fmt p : Nat) : classOf fmt p < 10 := by
  unfold classOf
  cases scalarVal fmt p with
  | inf neg => cases neg <;> simp
  | nan sig => cases sig <;> simp
  | fin neg m e => dsimp only; cases neg <;> split_ifs <;> omega

theorem exec_fsgnj (d a b : BitVec 6) (v f : BitVec 2) (s : State) : exec (.fsgnj d a b v f) s =
    .next (finish (putNat d (rn s a % 2 ^ (elemBits f.toNat - 1) +
      fld (b2n (if v = 0 then bitAt (rn s b) (elemBits f.toNat - 1) else if v = 1 then !bitAt (rn s b) (elemBits f.toNat - 1)
        else bitAt (rn s a) (elemBits f.toNat - 1) != bitAt (rn s b) (elemBits f.toNat - 1))) (elemBits f.toNat - 1)) s)) := rfl

theorem fld_b2n (b : Bool) (i : Nat) : fld (b2n b) i = if b then 2 ^ i else 0 := by
  cases b <;> simp [fld, b2n]

/-- Settles O18. -/
theorem floatComparesAndClasses : Obligations.FloatComparesAndClasses := by
  intro s d a b f v c w hw x y seed nan sig truth ka sa sb sign
  have hmin := rounds_pickDone d f (minmaxV false x y) s
  have hmax := rounds_pickDone d f (minmaxV true x y) s
  rw [minmaxV_flags] at hmin hmax
  have hle := rounds_compare_signalling d (fun o => o == .lt || o == .eq) x y s
  have hg : (cmpV x y == .lt || cmpV x y == .eq) = (cmpV x y != .gt) := by cases cmpV x y <;> rfl
  rw [hg] at hle
  refine ⟨hmin, hmax, rounds_compare_quiet d (· == .eq) x y s, rounds_compare_signalling d (· == .lt) x y s, hle,
    ⟨_, classOf_lt c.toNat ka, rfl, value_putWord d s rfl⟩, ?_⟩
  have he : elemBits f.toNat = w := by
    obtain ⟨rfl, rfl⟩ | ⟨rfl, rfl⟩ | ⟨rfl, rfl⟩ | ⟨rfl, rfl⟩ := hw <;> rfl
  rw [exec_fsgnj, he, fld_b2n, bitAt_eq_testBit, bitAt_eq_testBit]
  exact value_putWord d s rfl

/-! ## Claims.Finite values as rationals (R36, R62) -/

theorem finite_iff (a : FV) : Claims.Finite a ↔ ∃ s m e, a = .fin s m e := by
  cases a <;> simp [Claims.Finite]

theorem finite_fin (s : Bool) (m : Nat) (e : Int) : Claims.Finite (.fin s m e) := trivial

theorem ratOf_fin (s : Bool) (m : Nat) (e : Int) : ratOf (.fin s m e) = (if s then -1 else 1) * m * (2 : ℚ) ^ e := rfl

@[simp] theorem ratOf_zero (s : Bool) (e : Int) : ratOf (.fin s 0 e) = 0 := by simp [ratOf_fin]

/-- A value as a multiple of a power of two below its own. -/
theorem at_mul_two_pow {a : FV} {e : Int} (ha : Claims.Finite a) (h : e ≤ a.expo) : (a.at e : ℚ) * 2 ^ e = ratOf a := by
  obtain ⟨s, m, e', rfl⟩ := (finite_iff a).mp ha
  have he : (e' - e).toNat = e' - e := Int.toNat_of_nonneg (sub_nonneg.mpr h)
  have hp : ((2 : ℚ) ^ (e' - e).toNat) * 2 ^ e = 2 ^ e' := by
    rw [← zpow_natCast, he, ← zpow_add₀ two_ne_zero, sub_add_cancel]
  cases s <;> simp [FV.at, ratOf_fin, mul_assoc, hp]

theorem ratOf_of_int (t e : Int) : ratOf (.fin (decide (t < 0)) t.natAbs e) = t * 2 ^ e := by
  have h : (if t < 0 then (-1 : ℚ) else 1) * (t.natAbs : ℚ) = t := by
    split
    · next hn => rw [Nat.cast_natAbs, abs_of_neg hn]; push_cast; ring
    · next hn => rw [Nat.cast_natAbs, abs_of_nonneg (not_lt.mp hn)]; ring
  rw [ratOf_fin, ← h]
  simp

/-- The lesser of two exponents. -/
def commonExpo (a b : FV) : Int := if a.expo ≤ b.expo then a.expo else b.expo

theorem commonExpo_le_left (a b : FV) : commonExpo a b ≤ a.expo := by unfold commonExpo; split <;> omega
theorem commonExpo_le_right (a b : FV) : commonExpo a b ≤ b.expo := by unfold commonExpo; split <;> omega

theorem ratOf_sumFin {a b : FV} (mode : Nat) (ha : Claims.Finite a) (hb : Claims.Finite b) : ratOf (sumFin a b mode) = ratOf a + ratOf b := by
  have hs : ((a.at (commonExpo a b) + b.at (commonExpo a b) : Int) : ℚ) * 2 ^ commonExpo a b = ratOf a + ratOf b := by
    push_cast
    rw [add_mul, at_mul_two_pow ha (commonExpo_le_left a b), at_mul_two_pow hb (commonExpo_le_right a b)]
  rw [← hs]
  unfold sumFin
  change ratOf (if a.at (commonExpo a b) + b.at (commonExpo a b) ≠ 0 then _ else _) = _
  split
  · exact ratOf_of_int _ _
  · next h =>
    rw [not_not.mp h]
    split <;> simp

theorem addV_of_finite {a b : FV} (mode : Nat) (ha : Claims.Finite a) (hb : Claims.Finite b) : addV a b mode = (sumFin a b mode, 0) := by
  obtain ⟨s, m, e, rfl⟩ := (finite_iff a).mp ha
  obtain ⟨t, n, k, rfl⟩ := (finite_iff b).mp hb
  rfl

theorem zeroTimesInf_of_finite {a b : FV} (ha : Claims.Finite a) (hb : Claims.Finite b) : zeroTimesInf a b = false := by
  obtain ⟨s, m, e, rfl⟩ := (finite_iff a).mp ha
  obtain ⟨t, n, k, rfl⟩ := (finite_iff b).mp hb
  simp [zeroTimesInf, FV.isInf]

theorem mulV_fin (s t : Bool) (m n : Nat) (e k : Int) : mulV (.fin s m e) (.fin t n k) = (.fin (s != t) (m * n) (e + k), 0) := by
  rw [mulV, zeroTimesInf_of_finite (finite_fin ..) (finite_fin ..)]
  rfl

theorem ratOf_mulV {a b : FV} (ha : Claims.Finite a) (hb : Claims.Finite b) : ratOf (mulV a b).1 = ratOf a * ratOf b ∧ (mulV a b).2 = 0 ∧ Claims.Finite (mulV a b).1 := by
  obtain ⟨s, m, e, rfl⟩ := (finite_iff a).mp ha
  obtain ⟨t, n, k, rfl⟩ := (finite_iff b).mp hb
  rw [mulV_fin]
  refine ⟨?_, rfl, finite_fin ..⟩
  simp only [ratOf_fin, zpow_add₀ (two_ne_zero (α := ℚ)), Nat.cast_mul]
  cases s <;> cases t <;> simp <;> ring

theorem fmaV_of_finite {a b d : FV} (mode : Nat) (ha : Claims.Finite a) (hb : Claims.Finite b) (hd : Claims.Finite d) :
    fmaV a b d mode = (sumFin (mulV a b).1 d mode, 0) := by
  have hm := addV_of_finite mode (ratOf_mulV ha hb).2.2 hd
  obtain ⟨s, m, e, rfl⟩ := (finite_iff a).mp ha
  obtain ⟨t, n, k, rfl⟩ := (finite_iff b).mp hb
  obtain ⟨u, o, l, rfl⟩ := (finite_iff d).mp hd
  rw [fmaV, zeroTimesInf_of_finite (finite_fin ..) (finite_fin ..)]
  exact hm

/-! ## The order of finite values (R169) -/

theorem cmpV_of_finite {a b : FV} (ha : Claims.Finite a) (hb : Claims.Finite b) : cmpV a b = compare (a.at (commonExpo a b)) (b.at (commonExpo a b)) := by
  obtain ⟨s, m, e, rfl⟩ := (finite_iff a).mp ha
  obtain ⟨t, n, k, rfl⟩ := (finite_iff b).mp hb
  rfl

theorem at_lt_iff {a b : FV} (e : Int) (ha : Claims.Finite a) (hb : Claims.Finite b) (hea : e ≤ a.expo) (heb : e ≤ b.expo) : a.at e < b.at e ↔ ratOf a < ratOf b := by
  rw [← at_mul_two_pow ha hea, ← at_mul_two_pow hb heb, mul_lt_mul_iff_left₀ (zpow_pos two_pos e), Int.cast_lt]

/-- The order of finite values is that of the rationals. -/
theorem cmpV_eq_compare {a b : FV} (ha : Claims.Finite a) (hb : Claims.Finite b) : cmpV a b = compare (ratOf a) (ratOf b) := by
  rw [cmpV_of_finite ha hb]
  have hab := at_lt_iff _ ha hb (commonExpo_le_left a b) (commonExpo_le_right a b)
  have hba := at_lt_iff _ hb ha (commonExpo_le_right a b) (commonExpo_le_left a b)
  obtain h | h | h := lt_trichotomy (a.at (commonExpo a b)) (b.at (commonExpo a b))
  · rw [compare_lt_iff_lt.mpr h, compare_lt_iff_lt.mpr (hab.mp h)]
  · have he : ratOf a = ratOf b := by
      rw [← at_mul_two_pow ha (commonExpo_le_left a b), ← at_mul_two_pow hb (commonExpo_le_right a b), h]
    rw [compare_eq_iff_eq.mpr h, compare_eq_iff_eq.mpr he]
  · rw [compare_gt_iff_gt.mpr h, compare_gt_iff_gt.mpr (hba.mp h)]

theorem not_isNan_of_finite {a : FV} (ha : Claims.Finite a) : a.isNan = false := by
  obtain ⟨s, m, e, rfl⟩ := (finite_iff a).mp ha
  rfl

/-- The lesser and the greater of two finite values. -/
theorem minmaxV_of_finite (max : Bool) {a b : FV} (ha : Claims.Finite a) (hb : Claims.Finite b) :
    (minmaxV max a b).1 = match cmpZ a b with
      | .lt => if max then b else a
      | .gt => if max then a else b
      | .eq => a := by
  unfold minmaxV
  simp only [not_isNan_of_finite ha, not_isNan_of_finite hb, Bool.and_self, if_neg Bool.false_ne_true]
  cases cmpZ a b <;> rfl

/-- The order that FMIN and FMAX pick by refines that of the rationals. -/
theorem ratOf_of_cmpZ {a b : FV} (ha : Claims.Finite a) (hb : Claims.Finite b) :
    (cmpZ a b = .lt → ratOf a ≤ ratOf b) ∧ (cmpZ a b = .gt → ratOf b ≤ ratOf a) ∧ (cmpZ a b = .eq → ratOf a = ratOf b) := by
  unfold cmpZ
  rw [cmpV_eq_compare ha hb]
  obtain h | h | h := lt_trichotomy (ratOf a) (ratOf b)
  · rw [compare_lt_iff_lt.mpr h]
    simp [h.le]
  · rw [compare_eq_iff_eq.mpr h]
    simp [h]
  · rw [compare_gt_iff_gt.mpr h]
    simp [h.le]

theorem ratOf_minmaxV {a b : FV} (ha : Claims.Finite a) (hb : Claims.Finite b) :
    ratOf (minmaxV false a b).1 = min (ratOf a) (ratOf b) ∧ ratOf (minmaxV true a b).1 = max (ratOf a) (ratOf b) := by
  rw [minmaxV_of_finite false ha hb, minmaxV_of_finite true ha hb]
  obtain ⟨lt, gt, eq⟩ := ratOf_of_cmpZ ha hb
  cases h : cmpZ a b with
  | lt => exact ⟨(min_eq_left (lt h)).symm, (max_eq_right (lt h)).symm⟩
  | gt => exact ⟨(min_eq_right (gt h)).symm, (max_eq_left (gt h)).symm⟩
  | eq => exact ⟨(min_eq_left (eq h).le).symm, (max_eq_left (eq h).ge).symm⟩

theorem zero_iff {a : FV} (h : a.isZero = true) : ∃ s e, a = .fin s 0 e := by
  unfold FV.isZero at h
  split at h
  · exact ⟨_, _, rfl⟩
  · exact absurd h Bool.false_ne_true

/-- Of two zeros, -0 is the lesser. -/
theorem minmaxV_of_zeros {a b : FV} (ha : a.isZero = true) (hb : b.isZero = true) :
    (minmaxV false a b).1.neg = (a.neg || b.neg) ∧ (minmaxV true a b).1.neg = (a.neg && b.neg) := by
  obtain ⟨s, e, rfl⟩ := zero_iff ha
  obtain ⟨t, k, rfl⟩ := zero_iff hb
  have hz : cmpZ (.fin s 0 e) (.fin t 0 k) = if s == t then .eq else if s then .lt else .gt := by
    unfold cmpZ
    rw [cmpV_eq_compare (finite_fin ..) (finite_fin ..), ratOf_zero, ratOf_zero, compare_eq_iff_eq.mpr rfl]
    rfl
  rw [minmaxV_of_finite false (finite_fin ..) (finite_fin ..), minmaxV_of_finite true (finite_fin ..) (finite_fin ..), hz]
  cases s <;> cases t <;> exact ⟨rfl, rfl⟩

/-- Settles O19. -/
theorem arithmeticAndComparisonAreExact : Obligations.ArithmeticAndComparisonAreExact := by
  refine ⟨fun a b d mode ha hb hd => ?_, fun a b ha hb => ?_⟩
  · obtain ⟨product, quiet, finite⟩ := ratOf_mulV ha hb
    rw [addV_of_finite mode ha hb, fmaV_of_finite mode ha hb hd]
    exact ⟨ratOf_sumFin mode ha hb, rfl, product, quiet, (ratOf_sumFin mode finite hd).trans (by rw [product]), rfl⟩
  · rw [cmpV_eq_compare ha hb]
    obtain ⟨least, greatest⟩ := ratOf_minmaxV ha hb
    exact ⟨compare_lt_iff_lt, compare_eq_iff_eq, compare_gt_iff_gt, least, greatest, minmaxV_of_zeros⟩

/-! ## The special cases of a fused product (R168) -/

theorem fmaV_of_zeroTimesInf {a b : FV} (d : FV) (mode : Nat) (h : zeroTimesInf a b = true) : fmaV a b d mode = (.nan false, 1) := if_pos h

theorem fmaV_of_nan {a b d : FV} (mode : Nat) (hz : zeroTimesInf a b = false) (h : (a.isNan || b.isNan || d.isNan) = true) :
    fmaV a b d mode = (.nan false, if a.isSig || b.isSig || d.isSig then 1 else 0) := by
  rw [fmaV, hz, if_neg Bool.false_ne_true, if_pos h, nanOf]
  simp [flagNV, Bool.or_assoc]

/-- An infinite product. -/
theorem mulV_of_inf {a b : FV} (ha : a.isNan = false) (hb : b.isNan = false) (hz : zeroTimesInf a b = false) (h : (a.isInf || b.isInf) = true) :
    mulV a b = (.inf (xor a.neg b.neg), 0) := by
  unfold mulV
  rw [hz, if_neg Bool.false_ne_true, ha, hb, if_neg (by decide)]
  split
  · exact absurd h Bool.false_ne_true
  · cases a <;> cases b <;> rfl

/-- A fused product of operands that are not NaNs. -/
theorem fmaV_of_not_nan {a b d : FV} (mode : Nat) (ha : a.isNan = false) (hb : b.isNan = false) (hd : d.isNan = false)
    (hz : zeroTimesInf a b = false) : fmaV a b d mode = addV (mulV a b).1 d mode := by
  rw [fmaV, hz, if_neg Bool.false_ne_true, ha, hb, hd]
  rfl

theorem addV_inf_finite (s : Bool) {d : FV} (mode : Nat) (hd : Claims.Finite d) : addV (.inf s) d mode = (.inf s, 0) := by
  obtain ⟨t, m, e, rfl⟩ := (finite_iff d).mp hd
  rfl

theorem addV_finite_inf {a : FV} (p : Bool) (mode : Nat) (ha : Claims.Finite a) : addV a (.inf p) mode = (.inf p, 0) := by
  obtain ⟨t, m, e, rfl⟩ := (finite_iff a).mp ha
  rfl

/-- A sum of opposite values that are not zeros of one sign. -/
theorem sumFin_of_opposite {a b : FV} (mode : Nat) (ha : Claims.Finite a) (hb : Claims.Finite b) (h : ratOf a = - ratOf b)
    (hz : (a.isZero && b.isZero && a.neg == b.neg) = false) : sumFin a b mode = .fin (mode == 3) 0 0 := by
  have hs : ((a.at (commonExpo a b) + b.at (commonExpo a b) : Int) : ℚ) * 2 ^ commonExpo a b = 0 := by
    push_cast
    rw [add_mul, at_mul_two_pow ha (commonExpo_le_left a b), at_mul_two_pow hb (commonExpo_le_right a b), h, neg_add_cancel]
  have ht : a.at (commonExpo a b) + b.at (commonExpo a b) = 0 := by
    exact_mod_cast (mul_eq_zero.mp hs).resolve_right (zpow_ne_zero _ two_ne_zero)
  unfold sumFin
  rw [hz]
  exact if_neg (not_not.mpr ht)

theorem addV_of_zeros {a b : FV} (mode : Nat) (ha : a.isZero = true) (hb : b.isZero = true) (h : a.neg = b.neg) :
    (addV a b mode).1 = .fin a.neg 0 0 := by
  obtain ⟨s, e, rfl⟩ := zero_iff ha
  obtain ⟨t, k, rfl⟩ := zero_iff hb
  obtain rfl : s = t := h
  rw [addV_of_finite mode (finite_fin ..) (finite_fin ..)]
  cases s <;> simp [sumFin, FV.at, FV.isZero, FV.neg]

/-- Settles O20. -/
theorem fusedSpecialCases : Obligations.FusedSpecialCases := by
  intro a b d mode
  refine ⟨fmaV_of_zeroTimesInf d mode, fmaV_of_nan mode, fun ha hb hz hi => ?_, fun p ha hb => ?_, fun ha hb h hz => ?_, addV_of_zeros mode⟩
  · have hm := mulV_of_inf ha hb hz hi
    refine ⟨fun hd => ?_, ?_, ?_⟩
    · rw [fmaV_of_not_nan mode ha hb (not_isNan_of_finite hd) hz, hm]
      exact addV_inf_finite _ mode hd
    · rw [fmaV_of_not_nan mode ha hb rfl hz, hm]
      exact if_pos rfl
    · rw [fmaV_of_not_nan mode ha hb rfl hz, hm]
      cases xor a.neg b.neg <;> rfl
  · rw [fmaV_of_not_nan mode (not_isNan_of_finite ha) (not_isNan_of_finite hb) rfl (zeroTimesInf_of_finite ha hb)]
    exact addV_finite_inf p mode (ratOf_mulV ha hb).2.2
  · rw [addV_of_finite mode ha hb]
    exact sumFin_of_opposite mode ha hb h hz

/-! ## Patterns of the formats (R36, R39) -/

/-- The formats that the codes name. -/
def FFmt.Named (f : FFmt) : Prop := 2 ≤ f.eb ∧ (f.kind = 0 ∨ f.kind = 1 ∧ f.eb = 4 ∧ f.fb = 3 ∨ f.kind = 2)

theorem named_of_floatFmt {fmt : Nat} {f : FFmt} (h : floatFmt fmt = some f) : f.Named ∧ elemBits fmt = f.eb + f.fb + 1 := by
  unfold floatFmt at h
  split at h
  all_goals cases h
  all_goals exact ⟨by unfold FFmt.Named; decide, rfl⟩

/-- A pattern is its sign, exponent field and fraction. -/
theorem pattern_eq {f : FFmt} (hf : 2 ≤ f.eb) {p : Nat} (hp : p < 2 ^ (f.eb + f.fb + 1)) :
    p = fld (b2n (bitAt p (f.eb + f.fb))) (f.eb + f.fb) + bits p (f.eb + f.fb - 1) f.fb * 2 ^ f.fb + p % 2 ^ f.fb := by
  have hq : p / 2 ^ (f.eb + f.fb) < 2 := Nat.div_lt_of_lt_mul (by rw [Nat.pow_succ] at hp; exact hp)
  have hs : b2n (bitAt p (f.eb + f.fb)) = p / 2 ^ f.fb / 2 ^ f.eb := by
    rw [Nat.div_div_eq_div_mul, ← Nat.pow_add, Nat.add_comm f.fb, bitAt]
    generalize p / 2 ^ (f.eb + f.fb) = q at hq
    interval_cases q <;> rfl
  have he : bits p (f.eb + f.fb - 1) f.fb = p / 2 ^ f.fb % 2 ^ f.eb := by
    rw [bits, show f.eb + f.fb - 1 + 1 - f.fb = f.eb by omega]
  rw [fld, hs, he, Nat.pow_add, ← Nat.mul_assoc, ← Nat.add_mul, Nat.mul_comm (p / 2 ^ f.fb / 2 ^ f.eb), Nat.div_add_mod, Nat.mul_comm,
    Nat.div_add_mod]

theorem bitLen_eq {m k : Nat} (h1 : 2 ^ k ≤ m) (h2 : m < 2 ^ (k + 1)) : bitLen m = k + 1 := by
  have h0 : m ≠ 0 := by have := Nat.two_pow_pos k; omega
  rw [bitLen, if_neg h0, (Nat.log2_eq_iff h0).mpr ⟨h1, h2⟩]

theorem bitLen_le {m k : Nat} (h : m < 2 ^ k) : bitLen m ≤ k := by
  unfold bitLen
  split
  · omega
  · next h0 => exact (Nat.log2_lt h0).mpr h

/-! ## Exact conversions -/

theorem roundTo_exact (neg : Bool) (m : Nat) (e : Int) (mode rho : Nat) : roundTo neg m e e mode rho = (m, false) := by
  simp [roundTo]

theorem draw_of_lt {mode : Nat} (h : mode < 5) (n : NumSt) : n.draw mode = (0, n) := if_neg (by omega)

theorem raise_zero (n : NumSt) : n.raise 0 = n := by simp [NumSt.raise]

/-- A magnitude that lies on the grid of its format, and within its range, is rounded to itself. -/
theorem roundFloat_exact (f : FFmt) (neg : Bool) {m : Nat} {e : Int} {mode : Nat} (sat : Bool) (n : NumSt) (hm : mode < 5) (h0 : m ≠ 0)
    (hk : (if (bitLen m : Int) - 1 + e < 1 - f.bias then 1 - (f.bias : Int) else (bitLen m : Int) - 1 + e) - f.fb = e)
    (hl : magGt m e (largest f).1 (largest f).2 = false) : roundFloat f neg m e mode sat n = (packMag f neg m e, n) := by
  unfold roundFloat
  rw [draw_of_lt hm, if_neg h0]
  dsimp only
  rw [hk, roundTo_exact, hl, if_neg Bool.false_ne_true, if_neg Bool.false_ne_true, raise_zero]

theorem roundFloat_zero (f : FFmt) (neg : Bool) (e : Int) {mode : Nat} (sat : Bool) (n : NumSt) (hm : mode < 5) :
    roundFloat f neg 0 e mode sat n = (fld (b2n neg) (f.eb + f.fb), n) := by
  unfold roundFloat
  rw [draw_of_lt hm, if_pos rfl, packMag, if_pos rfl]

/-- A subnormal magnitude packs into its fraction. -/
theorem packMag_subnormal (f : FFmt) (neg : Bool) {m : Nat} (h0 : m ≠ 0) (hm : m < 2 ^ f.fb) :
    packMag f neg m (1 - (f.bias : Int) - f.fb) = fld (b2n neg) (f.eb + f.fb) + m := by
  have hb := bitLen_le hm
  unfold packMag
  dsimp only
  rw [if_neg h0, if_pos (by omega), sub_self]
  simp

/-- A normal magnitude packs into its exponent field and fraction. -/
theorem packMag_normal (f : FFmt) (neg : Bool) {x m : Nat} (hx : 1 ≤ x) (hm : m < 2 ^ f.fb) :
    packMag f neg (2 ^ f.fb + m) ((x : Int) - f.bias - f.fb) = fld (b2n neg) (f.eb + f.fb) + x * 2 ^ f.fb + m := by
  have hb : bitLen (2 ^ f.fb + m) = f.fb + 1 := bitLen_eq (Nat.le_add_right ..) (by rw [Nat.pow_succ]; omega)
  have h0 : 2 ^ f.fb + m ≠ 0 := by have := Nat.two_pow_pos f.fb; omega
  have hp : (f.fb : Int) + 1 - 1 + ((x : Int) - f.bias - f.fb) + f.bias = x := by omega
  unfold packMag
  dsimp only
  rw [if_neg h0, hb, if_neg (by push_cast; omega), if_pos (by push_cast; omega)]
  push_cast
  rw [hp, show (f.fb : Int) + 1 - 1 - f.fb = 0 by omega]
  simp

theorem magGt_false {m m' : Nat} {k k' : Int} (hk : k ≤ k') (hm : m ≤ m') : magGt m k m' k' = false := by
  have hp : 0 < 2 ^ (k' - k).toNat := Nat.two_pow_pos _
  have : m' * 1 ≤ m' * 2 ^ (k' - k).toNat := Nat.mul_le_mul_left m' hp
  unfold magGt
  split
  · next h => rw [decide_eq_false_iff_not, show k = k' by omega]; simp; omega
  · rw [decide_eq_false_iff_not]; omega

theorem magGt_false_of_lt {m m' : Nat} {k k' : Int} (hk : k < k') (hm : m ≤ m' * 2) : magGt m k m' k' = false := by
  have hp : 2 ^ 1 ≤ 2 ^ (k' - k).toNat := Nat.pow_le_pow_right two_pos (by omega)
  have : m' * 2 ^ 1 ≤ m' * 2 ^ (k' - k).toNat := Nat.mul_le_mul_left m' hp
  unfold magGt
  rw [if_neg (by omega), decide_eq_false_iff_not]
  omega

/-- The magnitude of a finite pattern, of exponent field `x` or of a subnormal's field 1, is at most the largest. -/
theorem magGt_largest {f : FFmt} (hf : f.Named) {x m : Nat} (h1 : 1 ≤ x) (hx : x < 2 ^ f.eb) (hm : m < 2 ^ (f.fb + 1))
    (hinf : ¬ (f.kind = 0 ∧ x = 2 ^ f.eb - 1)) (hnan : ¬ (f.kind = 1 ∧ x = 15 ∧ m = 15)) :
    magGt m ((x : Int) - f.bias - f.fb) (largest f).1 (largest f).2 = false := by
  obtain ⟨heb, hk | ⟨hk, he4, hf3⟩ | hk⟩ := hf
  · rw [largest, if_pos hk]
    have : x ≠ 2 ^ f.eb - 1 := fun h => hinf ⟨hk, h⟩
    exact magGt_false (by dsimp only; omega) (by dsimp only; omega)
  · have hx15 : x < 2 ^ 4 := he4 ▸ hx
    have hm16 : m < 2 ^ 4 := by rw [hf3] at hm; exact hm
    rw [largest, if_neg (by omega), if_pos hk, he4, hf3]
    by_cases h15 : x = 15
    · exact magGt_false (by dsimp only; omega) (by dsimp only; omega)
    · exact magGt_false_of_lt (by dsimp only; omega) (by dsimp only; omega)
  · rw [largest, if_neg (by omega), if_neg (by omega)]
    exact magGt_false (by dsimp only; omega) (by dsimp only; omega)

theorem exponentField_lt {f : FFmt} (hf : f.Named) (p : Nat) : bits p (f.eb + f.fb - 1) f.fb < 2 ^ f.eb := by
  have h2 : 2 ≤ f.eb := hf.1
  rw [bits, show f.eb + f.fb - 1 + 1 - f.fb = f.eb by omega]
  exact Nat.mod_lt _ (Nat.two_pow_pos _)

/-- A subnormal magnitude, or a zero, is rounded to its pattern. -/
theorem roundFloat_subnormal {f : FFmt} (hf : f.Named) (neg : Bool) {m mode : Nat} (sat : Bool) (n : NumSt) (hmode : mode < 5) (hm : m < 2 ^ f.fb) :
    roundFloat f neg m (1 - (f.bias : Int) - f.fb) mode sat n = (fld (b2n neg) (f.eb + f.fb) + m, n) := by
  by_cases h0 : m = 0
  · rw [h0, roundFloat_zero f neg _ sat n hmode]
    rfl
  · have hb := bitLen_le hm
    have h2 : 2 ^ 2 ≤ 2 ^ f.eb := Nat.pow_le_pow_right two_pos hf.1
    have hl := magGt_largest hf (x := 1) (m := m) le_rfl (by omega) (by rw [Nat.pow_succ]; omega) (by omega) (by omega)
    rw [Nat.cast_one] at hl
    rw [roundFloat_exact f neg sat n hmode h0 (by rw [if_pos (by omega)]) hl, packMag_subnormal f neg h0 hm]

/-- A normal magnitude is rounded to its pattern. -/
theorem roundFloat_normal {f : FFmt} (hf : f.Named) (neg : Bool) {x m mode : Nat} (sat : Bool) (n : NumSt) (hmode : mode < 5) (h1 : 1 ≤ x)
    (hx : x < 2 ^ f.eb) (hm : m < 2 ^ f.fb) (hinf : ¬ (f.kind = 0 ∧ x = 2 ^ f.eb - 1)) (hnan : ¬ (f.kind = 1 ∧ x = 15 ∧ m = 7)) :
    roundFloat f neg (2 ^ f.fb + m) ((x : Int) - f.bias - f.fb) mode sat n = (fld (b2n neg) (f.eb + f.fb) + x * 2 ^ f.fb + m, n) := by
  have hb : bitLen (2 ^ f.fb + m) = f.fb + 1 := bitLen_eq (Nat.le_add_right ..) (by rw [Nat.pow_succ]; omega)
  have h0 : 2 ^ f.fb + m ≠ 0 := by have := Nat.two_pow_pos f.fb; omega
  have hnan' : ¬ (f.kind = 1 ∧ x = 15 ∧ 2 ^ f.fb + m = 15) := by
    rintro ⟨hk, h15, hm15⟩
    obtain ⟨-, h | ⟨-, -, hf3⟩ | h⟩ := hf
    · omega
    · rw [hf3] at hm15
      exact hnan ⟨hk, h15, by omega⟩
    · omega
  have hl := magGt_largest hf h1 hx (m := 2 ^ f.fb + m) (by rw [Nat.pow_succ]; omega) hinf hnan'
  rw [roundFloat_exact f neg sat n hmode h0 (by rw [hb, if_neg (by push_cast; omega)]; push_cast; omega) hl, packMag_normal f neg h1 hm]

/-- A finite floating-point pattern's value is rounded to the pattern. -/
theorem roundTrip_float {f : FFmt} (hf : f.Named) {p mode : Nat} (sat : Bool) (n : NumSt) (hp : p < 2 ^ (f.eb + f.fb + 1)) (hm : mode < 5)
    (hfin : Claims.Finite (floatVal f p)) : toFloat f (floatVal f p) mode sat n = (p, n) := by
  have hsplit := pattern_eq hf.1 hp
  have hfrac : p % 2 ^ f.fb < 2 ^ f.fb := Nat.mod_lt _ (Nat.two_pow_pos _)
  unfold floatVal at hfin ⊢
  dsimp only at hfin ⊢
  have hfield := exponentField_lt hf p
  generalize bitAt p (f.eb + f.fb) = neg at *
  generalize bits p (f.eb + f.fb - 1) f.fb = x at *
  generalize p % 2 ^ f.fb = m at *
  split at hfin
  · split at hfin <;> exact absurd hfin id
  · next hinf =>
    rw [if_neg hinf]
    split at hfin
    · exact absurd hfin id
    · next hnan =>
      rw [if_neg hnan]
      split
      · next hx =>
        refine (roundFloat_subnormal hf neg sat n hm hfrac).trans ?_
        rw [hsplit, hx, Nat.zero_mul, Nat.add_zero]
      · next hx =>
        refine (roundFloat_normal hf neg sat n hm (Nat.one_le_iff_ne_zero.mpr hx) hfield hfrac hinf hnan).trans ?_
        rw [hsplit]

/-- An integer within its format's range is rounded to its pattern. -/
theorem roundTrip_int (w : Nat) (sg : Bool) {i : Int} {mode : Nat} (n : NumSt) (hm : mode < 5) (hmin : intMin w sg ≤ i) (hmax : i ≤ intMax w sg) :
    toInt w sg (intVal i) mode n = (wrap w i, n) := by
  have hv : (if decide (i < 0) = true then -(i.natAbs : Int) else i.natAbs) = i := by
    by_cases h : i < 0
    · rw [if_pos (decide_eq_true h)]; omega
    · rw [if_neg (by simpa using h)]; omega
  show roundInt w sg (decide (i < 0)) i.natAbs 0 mode n = _
  unfold roundInt
  rw [draw_of_lt hm]
  dsimp only
  rw [roundTo_exact, hv, if_neg (by omega), if_neg (by omega), if_neg Bool.false_ne_true, raise_zero]

theorem wrap_ofNat {w p : Nat} (hp : p < 2 ^ w) : wrap w p = p := by
  unfold wrap
  rw [← Int.natCast_emod, Int.toNat_natCast, Nat.mod_eq_of_lt hp]

/-- A signed pattern's integer lies in its format's range and wraps to the pattern. -/
theorem signed_spec {w p : Nat} (hw : 1 ≤ w) (hp : p < 2 ^ w) : intMin w true ≤ signed w p ∧ signed w p ≤ intMax w true ∧ wrap w (signed w p) = p := by
  have h2 : 2 ^ w = 2 * 2 ^ (w - 1) := by rw [← Nat.pow_succ', Nat.succ_eq_add_one, Nat.sub_add_cancel hw]
  unfold signed intMin intMax
  dsimp only
  rw [Nat.mod_eq_of_lt hp, if_pos rfl, if_pos rfl]
  split
  · exact ⟨by omega, by omega, wrap_ofNat hp⟩
  · refine ⟨by omega, by omega, ?_⟩
    unfold wrap
    rw [Int.sub_emod_right, ← Int.natCast_emod, Int.toNat_natCast, Nat.mod_eq_of_lt hp]

/-- Every code up to 16 names a floating-point or an integer format. -/
theorem format_cases {fmt : Nat} (h : fmt ≤ 16) :
    (∃ f, floatFmt fmt = some f) ∨ floatFmt fmt = none ∧ ∃ w sg, intFmt fmt = some (w, sg) ∧ 1 ≤ w ∧ elemBits fmt = w := by
  interval_cases fmt
  all_goals first | exact .inl ⟨_, rfl⟩ | exact .inr ⟨rfl, _, _, rfl, by decide, rfl⟩

/-- Settles O21. -/
theorem formatsRoundTrip : Obligations.FormatsRoundTrip := by
  intro fmt p mode sat n hfmt hp hm hfin
  obtain ⟨f, hf⟩ | ⟨hf, w, sg, hw, hw1, hbits⟩ := format_cases hfmt
  · obtain ⟨named, hbits⟩ := named_of_floatFmt hf
    unfold valueOf at hfin
    simp only [hf] at hfin
    simp only [convert, valueOf, hf]
    exact roundTrip_float named sat n (hbits ▸ hp) hm hfin
  · rw [hbits] at hp
    cases sg with
    | true =>
      obtain ⟨hmin, hmax, hwrap⟩ := signed_spec hw1 hp
      simp only [convert, valueOf, hf, hw]
      rw [roundTrip_int w true n hm hmin hmax, hwrap]
    | false =>
      simp only [convert, valueOf, hf, hw]
      rw [Nat.mod_eq_of_lt hp, roundTrip_int w false n hm (by simp [intMin]) (by simp only [intMax, if_neg Bool.false_ne_true]; omega), wrap_ofNat hp]

end Sys2Proof.Machine
end

section
/-! SUPPORT. Local loads and stores, their addresses and their frame (R189 to R194, R208, R302). -/

namespace Sys2Proof.Machine

open Sys2Proof.Claims

/-! ## Local accesses (R208) -/

theorem ofBytes_lt (l : List Byte) : ofBytes l < 2 ^ (8 * l.length) := by
  induction l with
  | nil => simp [ofBytes]
  | cons b t ih =>
    have hb := b.isLt
    rw [ofBytes, List.length_cons, Nat.mul_succ, Nat.pow_add]
    omega

theorem extend_eq_loaded (sg : Bool) {n : Nat} {l : List Byte} (h : l.length = n) : extend sg n l = Claims.loaded sg n l := by
  subst h
  cases sg with
  | false => exact congrArg (BitVec.ofNat 128) (Nat.mod_eq_of_lt (ofBytes_lt l))
  | true => exact sext_eq_signExtend _ _

@[simp] theorem placeBytes_length (s : State) (p : Place) (n : Nat) : (placeBytes s p n).length = n := by
  cases p <;> exact memBytes_length ..

/-- The wait for a load's datum is a matter of time alone. -/
theorem still_awaitDatum_finish (s : State) : still (awaitDatum (finish s)) = still (completed s (cx s)) := by
  unfold awaitDatum
  have h := still_setCore_finish s (k := { core (finish s) s.cur with stallq := 10 }) (k' := completedCore s) (stillCore_core_finish s)
  rw [← completed_cx_eq] at h
  exact h

theorem addrImm_eq (s : State) (a : BitVec 6) (i : BitVec 10) (n : Nat) : addrImm a i n s = localAddr s a i n := by
  unfold addrImm localAddr wrap
  rw [signed_toNat, rn]
  push_cast
  rw [Int.emod_add_emod]

/-- A local access whose checks pass. -/
theorem localAccess_of_ok {s : State} {va n need : Nat} {p : Place} (h : LocalOk s va n need p) (f : Place → State → Out) :
    localAccess va n need f s = f p s := by
  obtain ⟨aligned, place, unwatched⟩ := h
  unfold localAccess
  rw [if_neg (not_not.mpr aligned), place]
  dsimp only
  unfold watched
  rw [unwatched]

theorem value_loadLocal (d : BitVec 6) {va n : Nat} (sg : Bool) {s : State} {p : Place} (h : LocalOk s va n 1 p) :
    Value (loadLocal d va n sg s) (readClock s.cur p n s) d (Claims.loaded sg n (placeBytes s p n)) := by
  rw [loadLocal, permR, localAccess_of_ok h, extend_eq_loaded sg (placeBytes_length s p n)]
  refine ⟨_, rfl, (still_awaitDatum_finish _).trans ?_⟩
  rw [putWord, cx_putReg, putReg, completed_setCx]

theorem completes_storeLocal (d : BitVec 6) {va n : Nat} {s : State} {p : Place} (h : LocalOk s va n 2 p) :
    Completes (storeLocal d va n s) (Claims.stored s p n d) := by
  rw [storeLocal, permW, localAccess_of_ok h]
  exact completes_finish _

/-- A local access that is not aligned to its size. -/
theorem localAccess_misaligned {s : State} {va n : Nat} (need : Nat) (h : va % n ≠ 0) (f : Place → State → Out) :
    localAccess va n need f s = .next (trapAt 0x10 va s) := if_pos h

theorem exec_localLoads (s : State) (d a : BitVec 6) (i : BitVec 10) :
    ∀ l ∈ localLoads d a i, exec l.1 s = loadLocal d (localAddr s a i l.2.1) l.2.1 l.2.2 s := by
  simp only [localLoads, List.forall_mem_cons, ← addrImm_eq]
  exact ⟨rfl, rfl, rfl, rfl, rfl, rfl, rfl, rfl, rfl, List.forall_mem_nil _⟩

theorem exec_localStores (s : State) (d a : BitVec 6) (i : BitVec 10) :
    ∀ l ∈ localStores d a i, exec l.1 s = storeLocal d (localAddr s a i l.2) l.2 s := by
  simp only [localStores, List.forall_mem_cons, ← addrImm_eq]
  exact ⟨rfl, rfl, rfl, rfl, rfl, List.forall_mem_nil _⟩

theorem loadShape_of_indexedLoads : ∀ l ∈ indexedLoads, loadShape l.1.toNat = l.2 := by decide

theorem two_pow_of_indexedStores : ∀ l ∈ indexedStores, 2 ^ l.1.toNat = l.2 := by decide

theorem exec_indexedLoads (s : State) (d a b : BitVec 6) :
    ∀ l ∈ indexedLoads, exec (.ldIndexed d a b l.1) s = loadLocal d (((rv s a).toNat + (rv s b).toNat) % 2 ^ 32) l.2.1 l.2.2 s := by
  intro l hl
  rw [← loadShape_of_indexedLoads l hl]
  rfl

theorem exec_indexedStores (s : State) (d a b : BitVec 6) :
    ∀ l ∈ indexedStores, exec (.stIndexed d a b l.1) s = storeLocal d (((rv s a).toNat + (rv s b).toNat) % 2 ^ 32) l.2 s := by
  intro l hl
  rw [← two_pow_of_indexedStores l hl]
  rfl

/-- Settles O23. -/
theorem localLoadsAndStores : Obligations.LocalLoadsAndStores := by
  refine ⟨fun s d a b i p => ⟨fun l hl h => ?_, fun l hl h => ?_⟩, fun s d a b i p => ⟨fun l hl h => ?_, fun l hl h => ?_⟩⟩
  · rw [exec_localLoads s d a i l hl]
    exact value_loadLocal d l.2.2 h
  · rw [exec_indexedLoads s d a b l hl]
    exact value_loadLocal d l.2.2 h
  · rw [exec_localStores s d a i l hl]
    exact completes_storeLocal d h
  · rw [exec_indexedStores s d a b l hl]
    exact completes_storeLocal d h

/-! ## The frame of a store (R208, R302) -/

theorem setLocationClock_eq (pa n : Nat) (clk : List Nat) (s : State) : ∃ l, setLocationClock pa n clk s = { s with locClock := l } := by
  unfold setLocationClock
  split
  · exact ⟨s.locClock, rfl⟩
  · next h =>
    clear h
    generalize List.range n = l
    induction l generalizing s with
    | nil => exact ⟨s.locClock, rfl⟩
    | cons i t ih =>
      obtain ⟨l, hl⟩ := ih { s with locClock := if clk.all (· == 0) then tdel s.locClock (pa + i) else tset s.locClock (pa + i) clk }
      exact ⟨l, hl⟩

/-- Noting a write at a bank's place changes clocks and that bank. -/
theorem noteWriteBy_bank (d src kind i n : Nat) (s : State) :
    ∃ l b, noteWriteBy d src kind (.bank i) n s = { s with locClock := l, banks := b } ∧ ∀ gb, gb ≠ i / 32768 → tget b gb {} = tget s.banks gb {} := by
  obtain ⟨l, hl⟩ := setLocationClock_eq (Place.bank i).loc n (die s d).vc s
  unfold noteWriteBy
  rw [hl]
  dsimp only
  split
  · refine ⟨l, _, rfl, fun gb h => ?_⟩
    dsimp only
    rw [tget_tset, if_neg (Ne.symm h)]
  · exact ⟨l, s.banks, rfl, fun _ _ => rfl⟩

/-- Noting a write at the Nolorn SRAM changes clocks alone. -/
theorem noteWriteBy_sram (d src kind i n : Nat) (s : State) : ∃ l, noteWriteBy d src kind (.sram i) n s = { s with locClock := l } :=
  setLocationClock_eq ..

theorem getD_toBytes {n k : Nat} (v : Nat) (h : k < n) : (toBytes n v).getD k 0 = BitVec.ofNat 8 (v / 256 ^ k) := by
  induction n generalizing v k with
  | zero => omega
  | succ n ih =>
    cases k with
    | zero => simp [toBytes]
    | succ k =>
      rw [toBytes, List.getD_cons_succ, ih _ (by omega), Nat.div_div_eq_div_mul, ← Nat.pow_succ']

/-- Each stored byte reads as written, and every other as before. -/
theorem memGet_memPut_toBytes {m : List Host.Cell} (h : Memory.wf m = true) (a n v j : Nat) :
    memGet (memPut m a (toBytes n v)) j = if a ≤ j ∧ j < a + n then BitVec.ofNat 8 (v / 256 ^ (j - a)) else memGet m j := by
  rw [memGet_memPut _ _ _ _ h, toBytes_length]
  split
  · next hj => exact getD_toBytes v (by omega)
  · rfl

theorem reg_advance (x : Ctx) (m : Nat) : reg x.advance m = reg x m := rfl

/-- Settles O24. -/
theorem localStoreFrame : Obligations.LocalStoreFrame := by
  intro s p n d hw t v byte
  have hcx : ∀ u : State, cx u = cx s → ∀ m, reg (cx (completed u (cx u))) m = reg (cx s) m := by
    intro u hu m
    rw [cx_completed, reg_advance, hu]
  have hwf : memoriesWf t = true := writePlace_memoriesWf s.cur 0 p _ s hw
  obtain ⟨-, bank, -, sram⟩ := (memoriesWf_iff s).mp hw
  cases p with
  | bank i =>
    obtain ⟨l, b, hn, hb⟩ := noteWriteBy_bank (dieOf s.cur) (coreName s.cur) 0 i (toBytes n v).length (putPlace (.bank i) (toBytes n v) s)
    have ht : t = completed (noteWriteBy (dieOf s.cur) (coreName s.cur) 0 (.bank i) (toBytes n v).length (putPlace (.bank i) (toBytes n v) s))
      (cx (noteWriteBy (dieOf s.cur) (coreName s.cur) 0 (.bank i) (toBytes n v).length (putPlace (.bank i) (toBytes n v) s))) := rfl
    rw [hn] at ht
    clear_value t
    subst ht
    refine ⟨fun k hk => ?_, fun _ hk => Place.noConfusion hk, rfl, rfl, rfl, hcx _ rfl, hwf⟩
    obtain rfl : i = k := Place.bank.inj hk
    exact ⟨fun j => memGet_memPut_toBytes bank i n v j, rfl, hb⟩
  | sram i =>
    obtain ⟨l, hn⟩ := noteWriteBy_sram (dieOf s.cur) (coreName s.cur) 0 i (toBytes n v).length (putPlace (.sram i) (toBytes n v) s)
    have ht : t = completed (noteWriteBy (dieOf s.cur) (coreName s.cur) 0 (.sram i) (toBytes n v).length (putPlace (.sram i) (toBytes n v) s))
      (cx (noteWriteBy (dieOf s.cur) (coreName s.cur) 0 (.sram i) (toBytes n v).length (putPlace (.sram i) (toBytes n v) s))) := rfl
    rw [hn] at ht
    clear_value t
    subst ht
    refine ⟨fun _ hk => Place.noConfusion hk, fun k hk => ?_, rfl, rfl, rfl, hcx _ rfl, hwf⟩
    obtain rfl : i = k := Place.sram.inj hk
    exact ⟨fun j => memGet_memPut_toBytes sram i n v j, rfl, rfl⟩

/-! ## Where a local address lies (R189, R192, R194, R380) -/

/-- The slot window of an ordinary core. -/
theorem localMap_slot (s : State) {c va : Nat} (need : Nat) (sup : Bool) (x : Ctx) (hc : c < 4096) (hv : va < 0x200000) :
    localMap s c sup x va need true = slotPlace c x va need true := by
  rw [localMap, if_neg (by unfold nolornCore; omega), clusterOf, if_pos hc]
  exact if_pos hv

theorem staged_of_no_group {x : Ctx} (h : x.tx = none) (slot : Nat) : x.staged slot = false := by
  rw [Ctx.staged, h]

/-- A slot that no open group stages. -/
theorem slotPlace_unstaged (c : Nat) {x : Ctx} {va : Nat} (need : Nat) (h : x.staged (va / 32768) = false) :
    slotPlace c x va need true =
      if !(entry x (va / 32768)).valid || (entry x (va / 32768)).st == 3 then .bad 0x13
      else if (entry x (va / 32768)).st == 1 then .wait
      else if permits (entry x (va / 32768)).perm need then .ok (.bank (bankPlace (bankOf c (entry x (va / 32768)).bank) (va % 32768)))
      else .bad 0x14 := by
  simp only [slotPlace, h, Bool.and_false, Bool.and_true, Bool.false_eq_true, if_false]

section
variable {c : Nat} {x : Ctx} {va need : Nat} (hs : x.staged (va / 32768) = false)
include hs

theorem slotPlace_detached (h : (entry x (va / 32768)).valid = false ∨ (entry x (va / 32768)).st = 3) : slotPlace c x va need true = .bad 0x13 := by
  rw [slotPlace_unstaged c need hs, if_pos (by simpa using h)]

variable (hv : (entry x (va / 32768)).valid = true)
include hv

theorem slotPlace_draining (h : (entry x (va / 32768)).st = 1) : slotPlace c x va need true = .wait := by
  rw [slotPlace_unstaged c need hs, if_neg (by simp [hv, h]), if_pos (by simp [h])]

variable (h1 : (entry x (va / 32768)).st ≠ 1) (h3 : (entry x (va / 32768)).st ≠ 3)
include h1 h3

theorem slotPlace_attached : slotPlace c x va need true =
    if permits (entry x (va / 32768)).perm need then .ok (.bank (bankPlace (bankOf c (entry x (va / 32768)).bank) (va % 32768))) else .bad 0x14 := by
  rw [slotPlace_unstaged c need hs, if_neg (by simp [hv, h3]), if_neg (by simp [h1])]

end

theorem completes_trapAt_user (cause addr : Nat) (s : State) (hu : onSup s = false) (hv : (curCore s).tvec % 2 = 1) :
    Completes (.next (trapAt cause addr s)) (userTrapped s cause (causeClass cause) (BitVec.ofNat 128 addr)) :=
  (traps_trapVal cause (BitVec.ofNat 128 addr) s hv).1 hu

/-- Settles O25. -/
theorem localAddressesAndAlignment : Obligations.LocalAddressesAndAlignment := by
  constructor
  · intro s c va need sup x e
    refine ⟨?_, ?_, ?_, ?_, ?_, ?_, ?_, ?_⟩
    · intro hc hva ht valid h1 h3 hp
      rw [localMap_slot s need sup x hc hva, slotPlace_attached (staged_of_no_group ht _) valid h1 h3]
      exact if_pos (beq_iff_eq.mpr hp)
    · intro hc hva ht h
      rw [localMap_slot s need sup x hc hva, slotPlace_detached (staged_of_no_group ht _) h]
    · intro hc hva ht valid h1
      rw [localMap_slot s need sup x hc hva, slotPlace_draining (staged_of_no_group ht _) valid h1]
    · intro hc hva ht valid h1 h3 hp
      rw [localMap_slot s need sup x hc hva, slotPlace_attached (staged_of_no_group ht _) valid h1 h3]
      exact if_neg (mt beq_iff_eq.mp hp)
    · intro hc hva hstaged
      rw [localMap_slot s need sup x hc hva, slotPlace, hstaged]
      rfl
    · intro hc hlo hhi
      rw [localMap, if_neg (by unfold nolornCore; omega), clusterOf, if_pos hc]
      exact (if_neg (by omega)).trans (if_neg (by omega))
    · intro hva
      exact (if_pos (show 4208 = nolornCore from rfl)).trans (if_pos hva)
    · intro hva
      exact (if_pos (show 4208 = nolornCore from rfl)).trans ((if_neg (by omega)).trans (if_neg (by omega)))
  · intro s d a i hu hv
    refine ⟨fun l hl h => ?_, fun l hl h => ?_⟩
    · rw [exec_localLoads s d a i l hl, loadLocal, localAccess_misaligned permR h]
      exact completes_trapAt_user 0x10 _ s hu hv
    · rw [exec_localStores s d a i l hl, storeLocal, localAccess_misaligned permW h]
      exact completes_trapAt_user 0x10 _ s hu hv

end Sys2Proof.Machine
end

section
/-! SUPPORT. Global loads, stores and atomics (R216 to R232). -/

namespace Sys2Proof.Machine

open Sys2Proof.Claims

/-! ## The checks of a global access (R228) -/

theorem wrap52_eq (i : Int) : wrap 52 i = (i % 2 ^ 52).toNat := by
  unfold wrap
  norm_num

/-- A global access whose checks pass. -/
theorem globalAccess_of_ok {s t : State} {a : BitVec 6} {off : Int} {n pa : Nat} {rd wr : Bool} {perm perm' : Nat → Bool}
    (h : GlobalOk s a off n rd wr perm pa t) (hp : ∀ c, perm' c = perm c) (f : Nat → State → Out) :
    globalAccess a off n rd wr perm' f s = f pa t := by
  obtain ⟨tagged, unsealed, permitted, inside, aligned, outside, translated, phys, unwatched⟩ := h
  rw [← wrap52_eq] at aligned outside translated unwatched
  unfold globalAccess
  dsimp only
  rw [show rn s a = (rv s a).toNat from rfl, if_neg (by rw [tagged]; decide), if_neg (not_not.mpr unsealed), if_neg (by rw [hp, permitted]; decide), if_neg (by rw [inside]; decide),
    if_neg (not_not.mpr aligned), if_neg (by rw [outside]; decide)]
  rw [translated]
  dsimp only
  rw [if_neg (by rw [phys]; decide), watched, unwatched]

theorem getLsbD_toNat (v : Word) (i : Nat) : bitAt v.toNat i = v.getLsbD i := by
  rw [bitAt_eq_testBit, BitVec.testBit_toNat]

theorem completes_loadGlobal (d : BitVec 6) {s t : State} {a : BitVec 6} {off : Int} {n pa : Nat} (sg : Bool)
    (h : GlobalOk s a off n true false capLD pa t) : Completes (loadGlobal d a off n sg s) (loadPosted t d a pa n sg) := by
  rw [loadGlobal, globalAccess_of_ok h fun _ => rfl]
  dsimp only
  rw [capLC, rn, getLsbD_toNat]
  exact completes_finish _

theorem completes_storeGlobal (d : BitVec 6) {s t : State} {a : BitVec 6} {off : Int} {n pa : Nat}
    (h : GlobalOk s a off n false true capSD pa t) : Completes (storeGlobal d a off n s) (storePosted t d a pa n) := by
  rw [storeGlobal, globalAccess_of_ok h fun _ => rfl]
  dsimp only
  rw [capSC, rn, rn, getLsbD_toNat]
  exact completes_finish _

theorem completes_atomic (op : Nat) (d b : BitVec 6) {s t : State} {a : BitVec 6} {n pa : Nat} (ret : Bool) {perm : Nat → Bool}
    (hp : ∀ c, (capAT c && capSD c && (!ret || capLD c)) = perm c) (h : GlobalOk s a 0 n true true perm pa t) :
    Completes (atomic op d a b n ret s) (amoPosted t op d a b pa n ret) := by
  rw [atomic, globalAccess_of_ok h hp]
  dsimp only
  rw [capSC, capLC, rn, getLsbD_toNat, getLsbD_toNat]
  exact completes_finish _

/-! ## The words (R228, R230) -/

theorem dispImm_eq (i : BitVec 10) (n : Nat) : dispImm i n = i.toInt * n := by rw [dispImm, signed_toNat]

theorem exec_globalLoads (s : State) (d a : BitVec 6) (i : BitVec 10) :
    ∀ l ∈ globalLoads d a i, exec l.1 s = loadGlobal d a (i.toInt * l.2.1) l.2.1 l.2.2 s := by
  simp only [globalLoads, List.forall_mem_cons, ← dispImm_eq]
  exact ⟨rfl, rfl, rfl, rfl, rfl, rfl, rfl, rfl, rfl, List.forall_mem_nil _⟩

theorem exec_globalStores (s : State) (d a : BitVec 6) (i : BitVec 10) :
    ∀ l ∈ globalStores d a i, exec l.1 s = storeGlobal d a (i.toInt * l.2) l.2 s := by
  simp only [globalStores, List.forall_mem_cons, ← dispImm_eq]
  exact ⟨rfl, rfl, rfl, rfl, rfl, List.forall_mem_nil _⟩

theorem exec_ldxIndexed (s : State) (d a b : BitVec 6) :
    ∀ l ∈ indexedLoads, exec (.ldxIndexed d a b l.1) s = loadGlobal d a (rv s b).toInt l.2.1 l.2.2 s := by
  intro l hl
  rw [← loadShape_of_indexedLoads l hl, ← signed_toNat]
  rfl

theorem exec_stxIndexed (s : State) (d a b : BitVec 6) :
    ∀ l ∈ indexedStores, exec (.stxIndexed d a b l.1) s = storeGlobal d a (rv s b).toInt l.2 s := by
  intro l hl
  rw [← two_pow_of_indexedStores l hl, ← signed_toNat]
  rfl

theorem exec_atomics (s : State) (d a b : BitVec 6) (n : BitVec 2) :
    ∀ l ∈ atomics d a b n, exec l.1 s = atomic l.2 d a b (2 ^ (n.toNat + 2)) true s := by
  simp only [atomics, List.forall_mem_cons]
  exact ⟨rfl, rfl, rfl, rfl, rfl, rfl, rfl, rfl, rfl, rfl, List.forall_mem_nil _⟩

/-- Settles O26. -/
theorem globalLoadsAndStores : Obligations.GlobalLoadsAndStores := by
  intro s t d a b i pa byReg
  refine ⟨fun l hl h => ?_, fun l hl h => ?_, fun l hl h => ?_, fun l hl h => ?_⟩
  · rw [exec_globalLoads s d a i l hl]
    exact completes_loadGlobal d l.2.2 h
  · rw [exec_ldxIndexed s d a b l hl]
    exact completes_loadGlobal d l.2.2 h
  · rw [exec_globalStores s d a i l hl]
    exact completes_storeGlobal d h
  · rw [exec_stxIndexed s d a b l hl]
    exact completes_storeGlobal d h

/-! ## Atomics whose addresses are not translated (R221, R231) -/

theorem translate_of_untranslated {s : State} (va : Nat) (rd wr : Bool) (h : translates s (cx s) = none) : translate va rd wr s = .ok va s := by
  rw [translate, h]

theorem wrap_capAddr (c : Nat) : (((capAddr c : Nat) : Int) + 0) % 2 ^ 52 = capAddr c := by
  have h : capAddr c < 2 ^ 52 := Nat.mod_lt _ (by norm_num)
  rw [Int.add_zero]
  omega

theorem globalOk_of_direct {s : State} {a : BitVec 6} {n : Nat} {perm : Nat → Bool} (h : DirectOk s a n perm) :
    GlobalOk s a 0 n true true perm (capAddr (rv s a).toNat) s := by
  obtain ⟨tagged, unsealed, permitted, inside, aligned, outside, untranslated, phys, unwatched⟩ := h
  unfold GlobalOk
  dsimp only
  rw [wrap_capAddr, Int.toNat_natCast, Int.add_zero]
  exact ⟨tagged, unsealed, permitted, inside, aligned, outside, translate_of_untranslated _ _ _ untranslated, phys, unwatched⟩

section
variable {s t : State} {d a b : BitVec 6} {n : BitVec 2} {pa : Nat}

theorem completes_atomics (h : GlobalOk s a 0 (2 ^ (n.toNat + 2)) true true (fun c => capAT c && capSD c && capLD c) pa t) :
    ∀ l ∈ atomics d a b n, Completes (exec l.1 s) (amoPosted t l.2 d a b pa (2 ^ (n.toNat + 2)) true) := by
  intro l hl
  rw [exec_atomics s d a b n l hl]
  exact completes_atomic l.2 d b true (fun _ => rfl) h

theorem completes_radd (h : GlobalOk s a 0 (2 ^ (n.toNat + 2)) true true (fun c => capAT c && capSD c) pa t) :
    Completes (exec (.radd a b n) s) (amoPosted t 0 0 a b pa (2 ^ (n.toNat + 2)) false) :=
  completes_atomic 0 0 b false (fun _ => Bool.and_true _) h

theorem completes_fradd (h : GlobalOk s a 0 4 true true (fun c => capAT c && capSD c) pa t) :
    Completes (exec (.fradd a b) s) (amoPosted t 10 0 a b pa 4 false) :=
  completes_atomic 10 0 b false (fun _ => Bool.and_true _) h

end

/-- Settles O27. -/
theorem atomicsPosted : Obligations.AtomicsPosted := by
  intro s t d a b n pa size
  refine ⟨fun l hl h => completes_atomics h l hl, completes_radd, completes_fradd, ?_, fun h => completes_radd (globalOk_of_direct h),
    fun h => completes_fradd (globalOk_of_direct h)⟩
  intro h posted
  have hall := completes_atomics (d := d) (b := b) (globalOk_of_direct h)
  simp only [atomics, List.forall_mem_cons] at hall
  obtain ⟨aadd, amin, amax, aminu, amaxu, aand, aor, axor, aswp, acas, -⟩ := hall
  exact ⟨aadd, fun u => by cases u; exacts [⟨amin, amax⟩, ⟨aminu, amaxu⟩], aand, aor, axor, aswp, acas⟩

/-! ## What an atomic leaves (R230, R231) -/

/-- An atomic that picks one of two values. -/
theorem ofNat_ite_toNat {w : Nat} (p : Prop) [Decidable p] (x y : BitVec w) :
    BitVec.ofNat w (if p then y.toNat else x.toNat) = if p then y else x := by
  split <;> simp

/-- Settles O29. -/
theorem atomicResults : Obligations.AtomicResults := by
  intro n x y cmp _ r
  have result : ∀ op, r op = BitVec.ofNat (8 * n) (amoResult op n x.toNat y.toNat cmp.toNat) := fun _ => rfl
  refine ⟨?_, ?_, ?_, ?_, ?_, ?_, ?_, ?_, ?_, ?_⟩
  · apply BitVec.eq_of_toNat_eq
    simp [result, amoResult]
  · rw [result, amoResult, signed_toNat, signed_toNat, ofNat_ite_toNat]
    simp only [BitVec.slt_iff_toInt_lt]
  · rw [result, amoResult, signed_toNat, signed_toNat, ofNat_ite_toNat]
    simp only [BitVec.slt_iff_toInt_lt]
  · rw [result, amoResult, show Nat.min x.toNat y.toNat = if y.toNat < x.toNat then y.toNat else x.toNat from ?_, ofNat_ite_toNat]
    · simp only [BitVec.ult, decide_eq_true_eq]
    · rw [show Nat.min x.toNat y.toNat = min x.toNat y.toNat from rfl]
      split <;> omega
  · rw [result, amoResult, show Nat.max x.toNat y.toNat = if x.toNat < y.toNat then y.toNat else x.toNat from ?_, ofNat_ite_toNat]
    · simp only [BitVec.ult, decide_eq_true_eq]
    · rw [show Nat.max x.toNat y.toNat = max x.toNat y.toNat from rfl]
      split <;> omega
  · rw [result, amoResult, ← BitVec.toNat_and]; simp
  · rw [result, amoResult, ← BitVec.toNat_or]; simp
  · rw [result, amoResult, ← BitVec.toNat_xor]; simp
  · rw [result, amoResult]; simp
  · rw [result, amoResult, ofNat_ite_toNat]
    simp only [BitVec.toNat_inj]

/-! ## A wait of a core that is listed out of order (R228, R229) -/

/-- A user context of a region whose addresses stage one translates, with a capability of one byte in k1. -/
def walkingCore : Core :=
  { user := { regs := [(1, { val := BitVec.ofNat 128 (2 ^ 66 + 2 ^ 86), tag := true })], region := some { rcb := 0, prio := 0, fhimg := 0, fhent := 0, flog := 0, flogn := 0, acct := 0, tenant := 0, tmask := 0, vf := 0, pfn := 0, witbase := 0, witn := 0 } } }

/-- A machine that lists core 3 behind core 5. -/
def unorderedCores : State := { State.reset with cur := 3, cores := [(5, {}), (3, walkingCore)], funcs := [(0, { s1en := true })] }

theorem translate_unordered : ∃ t, translate 0 true false unorderedCores = .wait t ∧ t.cores = unorderedCores.cores ∧ t.cur = 3 := ⟨_, rfl, rfl, rfl⟩

/-- A word whose translation waits leaves the state of the walk that it joined or began, a cycle charged (R228). -/
theorem globalAccess_of_wait {s t : State} {a : BitVec 6} {off : Int} {n : Nat} {rd wr : Bool} {perm : Nat → Bool} {commit : Nat → State → Out}
    (htag : (rk s a).tag = true) (hseal : capSeal (rn s a) = 0) (hperm : perm (rn s a) = true)
    (hin : capIn (rn s a) (capAddr (rn s a) + off) n = true) (hal : wrap 52 (capAddr (rn s a) + off) % n = 0)
    (hcore : inCoreSpace (wrap 52 (capAddr (rn s a) + off)) = false)
    (ht : translate (wrap 52 (capAddr (rn s a) + off)) rd wr s = .wait t) :
    globalAccess a off n rd wr perm commit s = .next (wait 20 t) := by
  simp [globalAccess, htag, hseal, hperm, hin, hal, hcore, ht]

/-- Charging a waiting cycle to a core that is listed out of order lists it once more. -/
theorem length_cores_still_wait (c : Nat) {t : State} {k k' : Core} (hcores : t.cores = [(5, k), (3, k')]) (hcur : t.cur = 3) :
    (still (wait c t)).cores.length = 3 := by
  rw [still_wait]
  simp only [still, setCore, hcores, hcur, List.length_map]
  rfl

/-- A wait of a core that is listed out of order does not leave the state of before. -/
theorem not_completes_wait {o : Out} {c : Nat} {t : State} {k k' : Core} (ho : o = .next (wait c t)) (hcores : t.cores = [(5, k), (3, k')])
    (hcur : t.cur = 3) : ¬ Completes o t := by
  rintro ⟨u, hu, hstill⟩
  obtain rfl : wait c t = u := Host.Outcome.next.inj (ho.symm.trans hu)
  have same := congrArg (·.cores.length) hstill
  have two : (still t).cores.length = 2 := by
    simp only [still, List.length_map, hcores]
    rfl
  have : 3 = 2 := (length_cores_still_wait c hcores hcur).symm.trans (same.trans two)
  omega

/-- Refutes O28: a word whose translation waits charges its cycle to its core, which puts the core in its place in the list of cores; where
the list does not rise, that is not the list of before. -/
theorem not_globalChecksInOrder : ¬ Obligations.GlobalChecksInOrder := by
  intro h
  have checks := h unorderedCores 0 1 0 0 0 (.ldxBS 0 1 0, 0, 1, true, false, capLD) List.mem_cons_self
  obtain ⟨-, -, -, passed⟩ := checks
  obtain ⟨-, -, -, translated⟩ := passed rfl rfl rfl
  obtain ⟨waits, -⟩ := translated rfl rfl rfl
  obtain ⟨t, ht, hcores, hcur⟩ := translate_unordered
  have hexec : exec (.ldxBS 0 1 0) unorderedCores = .next (wait 20 t) :=
    (exec_globalLoads unorderedCores 0 1 0 (.ldxBS 0 1 0, 1, true) List.mem_cons_self).trans
      (globalAccess_of_wait rfl rfl rfl rfl rfl rfl ht)
  exact not_completes_wait hexec hcores hcur (waits t ht)

end Sys2Proof.Machine
end

section
/-! SUPPORT. Reset, decoded words and what a step runs (R120, R124, R135 to R141, R291). -/

namespace Sys2Proof.Machine

open Sys2Proof.Claims

/-! ## Decoding and reset -/

/-- Settles O58. -/
theorem decodedWords : Obligations.DecodedWords := by
  unfold Obligations.DecodedWords
  decide +kernel

/-- Settles O56. -/
theorem resetState : Obligations.ResetState := by
  intro c d cl n
  refine ⟨reset_memoriesWf, ?_⟩
  have fresh : ∀ x : Ctx, x = {} → (reg x n = { val := 0, tag := false }) := by
    rintro _ rfl
    simp [reg, tget]
  refine ⟨rfl, rfl, rfl, rfl, ⟨fresh _ rfl, ?_⟩, ⟨fresh _ rfl, ?_⟩, ?_⟩
  all_goals repeat' constructor

/-! ## The turn of a context that nothing holds up (R124, R135 to R141) -/

/-- A context that issues the word at its program counter next: it is alone on its instance, and nothing stands before the word. -/
structure Ctx.Plain (x : Ctx) : Prop where
  single : x.role = .single
  noTx : x.tx = none
  noWait : x.waiting = none
  noCause : x.imprecise = []
  noBreak : x.dbg.ibp = []
  noRep : x.reps = []
  fenced : x.stale = []
  noPend : x.pend = []

theorem expireTx_of_plain {x : Ctx} (h : x.Plain) : expireTx x = x := by
  simp [expireTx, h.noTx, h.noWait]

theorem midway_of_plain {x : Ctx} (h : x.Plain) : x.midway = false := by
  simp [Ctx.midway, h.noWait]

theorem boundary_of_plain {s : State} (h : (cx s).Plain) : boundary s = fetchDecode s := by
  simp [boundary, midway_of_plain h, h.noCause, h.noBreak]

theorem pendCause_of_plain {x : Ctx} (h : x.Plain) (w : Nat) : pendCause x w = none := by
  have none_ : ∀ n ∈ wordRegs w, tfind x.pend n = none := fun n _ => by rw [h.noPend]; rfl
  simp [pendCause, List.filterMap_eq_nil_iff.mpr none_]

theorem nextWord_of_plain {s : State} (h : (cx s).Plain) (hf : (curCore s).fwd = none) : nextWord s (cx s) = storeWord s s.cur (cx s).pc := by
  have hfw : (curCore s).forwardedWord = none := by simp [Core.forwardedWord, hf]
  simp [nextWord, hfw, h.noRep, capturedWord, fetchStore, h.fenced, tget]

theorem stagger_of_plain {x : Ctx} (h : x.Plain) (w : Nat) : stagger x w = w := by simp [stagger, h.noRep]

/-- A core none of whose words has issued yet in its turn. -/
def Core.unissued (k : Core) : Core := { k with issued := false }

/-- A context whose word in issue is `w`. -/
def Ctx.issuing (x : Ctx) (w : BitVec 32) : Ctx := { x with word := w, op := w.toNat / 2 ^ 22 }

/-- The state in which the word at the program counter of the context in issue is the one in issue. -/
def inIssueState (s : State) : State :=
  setCx (setCore s s.cur (curCore s).unissued) ((cx s).issuing (storeWord s s.cur (cx s).pc))

theorem split_word (v : BitVec 32) : BitVec.ofNat 32 (v.toNat / 2 ^ 22 * 2 ^ 22 + v.toNat % 2 ^ 22) = v := by
  rw [Nat.div_add_mod', BitVec.ofNat_toNat, BitVec.setWidth_eq]

theorem decode_zero_opcode {nolorn user : Bool} {h : Hint} {w : Nat} {i : Instr} (hw : decode nolorn user h w = .ok i) :
    ¬ (w / 2 ^ 22 = 0 ∨ w / 2 ^ 22 = 0x3FF) := by
  intro ho
  have unassigned : assigned nolorn (w / 2 ^ 22) = false := by
    rcases ho with ho | ho <;> rw [ho] <;> cases nolorn <;> rfl
  simp only [decode, unassigned, Bool.not_false, if_true] at hw
  cases hw

theorem mapped_of_zero {nolorn : Bool} {m : Bool × AList (BitVec 16)} {w : Nat} (hm : m.1 = false) (ho : ¬ (w / 2 ^ 22 = 0 ∨ w / 2 ^ 22 = 0x3FF)) :
    mapped nolorn m w = some w := by
  rw [mapped, if_neg ho, hm]
  rfl

/-- The turn comes to the instruction that the word at the program counter decodes to. -/
theorem fetchDecode_of_plain {s : State} {i : Instr} (h : (cx s).Plain) (hf : (curCore s).fwd = none)
    (hm : (decodeMap s (curCore s)).1 = false)
    (hd : decode (s.cur == nolornCore) (!(curCore s).supOn) (cx s).hint (storeWord s s.cur (cx s).pc).toNat = .ok i) :
    fetchDecode s = .run i (inIssueState s) := by
  have hfw : (curCore s).forwardedWord = none := by simp [Core.forwardedWord, hf]
  have hmap := mapped_of_zero (nolorn := s.cur == nolornCore) hm (decode_zero_opcode hd)
  simp [-Nat.reducePow, fetchDecode, nextWord_of_plain h hf, hmap, hfw, hf, stagger_of_plain h, hd, pendCause_of_plain h, h.single, h.noRep, captureWord, inIssueState, Core.unissued, Ctx.issuing, split_word]

/-! ## A step (R291) -/

/-- A word's turn is the whole step. -/
theorem step_of_run {s s1 : State} {i : Instr} (hi : s.inputs = []) (ha : s.agenda = []) (hp : prepare s = .run i s1) :
    step s = match exec i s1 with | .next t => .next (elapse (plan (afterIssue s1 t))) | o => o := by
  simp only [step, hi, ha, sequencer, hp]
  cases exec i s1 <;> rfl

theorem turn_of_no_order {s : State} (h : s.order = []) : turn s = s := by simp [turn, h]

theorem curCore_listed (s : State) : curCore (listed s) = curCore s := core_listed s s.cur

/-- The context in issue of a powered core whose clock runs takes its turn at a boundary. -/
theorem prepare_of_plain {s : State} (ho : s.order = []) (hstop : coreStopped s = false) (hp : (curCore s).power = .on)
    (hiss : (if (curCore s).supOn then supIssues (curCore s) else userIssues (curCore s)) = true) (hacc : accountsFull s = false)
    (h : (cx s).Plain) : prepare s = boundary (listed s) := by
  unfold prepare
  rw [turn_of_no_order ho]
  dsimp only
  rw [if_neg (by simp [hstop]), hp]
  dsimp only
  cases hs : (curCore s).supOn with
  | true =>
    rw [cx_of_sup hs] at h
    rw [hs, if_pos rfl] at hiss
    rw [if_pos rfl, if_neg (by simp [hiss]), if_neg (by simp [hacc]), expireTx_of_plain h, ← hp, ← hs]
    rfl
  | false =>
    rw [cx_of_user hs] at h
    rw [hs, if_neg Bool.false_ne_true] at hiss
    have single : (curCore (listed s)).user.role = .single := by rw [curCore_listed]; exact h.single
    rw [if_neg Bool.false_ne_true, if_pos hiss, if_neg (by simp [hacc]), expireTx_of_plain h]
    rw [← hp, ← hs]
    show userTurn (listed s) = _
    rw [userTurn, single]

theorem inIssueState_listed (s : State) : inIssueState (listed s) = inIssueState s := by
  unfold inIssueState
  rw [cx_listed, curCore_listed]
  show setCx (setCore (setCore s s.cur (curCore s)) s.cur (curCore s).unissued) _ = _
  rw [setCore_setCore]
  rfl

theorem decodeMap_of_unmapped {s : State} {k : Core} (hmap : (if k.supOn then k.smap else k.umap) = false) (hold : k.smapOld = none) :
    (decodeMap s k).1 = false := by
  cases hs : k.supOn with
  | true => simpa [decodeMap, hs, hold] using hmap
  | false => simpa [decodeMap, hs] using hmap

/-- The turn comes to the instruction in the state in which its word is the one in issue. -/
theorem prepare_eq_run {s : State} {i : Instr} (ho : s.order = []) (hstop : coreStopped s = false) (hp : (curCore s).power = .on)
    (hiss : (if (curCore s).supOn then supIssues (curCore s) else userIssues (curCore s)) = true) (hacc : accountsFull s = false)
    (hmap : (if (curCore s).supOn then (curCore s).smap else (curCore s).umap) = false) (hold : (curCore s).smapOld = none)
    (hf : (curCore s).fwd = none) (h : (cx s).Plain)
    (hd : decode (s.cur == nolornCore) (!(curCore s).supOn) (cx s).hint (storeWord s s.cur (cx s).pc).toNat = .ok i) :
    prepare s = .run i (inIssueState s) := by
  have plain : (cx (listed s)).Plain := (cx_listed s).symm ▸ h
  rw [prepare_of_plain ho hstop hp hiss hacc h, boundary_of_plain plain, ← inIssueState_listed]
  refine fetchDecode_of_plain plain ?_ ?_ ?_
  · rw [curCore_listed, hf]
  · rw [curCore_listed]
    exact decodeMap_of_unmapped hmap hold
  · rw [curCore_listed, cx_listed]
    exact hd

theorem inIssueState_eq (s : State) : inIssueState s =
    setCtxOf (setCore s s.cur (curCore s).unissued) s.cur (curCore s).supOn ((cx s).issuing (storeWord s s.cur (cx s).pc)) := by
  have same : core (setCore s s.cur (curCore s).unissued) s.cur = (curCore s).unissued := by rw [core_setCore, if_pos rfl]
  show setCtxOf _ s.cur (core (setCore s s.cur (curCore s).unissued) s.cur).supOn _ = _
  rw [same]
  rfl

/-- Settles O59. -/
theorem stepRunsDecodedInstruction : Obligations.StepRunsDecodedInstruction := by
  intro s s1 i e r j js
  refine ⟨step_of_run, ?_, ?_, ?_⟩
  · intro sup x w hin hag hord hstop hpow hsup hiss hmap hold hfwd hacc hrole htx hwait himp hibp hreps hstale hpend hdec
    subst hsup
    have plain : (cx s).Plain := ⟨hrole, htx, hwait, himp, hibp, hreps, hstale, hpend⟩
    rw [step_of_run hin hag (prepare_eq_run hord hstop hpow hiss hacc hmap hold hfwd plain hdec), inIssueState_eq]
    rfl
  · intro hin hag
    simp only [step, hin, hag, runEvent_eq]
    cases exec e.instr { s with agenda := r } <;> rfl
  · intro hin
    simp only [step, hin]

end Sys2Proof.Machine
end

section
/-! SUPPORT. Vector words, lanes and the vector engine's steps (R151, R245 to R262). -/

namespace Sys2Proof.Machine

open Sys2Proof.Claims

/-! ## Issuing a vector command (R151, R249) -/

/-- A vector command with its guard as that stands, and the place and time of its issue. -/
def VCmd.issuedAt (v : VCmd) (g : Option (BitVec 3)) (s : State) : VCmd :=
  { v with bind := bindTo (cx s) g, grd := g.map (·.toNat), pc := (cx s).pc, seq := s.tick }

/-- A context in whose queue a vector command stands behind the others, its register outstanding. -/
def Ctx.queueVector (v : VCmd) (x : Ctx) : Ctx :=
  { x with vq := x.vq ++ [v], pend := match v.target with | some n => tset x.pend n 8 | none => x.pend }

theorem issueVector_of_ok {v : VCmd} {g : Option (BitVec 3)} {s : State} (hroom : (cx s).vq.length < 16)
    (hdir : directionFault (cx s) (v.issuedAt g s) = none) (hops : operandsOk (cx s) (v.issuedAt g s) = true)
    (hst : (v.issuedAt g s).staged (cx s) = false) :
    issueVector v g s = .next (setCx (finish s) ((cx (finish s)).queueVector (v.issuedAt g s))) := by
  unfold issueVector
  rw [if_neg (by omega)]
  simp only [VCmd.issuedAt] at hdir hops hst
  simp only [hdir, hops, hst]
  rfl

theorem issueVector_of_misdirected {v : VCmd} {g : Option (BitVec 3)} {s : State} {base : Nat} (hroom : (cx s).vq.length < 16)
    (hdir : directionFault (cx s) (v.issuedAt g s) = some base) : issueVector v g s = .next (trapAt 0x16 base s) := by
  unfold issueVector
  rw [if_neg (by omega)]
  simp only [VCmd.issuedAt] at hdir
  simp only [hdir]

theorem issueVector_of_refused {v : VCmd} {g : Option (BitVec 3)} {s : State} (hroom : (cx s).vq.length < 16)
    (hdir : directionFault (cx s) (v.issuedAt g s) = none) (hops : operandsOk (cx s) (v.issuedAt g s) = false) :
    issueVector v g s = .next (trapCmd 0x40 s) := by
  unfold issueVector
  rw [if_neg (by omega)]
  simp only [VCmd.issuedAt] at hdir hops
  simp only [hdir, hops]
  rfl

theorem issueVector_of_staged {v : VCmd} {g : Option (BitVec 3)} {s : State} (hroom : (cx s).vq.length < 16)
    (hdir : directionFault (cx s) (v.issuedAt g s) = none) (hops : operandsOk (cx s) (v.issuedAt g s) = true)
    (hst : (v.issuedAt g s).staged (cx s) = true) : issueVector v g s = .next (trapWord 0x0A s) := by
  unfold issueVector
  rw [if_neg (by omega)]
  simp only [VCmd.issuedAt] at hdir hops hst
  simp only [hdir, hops, hst]
  rfl

theorem queues_issueVector (v : VCmd) (g : Option (BitVec 3)) (s : State) : Queues (issueVector v g s) s (v.issuedAt g s) v.target := by
  intro hroom hdir hops hst
  rw [issueVector_of_ok hroom hdir hops hst]
  exact completes_setCx_finish (Ctx.queueVector (v.issuedAt g s)) (Ctx.queueVector (v.issuedAt g s)) (fun _ => rfl) (fun _ => rfl)

/-- A word that issues the command `v` queues it. -/
theorem queues_of_issued {o : Out} {s : State} {v w : VCmd} {g : Option (BitVec 3)} {target : Option Nat} (ho : o = issueVector v g s)
    (hv : v.issuedAt g s = w) (ht : v.target = target) : Queues o s w target := by
  subst ho hv ht
  exact queues_issueVector v g s

theorem exec_vectorWords (s : State) (g : Option (BitVec 3)) (x y z k : BitVec 3) (w f : Bool) (c : BitVec 5) :
    ∀ p ∈ vectorWords g x y z k w f c, exec p.1 s = issueVector (vcmd p.2.1 p.2.2.1 p.2.2.2.1 p.2.2.2.2.1 p.2.2.2.2.2 s) g s := by
  simp only [vectorWords, List.forall_mem_append, List.forall_mem_cons, List.not_mem_nil, false_implies, implies_true, and_true]
  refine ⟨⟨⟨?_, ?_, ?_, ?_, ?_, ?_, ?_, ?_, ?_, ?_⟩, ?_, ?_, ?_, ?_, ?_, ?_, ?_, ?_, ?_, ?_⟩, ?_, ?_, ?_, ?_, ?_, ?_, ?_, ?_, ?_⟩ <;> rfl

/-- VRED writes a register that its x field names, and VDQNT with a sum one that its z field names (R258, R262). -/
theorem target_vectorWords (s : State) (g : Option (BitVec 3)) (x y z k : BitVec 3) (w f : Bool) (c : BitVec 5) :
    ∀ p ∈ vectorWords g x y z k w f c, (vcmd p.2.1 p.2.2.1 p.2.2.2.1 p.2.2.2.2.1 p.2.2.2.2.2 s).target =
      (match p.2.1 with | .red _ _ => some (48 + x.toNat) | .dqnt true _ => some (48 + z.toNat) | _ => none) := by
  cases f <;>
    simp only [vectorWords, List.forall_mem_append, List.forall_mem_cons, List.not_mem_nil, false_implies, implies_true, and_true, VCmd.target, vcmd]

theorem exec_specialWords (s : State) (g : Option (BitVec 3)) (x y z : BitVec 3) (t : Bool) :
    ∀ p ∈ specialWords g x y z t, exec p.1 s = issueSpecial p.2 g x y z t s := by
  simp only [specialWords, List.forall_mem_cons, List.not_mem_nil, false_implies, implies_true, and_true]
  refine ⟨?_, ?_, ?_, ?_, ?_, ?_, ?_, ?_⟩ <;> rfl

theorem queues_issueSpecial (k : Nat) (g : Option (BitVec 3)) (x y z : BitVec 3) (t : Bool) (s : State) :
    Queues (issueSpecial k g x y z t s) s
      (let v := command s g (.special k) x y z true
       if t then { v with env := { v.env with tol := (reg (cx s) (48 + z.toNat)).val.toNat % 256 } } else v) none := by
  refine queues_of_issued rfl ?_ rfl
  cases t with
  | false => rfl
  | true =>
    have low : wbits (k48 s z).val 7 0 = (k48 s z).val.toNat % 256 := by simp [wbits, bits]
    simp only [if_true, low]
    rfl

theorem exec_mset_of_aligned {g : Option (BitVec 3)} {x y z : BitVec 3} {s : State} (h : wbits (k48 s y).val 31 0 % 4 = 0) :
    exec (.mset g x y z) s = issueVector { vcmd (.mset false) x y z false s with k1 := k48 s y, k2 := k48 s z } g s := by
  show execMset g x y z s = _
  unfold execMset
  dsimp only
  rw [if_neg (not_not_intro h)]

theorem exec_vadd (s : State) (g : Option (BitVec 3)) (x y z : BitVec 3) (w : Bool) :
    exec (.vadd g x y z w) s = issueVector (vcmd (.arith 0 w) x y z true s) g s := rfl

/-- Settles O30: part by part. -/
theorem vectorWordsQueue : Obligations.VectorWordsQueue := by
  constructor
  · intro s g x y z k w f c ky kz
    refine ⟨fun p hp => queues_of_issued (exec_vectorWords s g x y z k w f c p hp) rfl (target_vectorWords s g x y z k w f c p hp), ?_, ?_, ?_⟩
    · intro p hp
      rw [exec_specialWords s g x y z w p hp]
      exact queues_issueSpecial p.2 g x y z w s
    · refine queues_of_issued (v := { vcmd (.bcst c.toNat) x y 0 true s with k1 := k48 s y }) rfl rfl rfl
    · intro hal
      have aligned : wbits (k48 s y).val 31 0 % 4 = 0 := by
        have hk : (k48 s y).val.toNat % 4 = 0 := hal
        simp only [wbits, bits]
        omega
      exact queues_of_issued (exec_mset_of_aligned aligned) rfl rfl
  · intro s g x y z w hu hv hroom v
    have issued : (vcmd (.arith 0 w) x y z true s).issuedAt g s = v := rfl
    rw [exec_vadd, ← issued]
    refine ⟨fun base hdir => ?_, fun hdir hops => ?_, fun hdir hops hst => ?_⟩
    · rw [issueVector_of_misdirected hroom hdir]
      exact completes_trapAt_user 0x16 base s hu hv
    · rw [issueVector_of_refused hroom hdir hops]
      exact completes_trapAt_user 0x40 _ s hu hv
    · rw [issueVector_of_staged hroom hdir hops hst]
      exact completes_trapWord_user 0x0A rfl s hu hv

/-! ## One lane (R246 to R248, R254 to R257) -/

theorem laneValue_of_pattern {v : VCmd} (f : Nat) (wraps : Bool) (ys : List Elem) (y z w : Elem) (sel : Bool) (n : NumSt)
    (h : v.op.onPatterns = true) : laneValue v f wraps ys y z w sel n = (storedClean f (patternOp v.op (storeBits f) y z), n) := by
  simp [laneValue, h]

/-- The operations whose lanes are the rounded value of their operands. -/
def VOp.rounds : VOp → Bool
  | .arith .. | .fma .. | .cvt | .sel .. => true
  | _ => false

theorem laneValue_of_rounds {v : VCmd} (f : Nat) (ys : List Elem) (y z w : Elem) (sel : Bool) (n : NumSt) (h : v.op.rounds = true) :
    laneValue v f false ys y z w sel n =
      (let r := opValue v y.val z.val w.val sel
       let q := convert f r.1 v.env.mode (f ≠ 0 && v.env.sat) (n.raise r.2)
       (Machine.stored f q.1, q.2)) := by
  obtain ⟨op, x, y', z', k1, k2, env, bind, grd, pc, seq, run⟩ := v
  cases op <;> cases h <;> rfl

/-- Settles O31. -/
theorem vectorLanes : Obligations.VectorLanes := by
  intro v f wraps sel ys y z w rest n m sat rounded
  have lane : ∀ {r : FV × Nat}, v.op.rounds = true → opValue v y.val z.val w.val sel = r → wraps = false →
      laneValue v f wraps ys y z w sel n = rounded r := by
    rintro _ h rfl rfl
    exact laneValue_of_rounds f ys y z w sel n h
  have pattern : ∀ {p : Nat}, v.op.onPatterns = true → patternOp v.op (storeBits f) y z = p →
      laneValue v f wraps ys y z w sel n = (storedClean f p, n) := by
    rintro _ h rfl
    exact laneValue_of_pattern f wraps ys y z w sel n h
  refine ⟨rfl, rfl, ?_, ?_, ?_, ?_, ?_, ?_, ?_, ?_, ?_, ?_, ?_, ?_⟩
  · exact fun b h => lane (by rw [h]; rfl) (by rw [opValue, h]; rfl)
  · exact fun b h => lane (by rw [h]; rfl) (by rw [opValue, h]; rfl)
  · exact fun b h => lane (by rw [h]; rfl) (by rw [opValue, h]; rfl)
  · exact fun b h => lane (by rw [h]; rfl) (by rw [opValue, h])
  · exact fun b h => lane (by rw [h]; rfl) (by rw [opValue, h]; rfl)
  · exact fun b h => lane (by rw [h]; rfl) (by rw [opValue, h]; rfl)
  · exact fun h => lane (by rw [h]; rfl) (by rw [opValue, h])
  · exact fun k h => lane (by rw [h]; rfl) (by rw [opValue, h])
  · exact fun h => pattern (by rw [h]; rfl) (by rw [h]; rfl)
  · exact fun h => pattern (by rw [h]; rfl) (by rw [h]; rfl)
  · exact fun h => pattern (by rw [h]; rfl) (by rw [h]; rfl)
  · exact fun h => pattern (by rw [h]; rfl) (by rw [h]; rfl)

/-! ## The steps of the vector engine (R250, R252) -/

theorem execVectorCommandTake_eq {s : State} {c : Nat} {v : VCmd} {r : List VCmd} (hq : (ctxOf s c (vectorSide (core s c))).vq = v :: r)
    (hh : (ctxOf s c (vectorSide (core s c))).dbg.halted = false) (he : (core s c).enginesStop (vectorSide (core s c)) = false)
    (hb : v.bind = .run) (hr : v.run = none) (hg : v.ungranted (core s c) = false) :
    execVectorCommandTake c s =
      (let x := ctxOf s c (vectorSide (core s c))
       let len := v.length x
       .next (spendOn c none (some (if len = 0 then 2 else if v.readsBank then 10 else 8)) none
         (setCtxOf (taken (.vectorCommandTake c) s) c (vectorSide (core s c)) (setDirs { x with vq := { v with run := some { len := len } } :: r } v)))) := by
  have go : (decide (v.bind = .run) && v.run.isNone && !v.ungranted (core s c) && !(core s c).enginesStop (vectorSide (core s c)) &&
      !(ctxOf s c (vectorSide (core s c))).dbg.halted) = true := by simp [hb, hr, hg, he, hh]
  show (match (ctxOf s c (vectorSide (core s c))).vq with | v :: r => _ | [] => _) = _
  rw [hq]
  exact if_pos go

/-- What a group of the head command of a context comes to as a step. -/
def afterGroup (c : Nat) (sup : Bool) (x : Ctx) (v : VCmd) (r : List VCmd) (u : VRun) (t : State) : Group → Out
  | .next s n => .next (spendGroup c n s)
  | .wait cause => .next (spendOn c none (some cause) none t)
  | .stop cause =>
    .next (spendOn c none (some 8) none (setCtxOf t c sup
      { x with vq := { v with run := some { u with fault := some (cause, BitVec.ofNat 128 v.pc) } } :: r }))

theorem execVectorGroup_eq {s : State} {c : Nat} {v : VCmd} {r : List VCmd} {u : VRun} (hq : (ctxOf s c (vectorSide (core s c))).vq = v :: r)
    (hh : (ctxOf s c (vectorSide (core s c))).dbg.halted = false) (he : (core s c).enginesStop (vectorSide (core s c)) = false)
    (hr : v.run = some u) (hf : u.fault = none) (hd : u.done < u.len) :
    execVectorGroup c s =
      afterGroup c (vectorSide (core s c)) (ctxOf s c (vectorSide (core s c))) v r u (taken (.vectorGroup c) s)
        (runGroup c (vectorSide (core s c)) (ctxOf s c (vectorSide (core s c))) v u (taken (.vectorGroup c) s)) := by
  have go : ¬ (u.fault.isSome ∨ u.len ≤ u.done ∨ (ctxOf s c (vectorSide (core s c))).dbg.halted ∨
      ((core s c).enginesStop (vectorSide (core s c)) ∧ u.stops (ctxOf s c (vectorSide (core s c))) v)) := by
    simp [hf, hh, he]
    omega
  show (match (ctxOf s c (vectorSide (core s c))).vq with | v :: r => _ | [] => _) = _
  rw [hq]
  dsimp only
  rw [hr]
  exact if_neg go

/-- What the completion of the head command leaves of its context: its streams moved on, and a mask bound by MSET. -/
def completedVector (x : Ctx) (r : List VCmd) (v : VCmd) (u : VRun) : Ctx :=
  let a := advanceStreams { x with vq := r } v u
  match v.op with
  | .mset unb => bindMask a v unb
  | _ => a

/-- The completion of a command of which nothing is left to do, or which a fault has stopped. -/
theorem execVectorCommandComplete_eq {s : State} {c : Nat} {v : VCmd} {r : List VCmd} {u : VRun}
    (hq : (ctxOf s c (vectorSide (core s c))).vq = v :: r) (hh : (ctxOf s c (vectorSide (core s c))).dbg.halted = false)
    (hr : v.run = some u) (hd : (u.fault.isNone && decide (u.done < u.len)) = false) :
    execVectorCommandComplete c s =
      (let sup := vectorSide (core s c)
       let t := taken (.vectorCommandComplete c) s
       let y := completedVector (ctxOf s c sup) r v u
       match u.fault with
       | some (cause, val) =>
         .next (raiseImprecise c sup cause val (setCtxOf t c sup (stillPending
           ((match v.target with | some n => { y with pend := tdel y.pend n } | none => y).raise u.flags))))
       | none =>
         let p := v.result (ctxOf s c sup) u { seed := (core s c).rseed, flags := u.flags }
         let s1 := putNum c sup p.2 (setCtxOf t c sup y)
         match v.target with
         | some n =>
           let s2 := deliver c sup n (BitVec.ofNat 128 p.1) s1
           .next (setCtxOf s2 c sup (stillPending (ctxOf s2 c sup)))
         | none => .next s1) := by
  have go : ¬ ((u.fault.isNone && decide (u.done < u.len)) || (ctxOf s c (vectorSide (core s c))).dbg.halted) = true := by
    simp [hd, hh]
  show (match (ctxOf s c (vectorSide (core s c))).vq with | v :: r => _ | [] => _) = _
  rw [hq]
  dsimp only
  rw [hr, ← num_raise]
  exact if_neg go

/-- A command that writes no register leaves the roundings' state as it is. -/
theorem result_of_no_target (x : Ctx) {v : VCmd} (r : VRun) (n : NumSt) (h : v.target = none) : (v.result x r n).2 = n := by
  obtain ⟨op, vx, vy, vz, k1, k2, env, bind, grd, pc, seq, run⟩ := v
  cases op <;> first | rfl | cases h

/-- Settles O32. -/
theorem vectorEngineSteps : Obligations.VectorEngineSteps := by
  intro s c v r k sup x len hq hh he
  refine ⟨fun hb hr hg => execVectorCommandTake_eq hq hh he hb hr hg, fun u hr hf hd => ?_, fun u hr => ⟨?_, ?_, ?_⟩⟩
  · have group := execVectorGroup_eq hq hh he hr hf hd
    refine ⟨fun t' n hg => ?_, fun cause hg => ?_, fun cause hg => ?_⟩ <;>
      exact group.trans (congrArg (afterGroup c sup x v r u (taken (.vectorGroup c) s)) hg)
  · intro hf hd ht
    have done := execVectorCommandComplete_eq hq hh hr (by simp [hf, hd])
    simp only [hf, ht, result_of_no_target _ _ _ ht] at done
    exact done
  · intro n hf hd ht
    have done := execVectorCommandComplete_eq hq hh hr (by simp [hf, hd])
    simp only [hf, ht] at done
    exact done
  · intro cause val hf ht
    have done := execVectorCommandComplete_eq hq hh hr (by simp [hf])
    simp only [hf, ht] at done
    exact done

end Sys2Proof.Machine
end

section
/-! SUPPORT. Stream bindings and packed words (R210, R213, R259, R263, R264). -/

namespace Sys2Proof.Machine

open Sys2Proof.Claims

/-! ## A count of a mask that another die has written (R259, R295) -/

/-- A user context with a bank in slot 0 and mask stream 0 bound to the first bit of that slot. -/
def maskedCore : Core :=
  { user := { attach := [(0, { perm := 15, valid := true })], masks := [(0, { base := 0, count := 1 })] } }

/-- A machine in which the first byte of bank 0 has the clock of a write of die 3. -/
def clockedMask : State := { State.reset with cores := [(0, maskedCore)], locClock := [(2 ^ 53, [0, 0, 0, 1])] }

/-- MCNT of the mask takes the clock of what it reads into that of its die. -/
theorem mcnt_clockedMask : ∃ t, exec (.mcnt 1 0) clockedMask = .next t ∧ t.dies ≠ clockedMask.dies := ⟨_, rfl, by decide +kernel⟩

/-- Refutes O33: MCNT of a bound mask stream merges the clocks of the lines that it reads into its die's (R295), so that it changes more than
kD. -/
theorem not_streamBindings : ¬ Obligations.StreamBindings := by
  intro h
  obtain ⟨-, -, counts⟩ := h clockedMask 0 1 0 0 0
  obtain ⟨-, bound⟩ := counts rfl
  obtain ⟨t, ht, hstill⟩ := bound { base := 0, count := 1 } 0 rfl rfl
  obtain ⟨u, hu, hdies⟩ := mcnt_clockedMask
  obtain rfl : t = u := Host.Outcome.next.inj (ht.symm.trans hu)
  have same := congrArg State.dies hstill
  exact hdies same

/-! ## Packed lanes (R263, R264) -/

theorem pwOf_eq (s : State) : pwOf s = (cx s).fmt % 32 := by simp [pwOf, fmtPw, bits]

theorem zipWith_laneVals (f : Nat) (g : FV → FV → FV × Nat) (p q : Nat) :
    List.zipWith g (laneVals f p) (laneVals f q) = (List.range (laneCount f)).map fun i => g (lane f p i) (lane f q i) := by
  simp [laneVals, List.zipWith_map_left, List.zipWith_map_right, List.zipWith_self]

/-- The register that lanes pack into under a mode of rounding, with the flags and the generator's state (R263). -/
def packResult (s : State) (w : Bool) (mode : Nat) (l : List (FV × Nat)) : Nat × NumSt :=
  let q := packAll (pwOf s) w mode (fmtSat (cx s).fmt) l { seed := (curCore s).rseed, flags := 0 }
  (packLanes (elemBits (pwOf s)) q.1, q.2)

theorem packDone_eq (d : BitVec 6) (w : Bool) (l : List (FV × Nat)) (s : State) :
    packDone d w l s = numDone d (packResult s w (roundMode (cx s)) l).1 (packResult s w (roundMode (cx s)) l).2 s := rfl

theorem rounds_packDone (d : BitVec 6) (w : Bool) (l : List (FV × Nat)) (s : State) :
    Rounds (.next (packDone d w l s)) s d (packResult s w (roundMode (cx s)) l) := by
  rw [packDone_eq]
  exact rounds_numDone d (packResult s w (roundMode (cx s)) l) s

theorem rounds_lanewise (d a b : BitVec 6) (w : Bool) (g : FV → FV → FV × Nat) {s : State}
    (h : roundMode (cx s) = 5 → rstoBusy (curCore s) = false) :
    Rounds (lanewise d a b w g s) s d (packResult s w (roundMode (cx s))
      ((List.range (laneCount (pwOf s))).map fun i => g (lane (pwOf s) (rn s a) i) (lane (pwOf s) (rn s b) i))) := by
  rw [lanewise, rounding_of_idle _ h, ← zipWith_laneVals]
  exact rounds_packDone d w _ s

theorem packedPick_eq (d a b : BitVec 6) (max : Bool) (s : State) :
    packedPick d a b max s =
      (let r := packResult s false 0 (List.zipWith (minmaxV max) (laneVals (pwOf s) (rn s a)) (laneVals (pwOf s) (rn s b)))
       numDone d r.1 r.2 s) := rfl

theorem rounds_packedPick (d a b : BitVec 6) (max : Bool) (s : State) :
    Rounds (.next (packedPick d a b max s)) s d (packResult s false 0
      ((List.range (laneCount (pwOf s))).map fun i => minmaxV max (lane (pwOf s) (rn s a) i) (lane (pwOf s) (rn s b) i))) := by
  rw [packedPick_eq, zipWith_laneVals]
  exact rounds_numDone d (packResult ..) s

/-- PFMA's addend is the old K[d] (R264). -/
theorem execPfma_eq (d a b : BitVec 6) (w : Bool) {s : State} (h : roundMode (cx s) = 5 → rstoBusy (curCore s) = false) :
    execPfma d a b w s = .next (packDone d w ((List.range (laneCount (pwOf s))).map fun i =>
      fmaV (lane (pwOf s) (rn s a) i) (lane (pwOf s) (rn s b) i) (lane (pwOf s) (rn s d) i) (roundMode (cx s))) s) := rounding_of_idle _ h

/-- Settles O34. -/
theorem packedLanes : Obligations.PackedLanes := by
  intro s d a b w idle
  rw [← pwOf_eq]
  refine ⟨rounds_lanewise d a b w _ idle, rounds_lanewise d a b w _ idle, rounds_lanewise d a b w _ idle, ?_, rounds_packedPick d a b false s,
    rounds_packedPick d a b true s⟩
  show Rounds (execPfma d a b w s) s d _
  rw [execPfma_eq d a b w idle]
  exact rounds_packDone d w _ s

/-! ## Packed sums and conversions (R264) -/

theorem wrap32_eq (i : Int) : wrap 32 i = (i % 2 ^ 32).toNat := rfl

theorem execPdot_of_int {s : State} {d a b : BitVec 6} {k : BitVec 2} (h : isIntFmt (pwOf s) = true) :
    execPdot d a b false k s = .next (finish (putNat d (wrap 32 ((List.zipWith (fun p q => p.at 0 * q.at 0) (laneVals (pwOf s) (rn s a))
      (laneVals (pwOf s) (rn s b))).sum)) s)) := by
  unfold execPdot
  dsimp only
  rw [if_pos h, if_neg Bool.false_ne_true]

theorem execPdot_of_scaled_int {s : State} {d a b : BitVec 6} {k : BitVec 2} (h : isIntFmt (pwOf s) = true) :
    execPdot d a b true k s = .next (trapWord 0x01 s) := by
  unfold execPdot
  dsimp only
  rw [if_pos h, if_pos rfl]

/-- The scale of a side of a scaled sum: that of its register, or one. -/
def dotScale (x : Ctx) (e : Bool) (n : Nat) : Nat := if e then (reg x n).val.toNat % 256 else 127

theorem execPdot_of_float {s : State} {d a b : BitVec 6} {e : Bool} {k : BitVec 2} (h : isIntFmt (pwOf s) = false) :
    execPdot d a b e k s =
      (let r := sumSpecial (List.zipWith
         (fun p q => mulV (scaled8 (dotScale (cx s) e (48 + 2 * k.toNat)) p) (scaled8 (dotScale (cx s) e (49 + 2 * k.toNat)) q))
         (laneVals (pwOf s) (rn s a)) (laneVals (pwOf s) (rn s b)))
       let p := convert 0 r.1 0 false { seed := (curCore s).rseed, flags := r.2 }
       .next (numDone d p.1 p.2 s)) := by
  have low : ∀ n, (if e then wbits (reg (cx s) n).val 7 0 else 127) = dotScale (cx s) e n := by
    intro n
    simp [dotScale, wbits, bits]
  unfold execPdot
  dsimp only
  rw [if_neg (by rw [h]; exact Bool.false_ne_true), low, low, num_raise]

theorem execPscl_of_zero {s : State} {d a b : BitVec 6} {w : Bool} (h : rn s b % 256 = 255) :
    execPscl d a b w s = .next (finish (putNat d 0 s)) := if_pos h

theorem execPscl_of_scale {s : State} {d a b : BitVec 6} {w : Bool} (h : rn s b % 256 ≠ 255)
    (idle : roundMode (cx s) = 5 → rstoBusy (curCore s) = false) :
    execPscl d a b w s = .next (packDone d w ((laneVals (pwOf s) (rn s a)).map fun v => (v.scale (((rn s b % 256 : Nat) : Int) - 127), 0)) s) := by
  unfold execPscl
  dsimp only
  rw [if_neg h]
  exact rounding_of_idle _ idle

/-- The lanes of a part packed into PW with the place of the part in the register (R264). -/
def partResult (s : State) (w : Bool) (first : Nat) (l : List FV) : Nat × NumSt :=
  let q := packAll (pwOf s) w (roundMode (cx s)) (fmtSat (cx s).fmt) (l.map fun v => (v, 0)) { seed := (curCore s).rseed, flags := 0 }
  (packLanes (elemBits (pwOf s)) (placeLanes (laneCount (pwOf s)) first q.1), q.2)

theorem execPcvt_of_part {s : State} {d a f : BitVec 6} {w : Bool} {p : BitVec 2} {l : List FV} {first : Nat}
    (h : partLanes f.toNat (pwOf s) p.toNat (rn s a) = some (l, first)) (idle : roundMode (cx s) = 5 → rstoBusy (curCore s) = false) :
    execPcvt d a f w p s = .next (numDone d (partResult s w first l).1 (partResult s w first l).2 s) := by
  unfold execPcvt
  simp only [h]
  exact rounding_of_idle _ idle

theorem execPcvt_of_reserved {s : State} {d a f : BitVec 6} {w : Bool} {p : BitVec 2}
    (h : partLanes f.toNat (pwOf s) p.toNat (rn s a) = none) : execPcvt d a f w p s = .next (trapWord 0x01 s) := by
  unfold execPcvt
  simp only [h]

theorem execPqnt_of_reserved {s : State} {d a f : BitVec 6} {k p : BitVec 2}
    (h : partLanes f.toNat (pwOf s) p.toNat (rn s a) = none) : execPqnt d a f k p s = .next (trapWord 0x01 s) := by
  unfold execPqnt
  simp only [h]

theorem execPqnt_of_zero {s : State} {d a f : BitVec 6} {k p : BitVec 2} {l : List FV} {first : Nat}
    (h : partLanes f.toNat (pwOf s) p.toNat (rn s a) = some (l, first)) (hz : pqntScale (pwOf s) l = 255) :
    execPqnt d a f k p s = .next (finish (putNat (BitVec.ofNat 6 (48 + 2 * k.toNat)) 255 (putNat d 0 s))) := by
  unfold execPqnt
  simp only [h]
  exact if_pos hz

theorem execPqnt_of_scale {s : State} {d a f : BitVec 6} {k p : BitVec 2} {l : List FV} {first : Nat}
    (h : partLanes f.toNat (pwOf s) p.toNat (rn s a) = some (l, first)) (hz : pqntScale (pwOf s) l ≠ 255)
    (idle : roundMode (cx s) = 5 → rstoBusy (curCore s) = false) :
    execPqnt d a f k p s =
      (let q := partResult s false first (l.map fun v => v.scale (127 - (pqntScale (pwOf s) l : Int)))
       .next (finish (putNat (BitVec.ofNat 6 (48 + 2 * k.toNat)) (pqntScale (pwOf s) l) (putNat d q.1 (putNum s.cur (onSup s) q.2 s))))) := by
  unfold execPqnt
  simp only [h]
  refine (if_neg hz).trans ((rounding_of_idle _ idle).trans ?_)
  rw [partResult, List.map_map]
  rfl

/-- PQNT's companion register (R264). -/
theorem companion_toNat (k : BitVec 2) : (BitVec.ofNat 6 (48 + 2 * k.toNat)).toNat = 48 + 2 * k.toNat := by
  rw [BitVec.toNat_ofNat]
  omega

/-- A word whose whole effect is two registers. -/
theorem completes_putNat_putNat (s : State) (c d : BitVec 6) (v w : Nat) :
    Completes (.next (finish (putNat c w (putNat d v s))))
      (completed s (setReg (setReg (cx s) d.toNat { val := BitVec.ofNat 128 v }) c.toNat { val := BitVec.ofNat 128 w })) :=
  completes_putReg_setCx s (setReg (cx s) d.toNat { val := BitVec.ofNat 128 v }) c { val := BitVec.ofNat 128 w }

/-- Settles O35. -/
theorem packedConversions : Obligations.PackedConversions := by
  intro s d a b f w e p k idle
  rw [← pwOf_eq]
  intro pw m num sat vals
  refine ⟨fun hi => ?_, fun hi hu hv => ?_, fun hi => ?_, fun hb => ?_, fun hb => ?_, fun l first hl => ⟨?_, fun hz => ?_, fun hz => ?_⟩,
    fun hl hu hv => ⟨?_, ?_⟩⟩
  · rw [show exec (.pdot d a b false k) s = execPdot d a b false k s from rfl, execPdot_of_int hi]
    exact value_putWord d s rfl
  · rw [show exec (.pdot d a b true k) s = execPdot d a b true k s from rfl, execPdot_of_scaled_int hi]
    exact completes_trapWord_user 0x01 rfl s hu hv
  · intro scale r
    rw [show exec (.pdot d a b e k) s = execPdot d a b e k s from rfl, execPdot_of_float hi]
    exact rounds_numDone d (convert 0 r.1 0 false { num with flags := r.2 }) s
  · rw [show exec (.pscl d a b w) s = execPscl d a b w s from rfl, execPscl_of_zero hb]
    exact value_putWord d s rfl
  · rw [show exec (.pscl d a b w) s = execPscl d a b w s from rfl, execPscl_of_scale hb idle]
    exact rounds_packDone d w _ s
  · rw [show exec (.pcvt d a f w p) s = execPcvt d a f w p s from rfl, execPcvt_of_part hl idle]
    exact rounds_numDone d (partResult s w first l) s
  · rw [show exec (.pqnt d a f k p) s = execPqnt d a f k p s from rfl, execPqnt_of_scale hl hz idle]
    intro q
    have h := completes_putNat_putNat (setCx (seeded s q.2.seed) ((cx s).raise q.2.flags)) (BitVec.ofNat 6 (48 + 2 * k.toNat)) d
      (packLanes (elemBits pw) (placeLanes (128 / elemBits pw) first q.1)) (pqntScale pw l)
    rw [cx_setCx, completed_setCx, companion_toNat, ← putNum_eq] at h
    have same : partResult s false first (l.map fun v => v.scale (127 - (pqntScale (pwOf s) l : Int))) =
        (packLanes (elemBits pw) (placeLanes (128 / elemBits pw) first q.1), q.2) := by
      rw [partResult, List.map_map]
      rfl
    rw [same]
    exact h
  · rw [show exec (.pqnt d a f k p) s = execPqnt d a f k p s from rfl, execPqnt_of_zero hl hz]
    have h := completes_putNat_putNat s (BitVec.ofNat 6 (48 + 2 * k.toNat)) d 0 255
    rwa [companion_toNat] at h
  · rw [show exec (.pcvt d a f w p) s = execPcvt d a f w p s from rfl, execPcvt_of_reserved hl]
    exact completes_trapWord_user 0x01 rfl s hu hv
  · rw [show exec (.pqnt d a f k p) s = execPqnt d a f k p s from rfl, execPqnt_of_reserved hl]
    exact completes_trapWord_user 0x01 rfl s hu hv

end Sys2Proof.Machine
end

section
/-! SUPPORT. Copy words, matrix words and the commands of the matrix unit (R233 to R241, R268 to R287). -/

namespace Sys2Proof.Machine

open Sys2Proof.Claims

theorem completes_of_eq {o o' : Out} {e : State} (h : o = o') (hc : Completes o' e) : Completes o e := h ▸ hc

/-! ## Copy words (R233, R234) -/

/-- A word that touches a slot staged in the open group is misuse (R350). -/
theorem traps_misuse (s : State) : Traps (.next (trapWord 0x0A s)) s 0x0A 0 (issuedWord s) := traps_trapWord 0x0A s

/-- The copy command that a word queues. -/
def copyCommand (op : COp) (g : Option (BitVec 3)) (x y z : BitVec 3) (b p : Nat) (r q : Bool) (n : BitVec 2) (s : State) : CCmd :=
  { op := op, seq := s.tick, dst := k48 s x, src := k48 s y, len := k48 s z, cnt := n.toNat, bb := b
    o := { acq := q, rel := r, scope := p }, bind := bindTo (cx s) g, grd := g.map (·.toNat), pc := (cx s).pc }

/-- A context in whose copy queue a command stands behind the others, its completion counter raised. -/
def Ctx.queueCopy (x : Ctx) (m : CCmd) : Ctx := { x with cq := x.cq ++ [m], cnt := tset x.cnt m.cnt (tget x.cnt m.cnt 0 + 1) }

theorem issueCopy_of_room {op : COp} {g : Option (BitVec 3)} {x y z : BitVec 3} {b p : Nat} {r q : Bool} {n : BitVec 2} {s : State}
    (hroom : (cx s).cq.length < 16) :
    issueCopy op g x y z b p r q n s =
      if (cx s).tx.isSome && (copyCommand op g x y z b p r q n s).staged s.cur (onSup s) (cx s) then .next (trapWord 0x0A s)
      else .next (finish (setCx s ((cx s).queueCopy (copyCommand op g x y z b p r q n s)))) := by
  unfold issueCopy
  dsimp only
  rw [if_neg (by omega)]
  rfl

theorem isSome_and_eq_false {x : Ctx} {b : Bool} (h : x.tx = none ∨ b = false) : (x.tx.isSome && b) = false := by
  rcases h with h | h <;> simp [h]

theorem isSome_and_eq_true {x : Ctx} {b : Bool} (h : x.tx ≠ none) (hb : b = true) : (x.tx.isSome && b) = true := by
  simp [Option.isSome_iff_ne_none.mpr h, hb]

theorem completes_issueCopy {op : COp} {g : Option (BitVec 3)} {x y z : BitVec 3} {b p : Nat} {r q : Bool} {n : BitVec 2} {s : State}
    (hroom : (cx s).cq.length < 16)
    (h : (cx s).tx = none ∨ (copyCommand op g x y z b p r q n s).staged s.cur (onSup s) (cx s) = false) :
    Completes (issueCopy op g x y z b p r q n s) (completed s ((cx s).queueCopy (copyCommand op g x y z b p r q n s))) := by
  rw [issueCopy_of_room hroom, isSome_and_eq_false h]
  exact completes_setCx s _

theorem traps_issueCopy {op : COp} {g : Option (BitVec 3)} {x y z : BitVec 3} {b p : Nat} {r q : Bool} {n : BitVec 2} {s : State}
    (hroom : (cx s).cq.length < 16) (htx : (cx s).tx ≠ none)
    (h : (copyCommand op g x y z b p r q n s).staged s.cur (onSup s) (cx s) = true) :
    Traps (issueCopy op g x y z b p r q n s) s 0x0A 0 (issuedWord s) := by
  rw [issueCopy_of_room hroom, isSome_and_eq_true htx h]
  exact traps_misuse s

theorem exec_copyWords (s : State) (g : Option (BitVec 3)) (x y z : BitVec 3) (b : BitVec 2) (p : BitVec 3) (r q : Bool) (n : BitVec 2) :
    ∀ c ∈ copyWords g x y z b p r q n,
      exec c.1 s = issueCopy c.2.1 g c.2.2.1 c.2.2.2.1 c.2.2.2.2.1 c.2.2.2.2.2 p.toNat r q n s := by
  simp only [copyWords, List.forall_mem_cons, List.not_mem_nil, false_implies, implies_true, and_true]
  refine ⟨?_, ?_, ?_, ?_, ?_, ?_⟩ <;> rfl

/-! ## CWCNT and CQRY (R240, R241) -/

theorem bits_low_two (v : Nat) : bits v 1 0 = v % 4 := by simp [bits]

theorem bits_three_two (v : Nat) : bits v 3 2 = v / 4 % 4 := by simp [bits]

theorem bitAt_eq_decide (v i : Nat) : bitAt v i = decide (v / 2 ^ i % 2 = 1) := rfl

theorem execCwcnt_of_count {d a b : BitVec 6} {s : State} (hb : rn s a / 4 % 2 = 0)
    (h : tget (cx s).cnt (rn s a % 4) 0 ≤ rn s b % 2 ^ 32) :
    execCwcnt d a b s = .next (finish (putWord d (tget (cx s).cfault (rn s a % 4) 0) s)) := by
  unfold execCwcnt
  dsimp only
  rw [bitAt_eq_decide, if_pos (by simp [hb]), bits_low_two, if_pos (by simpa [bits] using h)]

theorem execCwcnt_of_barrier {d a b : BitVec 6} {s : State} (hb : rn s a / 4 % 2 = 1) (hi : rn s a % 4 ≠ 0)
    (h : rn s b % 2 ^ 64 ≤ tget (cx s).barr (rn s a % 4) 0) :
    execCwcnt d a b s = .next (finish (putNat d (tget (cx s).barr (rn s a % 4) 0) s)) := by
  unfold execCwcnt
  dsimp only
  rw [bitAt_eq_decide, if_neg (by simp [hb]), bits_low_two, if_neg hi, if_pos (by simpa [bits] using h)]

theorem execCwcnt_of_barrier_zero {d a b : BitVec 6} {s : State} (hb : rn s a / 4 % 2 = 1) (hi : rn s a % 4 = 0) :
    execCwcnt d a b s = .next (finish (putNat d 8 s)) := by
  unfold execCwcnt
  dsimp only
  rw [bitAt_eq_decide, if_neg (by simp [hb]), bits_low_two, if_pos hi]

theorem writes_putWord (d : BitVec 6) (v : Word) (s : State) : Writes (.next (finish (putWord d v s))) s d { val := v } := writes_putReg s d _

theorem writes_putNat (d : BitVec 6) (v : Nat) (s : State) : Writes (.next (finish (putNat d v s))) s d { val := BitVec.ofNat 128 v } :=
  writes_putReg s d _

theorem execCqry_eq (d a : BitVec 6) (s : State) :
    execCqry d a s =
      (match rn s a / 4 % 4 with
       | 0 => .next (finish (putNat d (tget (cx s).cnt (rn s a % 4) 0) s))
       | 1 =>
         if rn s a % 4 = 0 then .next (finish (putNat d 8 s))
         else .next (finish (putNat d (tget (cx s).barr (rn s a % 4) 0)
           (if rn s a / 16 % 2 = 1 then setCx s { cx s with barr := tdel (cx s).barr (rn s a % 4) } else s)))
       | 2 => .next (finish (putWord d (tget (cx s).cfault (rn s a % 4) 0)
           (if rn s a / 16 % 2 = 1 then setCx s { cx s with cfault := tdel (cx s).cfault (rn s a % 4) } else s)))
       | _ => .next (finish (putNat d ((cx s).copies.length + (cx s).cq.length * 256) s))) := by
  unfold execCqry
  dsimp only
  rw [bits_low_two, bits_three_two, bitAt_eq_decide]
  simp only [decide_eq_true_eq]
  rfl

/-- A query that may also clear what it reads. -/
theorem completes_putWord_ite (p : Prop) [Decidable p] (s : State) (y : Ctx) (d : BitVec 6) (v : Word) :
    Completes (.next (finish (putWord d v (if p then setCx s y else s)))) (completed s (setReg (if p then y else cx s) d.toNat { val := v })) := by
  split
  · exact completes_putReg_setCx s y d { val := v }
  · exact writes_putWord d v s

/-! ## Matrix words (R270 to R287) -/

/-- A matrix command with its guard as that stands, and the place and time of its issue. -/
def MCmd.issuedAt (m : MCmd) (g : Option (BitVec 3)) (s : State) : MCmd :=
  { m with bind := bindTo (cx s) g, grd := g.map (·.toNat), pc := (cx s).pc, seq := s.tick }

/-- A context in whose matrix queue a command stands behind the others. -/
def Ctx.queueMatrix (m : MCmd) (x : Ctx) : Ctx := { x with mq := x.mq ++ [m] }

theorem issueMatrix_of_room {i : Instr} {g : Option (BitVec 3)} {k1 k2 k3 k4 : Reg} {m : MCmd} {s : State} (hroom : matrixUsed (cx s) < 8)
    (hm : matrixCmd i k1 k2 k3 k4 (numEnv (cx s) false) = some m) :
    issueMatrix i g k1 k2 k3 k4 s =
      if (cx s).tx.isSome && (m.issuedAt g s).staged (cx s) then .next (trapWord 0x0A s)
      else .next (setCx (finish s) ((cx (finish s)).queueMatrix (m.issuedAt g s))) := by
  unfold issueMatrix
  dsimp only
  rw [if_neg (by omega), hm]
  rfl

theorem completes_issueMatrix {i : Instr} {g : Option (BitVec 3)} {k1 k2 k3 k4 : Reg} {m : MCmd} {s : State} (hroom : matrixUsed (cx s) < 8)
    (hm : matrixCmd i k1 k2 k3 k4 (numEnv (cx s) false) = some m) (h : (cx s).tx = none ∨ (m.issuedAt g s).staged (cx s) = false) :
    Completes (issueMatrix i g k1 k2 k3 k4 s) (completed s ((cx s).queueMatrix (m.issuedAt g s))) := by
  rw [issueMatrix_of_room hroom hm, isSome_and_eq_false h]
  exact completes_setCx_finish (Ctx.queueMatrix (m.issuedAt g s)) (Ctx.queueMatrix (m.issuedAt g s)) (fun _ => rfl) (fun _ => rfl)

theorem traps_issueMatrix {i : Instr} {g : Option (BitVec 3)} {k1 k2 k3 k4 : Reg} {m : MCmd} {s : State} (hroom : matrixUsed (cx s) < 8)
    (hm : matrixCmd i k1 k2 k3 k4 (numEnv (cx s) false) = some m) (htx : (cx s).tx ≠ none) (h : (m.issuedAt g s).staged (cx s) = true) :
    Traps (issueMatrix i g k1 k2 k3 k4 s) s 0x0A 0 (issuedWord s) := by
  rw [issueMatrix_of_room hroom hm, isSome_and_eq_true htx h]
  exact traps_misuse s

/-- The registers that a matrix word reads at its issue. -/
def matrixOperands (s : State) : Instr → Reg × Reg × Reg × Reg
  | .mld _ _ y z _ _ _ => (k48 s y, k48 s z, {}, {})
  | .mdrn _ _ y z _ _ _ _ _ _ _ => (k48 s y, reg (cx s) (49 + y.toNat), k48 s z, {})
  | .mspl _ _ y _ _ _ | .mrst _ _ y _ _ _ => (k48 s y, {}, {}, {})
  | .msnd _ x y z => (k48 s x, k48 s y, k48 s z, reg (cx s) (49 + z.toNat))
  | .mmovG _ _ z => (k48 s z, {}, {}, {})
  | _ => ({}, {}, {}, {})

/-- Issues a matrix word with the registers that it reads. -/
def issueMatrixWord (i : Instr) (g : Option (BitVec 3)) (s : State) : Out :=
  let r := matrixOperands s i
  issueMatrix i g r.1 r.2.1 r.2.2.1 r.2.2.2 s

theorem exec_matrixWords (s : State) (g : Option (BitVec 3)) (x y z : BitVec 3) (a : BitVec 2) (i c r e : Bool) (n : BitVec 2) (l f : Bool)
    (p : BitVec 3) (q t : Bool) : ∀ m ∈ matrixWords s g x y z a i c r e n l f p q t, exec m.1 s = issueMatrixWord m.1 g s := by
  simp only [matrixWords, List.forall_mem_append, List.forall_mem_cons, List.not_mem_nil, false_implies, implies_true, and_true]
  refine ⟨⟨?_, ?_, ?_, ?_, ?_, ?_⟩, ?_, ?_, ?_, ?_, ?_, ?_⟩ <;> rfl

theorem matrixCmd_matrixWords (s : State) (g : Option (BitVec 3)) (x y z : BitVec 3) (a : BitVec 2) (i c r e : Bool) (n : BitVec 2) (l f : Bool)
    (p : BitVec 3) (q t : Bool) : ∀ m ∈ matrixWords s g x y z a i c r e n l f p q t,
      (let k := matrixOperands s m.1
       matrixCmd m.1 k.1 k.2.1 k.2.2.1 k.2.2.2 (numEnv (cx s) false)) = some m.2 := by
  simp only [matrixWords, List.forall_mem_append, List.forall_mem_cons, List.not_mem_nil, false_implies, implies_true, and_true]
  refine ⟨⟨?_, ?_, ?_, ?_, ?_, ?_⟩, ?_, ?_, ?_, ?_, ?_, ?_⟩ <;> rfl

theorem bits_low_three (v : Nat) : bits v 2 0 = v % 8 := by simp [bits]

theorem execMqry_eq (d a : BitVec 6) (s : State) :
    execMqry d a s =
      (match rn s a % 8 with
       | 0 => .next (finish (putNat d ((List.range 8).map fun j => ((mslot (cx s) j).st + (if isHead (cx s) j then 8 else 0)) * 16 ^ j).sum s))
       | 1 =>
         let h := mslot (cx s) (rn s a / 16 % 8)
         .next (finish (putNat d (h.rowsp + h.kv * 2 ^ 8 + Nat.log2 h.span * 2 ^ 17 + h.st * 2 ^ 24 + partMask h * 2 ^ 32) s))
       | 2 => .next (finish (putWord d (cx s).mfault s))
       | 3 => .next (finish (putWord d (cx s).mfault (setCx s { cx s with mfault := 0 })))
       | 4 => .next (finish (putNat d (gammaOf (cx s) (rn s a / 16 % 4)) s))
       | 5 => .next (finish (putNat d (matrixUsed (cx s) + (cx s).fills.length * 16) s))
       | _ => .next (finish (putNat d 8 s))) := by
  have digit : ∀ j, fld ((mslot (cx s) j).st + (if isHead (cx s) j then 8 else 0)) (4 * j) =
      ((mslot (cx s) j).st + (if isHead (cx s) j then 8 else 0)) * 16 ^ j := by
    intro j
    rw [fld, Nat.pow_mul]
  have group : bits (rn s a) 6 4 = rn s a / 16 % 8 := by simp [bits]
  have acc : bits (rn s a) 5 4 = rn s a / 16 % 4 := by simp [bits]
  unfold execMqry
  dsimp only
  rw [bits_low_three, group, acc]
  simp only [digit]
  rfl

theorem execMqry_of_undefined {d a : BitVec 6} {s : State} (h : 6 ≤ rn s a % 8) : execMqry d a s = .next (finish (putNat d 8 s)) := by
  have last : rn s a % 8 = 6 ∨ rn s a % 8 = 7 := by omega
  rcases last with last | last <;> (rw [execMqry_eq, last]; rfl)

theorem execMwait_of_idle {d : BitVec 6} {s : State} (hq : (cx s).mq = []) (hf : (cx s).fills = []) (hs : (cx s).mstores = [])
    (hm : (cx s).mmas = []) (hn : (cx s).msnds = [])
    (h : ∀ q ∈ ctxAccesses s s.cur (onSup s), q.eng = 2 → performedAt s 6 q = true) :
    execMwait d s = .next (finish (putWord d (cx s).mfault s)) := by
  have done : matrixDone (cx s) = true := by simp [matrixDone, hq, hf, hs, hm, hn]
  have none_ : (ctxAccesses s s.cur (onSup s)).any (fun a => a.eng == 2 && !performedAt s 6 a) = false := by
    simp only [List.any_eq_false]
    intro q hq
    by_cases he : q.eng = 2
    · simp [h q hq he]
    · simp [he]
  unfold execMwait
  dsimp only
  rw [done, none_]
  rfl

/-- Settles O36. -/
theorem copyAndMatrixWords : Obligations.CopyAndMatrixWords := by
  constructor
  · intro s g x y z b p r q n d a w k v i
    refine ⟨fun c hc hroom => ?_, fun hb h => ?_, fun hb hi => ?_, fun hb hi h => ?_, fun h => ?_, fun h hi => ?_, fun h hi => ?_, fun h => ?_, fun h => ?_⟩
    · rw [exec_copyWords s g x y z b p r q n c hc]
      exact ⟨completes_issueCopy hroom, traps_issueCopy hroom⟩
    · exact completes_of_eq (execCwcnt_of_count hb h) (writes_putWord d _ s)
    · exact completes_of_eq (execCwcnt_of_barrier_zero hb hi) (writes_putNat d 8 s)
    · exact completes_of_eq (execCwcnt_of_barrier hb hi h) (writes_putNat d _ s)
    all_goals have e := execCqry_eq d a s
    · rw [show rn s a / 4 % 4 = 0 from h] at e
      exact completes_of_eq e (writes_putNat d _ s)
    · rw [show rn s a / 4 % 4 = 1 from h] at e
      exact completes_of_eq (e.trans (if_pos hi)) (writes_putNat d 8 s)
    · rw [show rn s a / 4 % 4 = 1 from h] at e
      exact completes_of_eq (e.trans (if_neg hi)) (completes_putWord_ite _ s _ d _)
    · rw [show rn s a / 4 % 4 = 2 from h] at e
      exact completes_of_eq e (completes_putWord_ite _ s _ d _)
    · rw [show rn s a / 4 % 4 = 3 from h] at e
      exact completes_of_eq e (writes_putNat d _ s)
  · intro s g x y z a i c r e n l f p q t d w k v h
    refine ⟨fun m hm hroom => ?_, ?_, ?_, ?_, ?_, ?_, ?_, ?_, ?_⟩
    · have cmd := matrixCmd_matrixWords s g x y z a i c r e n l f p q t m hm
      rw [exec_matrixWords s g x y z a i c r e n l f p q t m hm]
      exact ⟨completes_issueMatrix hroom cmd, traps_issueMatrix hroom cmd⟩
    · intro hv
      have e := execMqry_eq d w s
      rw [show rn s w % 8 = 0 from hv] at e
      exact completes_of_eq e (writes_putNat d _ s)
    · intro hv
      have e := execMqry_eq d w s
      rw [show rn s w % 8 = 1 from hv] at e
      exact completes_of_eq e (writes_putNat d _ s)
    · intro hv
      have e := execMqry_eq d w s
      rw [show rn s w % 8 = 2 from hv] at e
      exact completes_of_eq e (writes_putWord d _ s)
    · intro hv
      have e := execMqry_eq d w s
      rw [show rn s w % 8 = 3 from hv] at e
      exact completes_of_eq e (completes_putReg_setCx s _ d _)
    · intro hv
      have e := execMqry_eq d w s
      rw [show rn s w % 8 = 4 from hv] at e
      exact completes_of_eq e (writes_putNat d _ s)
    · intro hv
      have e := execMqry_eq d w s
      rw [show rn s w % 8 = 5 from hv] at e
      exact completes_of_eq e (writes_putNat d _ s)
    · intro hv
      exact completes_of_eq (execMqry_of_undefined hv) (writes_putNat d 8 s)
    · exact fun hq hf hs hm hn h => completes_of_eq (execMwait_of_idle hq hf hs hm hn h) (writes_putWord d _ s)

/-! ## Groups of operand slots (R268 to R270) -/

/-- The head slot of a group that has been written. -/
theorem mslot_putGroup_head (x : Ctx) (h : Nat) (m : MSlot) (hs : 0 < m.span) : mslot (x.putGroup h m) h = { m with head := h } := by
  have last : ∀ n, 0 < n → tget ((List.range n).foldl (fun t i =>
      tset t (h + i) (if i = 0 then { m with head := h } else { st := m.st, head := h, span := m.span })) x.mslots) h {} = { m with head := h } := by
    intro n hn
    induction n with
    | zero => omega
    | succ n ih =>
      rw [List.range_succ, List.foldl_concat, tget_tset]
      by_cases h0 : n = 0
      · simp [h0]
      · rw [if_neg (by omega)]
        exact ih (by omega)
  exact last m.span hs

theorem mslot_freeGroup_head (x : Ctx) (h span : Nat) (hs : 0 < span) : mslot (x.freeGroup h span) h = {} := by
  have last : ∀ n, 0 < n → tget ((List.range n).foldl (fun t i => tdel t (h + i)) x.mslots) h {} = ({} : MSlot) := by
    intro n hn
    induction n with
    | zero => omega
    | succ n ih =>
      rw [List.range_succ, List.foldl_concat, tget_tdel]
      by_cases h0 : n = 0
      · simp [h0]
      · rw [if_neg (by omega)]
        exact ih (by omega)
  exact last span hs

/-- A released group is free once no fill and no store of it is in flight, and RELEASING until then (R270). -/
theorem mslot_endWork_released (x : Ctx) (h span : Nat) (hs : 0 < span) :
    (mslot ((x.putGroup h { st := slotReleasing, head := h, span := span }).endWork h) h).st =
      if (x.fills.any fun f => f.slot == h) || (x.mstores.any fun p => p.groups.contains h) then 6 else 0 := by
  have head := mslot_putGroup_head x h { st := slotReleasing, head := h, span := span } hs
  unfold Ctx.endWork
  rw [head]
  by_cases busy : ((x.fills.any fun f => f.slot == h) || (x.mstores.any fun p => p.groups.contains h)) = true
  · rw [if_pos busy, if_neg, head]
    · rfl
    · rintro ⟨-, hf, hm⟩
      rcases Bool.or_eq_true_iff.mp busy with hb | hb
      · exact Bool.false_ne_true ((Bool.not_eq_true' _ ▸ hf : _ = false).symm.trans hb)
      · exact Bool.false_ne_true ((Bool.not_eq_true' _ ▸ hm : _ = false).symm.trans hb)
  · obtain ⟨hf, hm⟩ := Bool.or_eq_false_iff.mp (Bool.eq_false_iff.mpr busy)
    have hf' : ((x.putGroup h { st := slotReleasing, head := h, span := span }).fills.any fun f => f.slot == h) = false := hf
    have hm' : ((x.putGroup h { st := slotReleasing, head := h, span := span }).mstores.any fun p => p.groups.contains h) = false := hm
    rw [if_neg busy, if_pos ⟨rfl, by rw [hf']; rfl, by rw [hm']; rfl⟩, mslot_freeGroup_head _ _ _ hs]

/-! ## The command at the head of a matrix queue (R270 to R278) -/

theorem takeMclm_of_free {s : State} {c : Nat} {sup : Bool} {m : MCmd} {span : Nat}
    (h : ∀ i, i < span → (mslot (ctxOf s c sup) (m.x + i)).st = 0) :
    takeMclm c sup m span s = .done (setCtxOf (popMatrix c sup (matrixCycles c 1 s)) c sup
      ((ctxOf (popMatrix c sup (matrixCycles c 1 s)) c sup).putGroup m.x { st := 1, head := m.x, span := span })) := by
  have free : ∀ p : Nat → Bool, p 0 = false → (((List.range span).map fun i => (mslot (ctxOf s c sup) (m.x + i)).st).any p) = false := by
    intro p hp
    simp only [List.any_map, List.any_eq_false, List.mem_range]
    intro i hi
    simp [h i hi, hp]
  unfold takeMclm
  dsimp only
  rw [free _ rfl, free _ rfl]
  rfl

theorem takeMrel_of_head {s : State} {c : Nat} {sup : Bool} {m : MCmd} (hh : isHead (ctxOf s c sup) m.x = true)
    (hst : (mslot (ctxOf s c sup) m.x).st ≠ 6) :
    takeMrel c sup m s = .done (setCtxOf (popMatrix c sup (matrixCycles c 1 s)) c sup
      (((ctxOf (popMatrix c sup (matrixCycles c 1 s)) c sup).putGroup m.x
        { st := 6, head := m.x, span := (mslot (ctxOf s c sup) m.x).span }).endWork m.x)) := by
  have go : (!isHead (ctxOf s c sup) m.x || (mslot (ctxOf s c sup) m.x).st == slotReleasing) = false := by
    simp [hh, slotReleasing, hst]
  unfold takeMrel
  dsimp only
  rw [go]
  rfl

theorem takeMma_of_full {s : State} {c : Nat} {sup : Bool} {m : MCmd} {n : Nat} {e r cm int : Bool}
    (hy : isHead (ctxOf s c sup) m.y = true) (hz : isHead (ctxOf s c sup) m.z = true)
    (sy : (mslot (ctxOf s c sup) m.y).st = 3) (sz : (mslot (ctxOf s c sup) m.z).st = 3)
    (hi : (int && !((tileFmts (mslot (ctxOf s c sup) m.y) ++ tileFmts (mslot (ctxOf s c sup) m.z)).all fun f => decide (9 ≤ f) && decide (f ≤ 13))) = false) :
    takeMma c sup m n e r cm int s =
      (let x := ctxOf s c sup
       let a := mslot x m.y
       let b := mslot x m.z
       let q := mmaCells (accTable x m.x) (if e then some (gammaOf x m.x) else none) a b (n == 1) r cm int
       let t := popMatrix c sup (matrixCycles c (mmaCycles (tileFmts a) (tileFmts b) (Nat.min a.kv b.kv)) s)
       let y := ctxOf t c sup
       .done (setCtxOf t c sup { y with fresh := tset y.fresh m.x q.1, mmas := y.mmas ++ [⟨m.x, m.grd, m.remote, q.2⟩] })) := by
  unfold takeMma
  dsimp only
  rw [if_neg (by simp [sy, slotFilling]), if_neg (by simp [sz, slotFilling]), if_neg (by simp [hy, hz, sy, sz, slotFull]), hi]
  rfl

theorem takeMmov_coefficient (s : State) (c : Nat) (sup : Bool) (m : MCmd) :
    takeMmov c sup m 1 s =
      (let t := popMatrix c sup (matrixCycles c 1 s)
       let y := ctxOf t c sup
       .done (setCtxOf t c sup { y with gamma := tset y.gamma m.x (m.k1.val.setWidth 32) })) := by
  have low : BitVec.ofNat 32 (wbits m.k1.val 31 0) = m.k1.val.setWidth 32 := by
    apply BitVec.eq_of_toNat_eq
    simp [wbits, bits]
  rw [← low]
  rfl

theorem takeMmov_of_idle {s : State} {c k : Nat} {sup : Bool} {m : MCmd} (hk : k ≠ 1) (h : accBusy (ctxOf s c sup) m.y = false) :
    takeMmov c sup m k s =
      (let old := accTable (ctxOf s c sup) m.y
       let t := popMatrix c sup (matrixCycles c 32 s)
       .done (setCtxOf t c sup (((ctxOf t c sup).writeback m.x).putCells m.x
         (if k = 0 then old else cellTable fun i => (tget old (32 * (i % 32) + i / 32) 0#32).toNat)))) := by
  unfold takeMmov
  dsimp only
  rw [if_neg hk, if_neg (by simp [h])]

/-- Settles O37. -/
theorem matrixCommands : Obligations.MatrixCommands := by
  intro s c sup m x y done
  refine ⟨fun span hop h => ?_, fun hop hh hst => ?_, fun n e r cm int hop hy hz sy sz => ?_, fun hop => ?_, fun hop h => ?_, fun hop => ?_, fun hop h => ?_⟩
  · rw [takeHead, hop]
    exact takeMclm_of_free h
  · refine ⟨?_, mslot_endWork_released (y 1) m.x _⟩
    rw [takeHead, hop]
    exact takeMrel_of_head hh hst
  · intro a b q w hint
    have ok : (int && !((tileFmts a ++ tileFmts b).all fun f => decide (9 ≤ f) && decide (f ≤ 13))) = false := by
      cases int with
      | false => rfl
      | true =>
        have all : ((tileFmts a ++ tileFmts b).all fun f => decide (9 ≤ f) && decide (f ≤ 13)) = true :=
          List.all_eq_true.mpr fun f hf => by simpa using hint rfl f hf
        rw [all]
        rfl
    rw [takeHead, hop]
    exact takeMma_of_full hy hz sy sz ok
  · rw [takeHead, hop]
    rfl
  · rw [takeHead, hop]
    exact takeMmov_of_idle (by decide) h
  · rw [takeHead, hop]
    exact takeMmov_coefficient s c sup m
  · rw [takeHead, hop]
    exact takeMmov_of_idle (by decide) h

end Sys2Proof.Machine
end

section
/-! SUPPORT. Banks, messages, barriers and chains as words (R192 to R206, R297, R306 to R317). -/

namespace Sys2Proof.Machine

open Sys2Proof.Claims

/-! ## A wait at a slot that is being handed over (R198) -/

/-- A machine whose core 3, behind core 5 in the list of cores, has its turn. -/
def outOfOrder (k : Core) : State := { State.reset with cur := 3, cores := [(5, {}), (3, k)] }

/-- A core whose user context's slot 0 is being handed over. -/
def drainingCore : Core := { user := { attach := [(0, { valid := true, st := 1 })] } }

/-- Refutes O38: a DET that waits at a draining slot charges its cycle to its core, which puts the core in its place in the list of cores;
where the list does not rise, that is not the state of before. -/
theorem not_bankWords : ¬ Obligations.BankWords := by
  intro h
  obtain ⟨-, -, -, -, -, -, -, -, -, -, -, waits, -⟩ := h (outOfOrder drainingCore) 0 0 0 rfl (by decide)
  obtain ⟨det, -⟩ := waits rfl (.inl rfl)
  exact not_completes_wait (c := 8) rfl rfl rfl det

/-! ## Fences and sends (R297, R306, R307) -/

theorem releasing_of_released {scope : Nat} {f : State → Out} {s : State} (h : released s scope = true) : releasing scope f s = f s := if_pos h

theorem bitAt_of_zero {v i : Nat} (h : v / 2 ^ i % 2 = 0) : bitAt v i = false := by simp [bitAt, h]

theorem bitAt_of_one {v i : Nat} (h : v / 2 ^ i % 2 = 1) : bitAt v i = true := by simp [bitAt, h]

/-- The message of a SEND whose target field has the CORE layout (R306). -/
theorem sendMsg_of_legal {s : State} {d a b : BitVec 6} (h : rn s a / 2 ^ 13 % 8 = 0)
    (ht : rn s a / 2 ^ 12 % 2 = 1 ∨ rn s a / 2 ^ 16 % 2 ^ 16 = 0) : sendMsg d.toNat (rn s a) (rv s b) s = some (message s d a b) := by
  have clove : bitAt (rn s a) 15 = false := bitAt_of_zero (by omega)
  have form : bits (rn s a) 14 13 = 0 := by simp only [bits]; omega
  have tag : bits (rn s a) 31 16 = rn s a / 2 ^ 16 % 2 ^ 16 := rfl
  have legal : ¬ (bits (rn s a) 14 13 ≠ 0 ∨ (!bitAt (rn s a) 12) = true ∧ bits (rn s a) 31 16 ≠ 0) := by
    rintro (hf | ⟨ht', hg⟩)
    · exact hf form
    · rcases ht with ht | ht
      · rw [bitAt_of_one ht] at ht'
        cases ht'
      · exact hg (tag.trans ht)
  unfold sendMsg
  rw [clove]
  simp only [namedCore, Bool.not_false, if_true, if_neg legal]
  have target : bits (rn s a) 11 0 = rn s a % 4096 := by simp [bits]
  rw [target]
  rfl

theorem sendMsg_of_illegal {s : State} {d a b : BitVec 6} (h : rn s a / 2 ^ 13 % 4 ≠ 0) : sendMsg d.toNat (rn s a) (rv s b) s = none := by
  have form : bits (rn s a) 14 13 ≠ 0 := by simpa [bits] using h
  unfold sendMsg
  split
  · rw [if_pos (.inl form)]
  · rfl

/-- A context with one more message whose status has not come. -/
def Ctx.sending (x : Ctx) : Ctx := { x with sends := x.sends + 1 }

/-- The state in which a message is on its way, its target woken. -/
def messageSent (m : Msg) (tagged : Bool) (d : BitVec 6) (s : State) : State := wakeCore m.target (send (msgEvent tagged m) (pendReg d 8 s))

theorem execSend_of_room {s : State} {d a b : BitVec 6} {n : BitVec 4} (htx : (cx s).tx = none) (hr : released s n.toNat = true)
    (hs : (cx s).sends < 8) :
    execSend d a b n s =
      (match sendMsg d.toNat (rn s a) (rv s b) s with
       | none => .next (finish (putNat d 8 s))
       | some m =>
         if (core s m.target).mappedOut then .next (finish (putNat d 5 s))
         else .next (finish (setCx (messageSent m (bitAt (rn s a) 12) d s) (cx (messageSent m (bitAt (rn s a) 12) d s)).sending))) := by
  unfold execSend
  simp only [htx]
  rw [releasing_of_released hr, if_neg (by omega)]
  rfl

theorem completes_execSend {s : State} {d a b : BitVec 6} {n : BitVec 4} {m : Msg} (htx : (cx s).tx = none) (hr : released s n.toNat = true)
    (hs : (cx s).sends < 8) (hm : sendMsg d.toNat (rn s a) (rv s b) s = some m) (ho : (core s m.target).mappedOut = false) :
    Completes (execSend d a b n s)
      (completed (messageSent m (bitAt (rn s a) 12) d s) (cx (messageSent m (bitAt (rn s a) 12) d s)).sending) := by
  rw [execSend_of_room htx hr hs, hm]
  dsimp only
  rw [if_neg (by rw [ho]; exact Bool.false_ne_true)]
  exact completes_setCx _ _

/-! ## Ports (R309, R310) -/

theorem popPort_of_word {s : State} {port : Nat} {f : Word → State → Out} {w : Word} {r : List Word} (h : tget (cx s).ports port [] = w :: r) :
    popPort port f s = f w (setCx s { cx s with ports := if r.isEmpty then tdel (cx s).ports port else tset (cx s).ports port r }) := by
  unfold popPort
  dsimp only
  rw [h]

theorem execRecvF_of_word {s : State} {d p' p : BitVec 6} {w : Word} {r : List Word} (h : tget (cx s).ports p.toNat [] = w :: r)
    (ha : portAccepts s s.cur p'.toNat = true) :
    execRecvF d p' p s = .next (finish (putWord d w (portSend p'.toNat w
      (setCx s { cx s with ports := if r.isEmpty then tdel (cx s).ports p.toNat else tset (cx s).ports p.toNat r })))) := by
  unfold execRecvF
  rw [if_neg (by simp [ha]), popPort_of_word h]

/-! ## Inboxes (R308) -/

theorem takeItem_cur (c : Nat) (sup : Bool) (i : InboxItem) (s : State) : (takeItem c sup i s).cur = s.cur := by
  cases i with
  | msg => rfl
  | block => rfl
  | notice kind slot bank src srcSlot cause =>
    simp only [takeItem]
    split <;> rfl

theorem recvItem_of_item {s : State} {d h : BitVec 6} {empty : State → Out} {i : InboxItem} {is : List InboxItem} (hi : (cx s).inbox = i :: is) :
    recvItem d h empty s =
      .next (finish (putNat h i.header (putWord d i.word (letIn s.cur (takeItem s.cur (onSup s) i (setCx s { cx s with inbox := is })))))) := by
  unfold recvItem
  dsimp only
  rw [hi]
  dsimp only
  rw [takeItem_cur, setCx_cur]

/-- A word whose whole effect is two registers. -/
theorem completes_putNat_putWord (s : State) (c d : BitVec 6) (v : Word) (w : Nat) :
    Completes (.next (finish (putNat c w (putWord d v s))))
      (completed s (setReg (setReg (cx s) d.toNat { val := v }) c.toNat { val := BitVec.ofNat 128 w })) :=
  completes_putReg_setCx s (setReg (cx s) d.toNat { val := v }) c { val := BitVec.ofNat 128 w }

theorem recvItem_of_empty {s : State} {d h : BitVec 6} {empty : State → Out} (hi : (cx s).inbox = []) : recvItem d h empty s = empty s := by
  unfold recvItem
  dsimp only
  rw [hi]

/-! ## Posted receives and probes (R311, R312) -/

theorem takeFirst_of_none {α : Type} {f : α → Bool} {l : List α} (h : ∀ x ∈ l, f x = false) : takeFirst f l = none := by
  induction l with
  | nil => rfl
  | cons x l ih =>
    simp [takeFirst, h x List.mem_cons_self, ih fun y hy => h y (List.mem_cons_of_mem x hy)]

/-- The receive that a PRECV of legal operands posts (R311). -/
def postedRecv (x : Ctx) (v addr : Nat) : Precv :=
  { handle := freeHandle x, src := v % 4096, anys := v.testBit 12, tag := v / 2 ^ 16 % 2 ^ 16, anyt := v.testBit 32, addr := addr }

theorem execPrecv_of_core {s : State} {d a b : BitVec 6} (h : rn s a / 2 ^ 15 % 2 = 0) :
    execPrecv d a b s =
      if rn s b % 2 ^ 32 % 16 ≠ 0 then .next (finish (putNat d 8 s))
      else if 32 ≤ (cx s).precvs.length then .next (finish (putNat d 13 s))
      else
        let p := postedRecv (cx s) (rn s a) (rn s b % 2 ^ 32)
        .next (finish (putNat d (fld p.handle 8) (match takeFirst (fun m : TagMsg => p.accepts m.src m.tag) (cx s).tagq with
          | some (m, rest) =>
            completeRecv s.cur (onSup s) p m.payload m.src m.tag m.clock (setCx s { cx s with precvs := (cx s).precvs ++ [p], tagq := rest })
          | none => setCx s { cx s with precvs := (cx s).precvs ++ [p] }))) := by
  have src : bits (rn s a) 11 0 = rn s a % 4096 := by simp [bits]
  unfold execPrecv
  dsimp only
  rw [bitAt_of_zero h, namedCore, src, bitAt_eq_testBit, bitAt_eq_testBit]
  rfl

theorem accepts_eq_false {p : Precv} {src tag : Nat} (h : ¬ ((p.anys = true ∨ src = p.src) ∧ (p.anyt = true ∨ tag = p.tag))) :
    p.accepts src tag = false := by
  refine Bool.eq_false_iff.mpr fun ha => h ?_
  simp only [Precv.accepts, Bool.and_eq_true, Bool.or_eq_true, beq_iff_eq] at ha
  exact ⟨ha.1.imp id Eq.symm, ha.2.imp id Eq.symm⟩

theorem execPrecv_of_legal {s : State} {d a b : BitVec 6} (h : rn s a / 2 ^ 15 % 2 = 0) (hal : rn s b % 16 = 0) (hroom : (cx s).precvs.length < 32)
    (hq : ∀ g ∈ (cx s).tagq, (postedRecv (cx s) (rn s a) (rn s b % 2 ^ 32)).accepts g.src g.tag = false) :
    execPrecv d a b s = .next (finish (putNat d (freeHandle (cx s) * 256)
      (setCx s { cx s with precvs := (cx s).precvs ++ [postedRecv (cx s) (rn s a) (rn s b % 2 ^ 32)] }))) := by
  rw [execPrecv_of_core h, if_neg (by omega), if_neg (by omega)]
  dsimp only
  rw [takeFirst_of_none hq]
  rfl

/-- The handle field of a PROBE (R312). -/
theorem bits_handle (v : Nat) : bits v 12 8 = v / 2 ^ 8 % 32 := rfl

theorem probeOf_of_none {d a : BitVec 6} {incomplete : Nat → State → Out} {s : State}
    (h : (cx s).precvs.find? (fun u => u.handle == rn s a / 2 ^ 8 % 32) = none) : probeOf d a incomplete s = .next (finish (putNat d 8 s)) := by
  unfold probeOf
  simp only [bits_handle, h]

theorem probeOf_of_done {d a : BitVec 6} {incomplete : Nat → State → Out} {s : State} {p : Precv} {r : Nat × Nat × Nat}
    (h : (cx s).precvs.find? (fun u => u.handle == rn s a / 2 ^ 8 % 32) = some p) (hd : p.done = some r) :
    probeOf d a incomplete s = .next (finish (putNat d (probeWord r)
      (setCx s { cx s with precvs := (cx s).precvs.filter fun q => q.handle != rn s a / 2 ^ 8 % 32 }))) := by
  unfold probeOf
  simp only [bits_handle, h, hd]

theorem probeOf_of_posted {d a : BitVec 6} {incomplete : Nat → State → Out} {s : State} {p : Precv}
    (h : (cx s).precvs.find? (fun u => u.handle == rn s a / 2 ^ 8 % 32) = some p) (hd : p.done = none) :
    probeOf d a incomplete s = incomplete (rn s a / 2 ^ 8 % 32) s := by
  unfold probeOf
  simp only [bits_handle, h, hd]

/-- Settles O39. -/
theorem messageWords : Obligations.MessageWords := by
  intro s d a b n p p' w r i is h x v m port posted
  refine ⟨fun hr => ?_, fun htx hr hs hf hb ht ho => ?_, fun htx hr hs hf hb ho => ?_, fun htx hr hs hf => ?_, fun htx ha => ?_, fun hp => ?_,
    fun hp ha => ?_, fun hi => ?_, fun hi => ?_, fun hc hal hroom hq => ?_, fun hc hal => ?_, fun g hg hf => ?_, fun hf hd => ?_, fun hf => ?_⟩
  · exact completes_of_eq (show execFence n s = _ from releasing_of_released hr) (completes_finish s)
  · have sent := completes_execSend htx hr hs (sendMsg_of_legal hf (.inr ht)) ho
    rw [show bitAt (rn s a) 12 = false from bitAt_of_zero hb] at sent
    exact sent
  · have sent := completes_execSend htx hr hs (sendMsg_of_legal (b := b) (d := d) hf (.inl hb)) ho
    rw [show bitAt (rn s a) 12 = true from bitAt_of_one hb] at sent
    exact sent
  · have refused := execSend_of_room (d := d) (a := a) (b := b) htx hr hs
    rw [sendMsg_of_illegal hf] at refused
    exact completes_of_eq refused (writes_putNat d 8 s)
  · have out : execSendPort p b s = .next (finish (portSend p.toNat (rv s b) s)) := by
      unfold execSendPort
      rw [if_neg (by rw [htx]; exact Bool.false_ne_true), if_pos ha]
    exact completes_of_eq out (completes_finish _)
  · exact completes_of_eq (show execRecvPort d p s = _ from popPort_of_word hp) (completes_putReg_setCx s _ d _)
  · exact completes_of_eq (execRecvF_of_word hp ha) (writes_putWord d w _)
  · intro t e
    exact ⟨completes_of_eq (show execRecv d a b s = _ from recvItem_of_item hi) (completes_putNat_putWord t a d _ _),
      completes_of_eq (show execRecvT d a s = _ from recvItem_of_item hi) (completes_putNat_putWord t a d _ _)⟩
  · exact completes_of_eq (show execRecvT d a s = _ from recvItem_of_empty hi) (completes_putNat_putWord s a d 0 0xFF)
  · exact completes_of_eq (execPrecv_of_legal hc hal hroom fun g hg => accepts_eq_false (hq g hg)) (completes_putReg_setCx s _ d _)
  · exact completes_of_eq ((execPrecv_of_core hc).trans (if_pos (by have : rn s b % 16 ≠ 0 := hal; omega))) (writes_putNat d 8 s)
  · intro e
    exact ⟨completes_of_eq (show execProbe d a b s = _ from probeOf_of_done hf hg) (completes_putReg_setCx s _ d _),
      completes_of_eq (show execProbeT d a s = _ from probeOf_of_done hf hg) (completes_putReg_setCx s _ d _)⟩
  · exact completes_of_eq (show execProbeT d a s = _ from probeOf_of_posted hf hd) (writes_putNat d 16 s)
  · exact ⟨completes_of_eq (show execProbe d a b s = _ from probeOf_of_none hf) (writes_putNat d 8 s),
      completes_of_eq (show execProbeT d a s = _ from probeOf_of_none hf) (writes_putNat d 8 s)⟩

/-! ## Barriers (R314) -/

/-- A word that waits in a named wait (R308, R314): its context is set, and a cycle passes. -/
theorem completes_waitIn (cause : Nat) (w : Waiting) (s : State) :
    Completes (.next (waitIn cause w s)) (setCx s { cx s with waiting := some w }) := by
  refine ⟨_, rfl, ?_⟩
  rw [waitIn, still_wait]
  exact congrArg still (listed_setCx s _)

/-- A BAR whose operands are legal (R314). -/
theorem execBar_of_legal {s : State} {d a : BitVec 6} (htx : (cx s).tx = none) (hw : (cx s).waiting = none) (hc : s.cur < 4096)
    (hsc : rn s a % 4 < 3) (hid : rn s a / 4 % 16 < barrierCount (rn s a % 4)) (h0 : 0 < rn s a / 2 ^ 8 % 128) (h64 : rn s a / 2 ^ 8 % 128 ≤ 64)
    (hr : released s (rn s a % 4 + 1) = true) :
    execBar d a s = .next (arriveAt d (barrierKey s.cur (rn s a % 4) (rn s a / 4 % 16)) (rn s a / 2 ^ 8 % 128) s) := by
  have scope : bits (rn s a) 1 0 = rn s a % 4 := bits_low_two _
  have number : bits (rn s a) 5 2 = rn s a / 4 % 16 := rfl
  have count : bits (rn s a) 14 8 = rn s a / 2 ^ 8 % 128 := rfl
  have legal : ¬ (rn s a % 4 = 3 ∨ barrierCount (rn s a % 4) ≤ rn s a / 4 % 16 ∨ rn s a / 2 ^ 8 % 128 = 0 ∨ 64 < rn s a / 2 ^ 8 % 128 ∨
      (clusterOf s.cur).isNone = true) := by
    have cluster : (clusterOf s.cur).isNone = false := by simp [clusterOf, hc]
    rw [cluster]
    simp only [Bool.false_eq_true, or_false]
    omega
  unfold execBar
  dsimp only
  rw [htx, hw, scope, number, count]
  dsimp only
  rw [if_neg (by simp), if_neg legal, releasing_of_released hr]

theorem execBar_of_illegal {s : State} {d a : BitVec 6} (htx : (cx s).tx = none) (hw : (cx s).waiting = none)
    (h : rn s a % 4 = 3 ∨ barrierCount (rn s a % 4) ≤ rn s a / 4 % 16 ∨ rn s a / 2 ^ 8 % 128 = 0 ∨ 64 < rn s a / 2 ^ 8 % 128) :
    execBar d a s = .next (finish (putNat d 8 s)) := by
  have scope : bits (rn s a) 1 0 = rn s a % 4 := bits_low_two _
  have number : bits (rn s a) 5 2 = rn s a / 4 % 16 := rfl
  have count : bits (rn s a) 14 8 = rn s a / 2 ^ 8 % 128 := rfl
  unfold execBar
  dsimp only
  rw [htx, hw, scope, number, count]
  dsimp only
  rw [if_neg (by simp), if_pos]
  rcases h with h | h | h | h
  · exact .inl h
  · exact .inr (.inl h)
  · exact .inr (.inr (.inl h))
  · exact .inr (.inr (.inr (.inl h)))

/-- A machine in which the episode of a barrier stands as `b`. -/
def withBarrier (s : State) (key : Nat) (b : Barrier) : State := { s with barriers := tset s.barriers key b }

theorem arriveAt_first {d : BitVec 6} {key n : Nat} {s : State} (h : tfind s.barriers key = none) :
    arriveAt d key n s =
      (let t := withBarrier s key { n := n, region := rcbOf (cx s), arrived := [(s.cur, onSup s)], released := n == 1 }
       waitIn 17 (.bar key d.toNat) (if n = 1 then send (.barrierLeave key) t else t)) := by
  unfold arriveAt
  dsimp only
  rw [h]
  rfl

theorem arriveAt_mismatch {d : BitVec 6} {key n : Nat} {s : State} {b : Barrier} (h : tfind s.barriers key = some b) (hr : b.released = false)
    (hm : b.n ≠ n ∨ b.region ≠ rcbOf (cx s)) : arriveAt d key n s = finish (putNat d 14 s) := by
  unfold arriveAt
  dsimp only
  rw [h]
  dsimp only
  rw [if_neg (by simp [hr]), if_pos hm]

theorem arriveAt_later {d : BitVec 6} {key n : Nat} {s : State} {b : Barrier} (h : tfind s.barriers key = some b) (hr : b.released = false)
    (hn : b.n = n) (hg : b.region = rcbOf (cx s)) :
    arriveAt d key n s =
      (let t := withBarrier s key { b with arrived := b.arrived ++ [(s.cur, onSup s)], released := b.arrived.length + 1 == n }
       waitIn 17 (.bar key d.toNat) (if b.arrived.length + 1 == n then send (.barrierLeave key) t else t)) := by
  unfold arriveAt
  dsimp only
  rw [h]
  dsimp only
  rw [if_neg (by simp [hr]), if_neg (by simp [hn, hg])]
  rfl

/-- A context that waits for the others of a barrier's episode. -/
def Ctx.atBarrier (x : Ctx) (key : Nat) (d : BitVec 6) : Ctx := { x with waiting := some (.bar key d.toNat) }

theorem completes_arriveAt_first (d : BitVec 6) {key n : Nat} {s : State} (h : tfind s.barriers key = none) :
    Completes (.next (arriveAt d key n s))
      (let e := setCx (withBarrier s key { n := n, region := rcbOf (cx s), arrived := [(s.cur, onSup s)], released := n == 1 }) ((cx s).atBarrier key d)
       if n = 1 then send (.barrierLeave key) e else e) := by
  rw [arriveAt_first h]
  dsimp only
  split <;> exact completes_waitIn 17 (.bar key d.toNat) _

theorem completes_arriveAt_later (d : BitVec 6) {key n : Nat} {s : State} {b : Barrier} (h : tfind s.barriers key = some b) (hr : b.released = false)
    (hn : b.n = n) (hg : b.region = rcbOf (cx s)) :
    Completes (.next (arriveAt d key n s))
      (let e := setCx (withBarrier s key { b with arrived := b.arrived ++ [(s.cur, onSup s)], released := b.arrived.length + 1 == n })
         ((cx s).atBarrier key d)
       if b.arrived.length + 1 == n then send (.barrierLeave key) e else e) := by
  rw [arriveAt_later h hr hn hg]
  dsimp only
  split <;> exact completes_waitIn 17 (.bar key d.toNat) _

/-! ## Chains (R316, R317) -/

theorem chainLen_of {n : Nat} (h : n % 128 = 0) (hl : 128 ≤ n) (hu : n ≤ 2 ^ 21) : chainLen n = true := by
  rw [chainLen, h, decide_eq_true hl, decide_eq_true hu]
  rfl

theorem execFollow_of_legal {s : State} {d a b : BitVec 6} (htx : (cx s).tx = none) (ha : rn s a % 128 = 0)
    (hl : chainLen (rn s a / 2 ^ 32 % 2 ^ 32) = true) (hb : rn s b / 2 ^ 16 % 4 ≠ 0) (hroom : (cx s).resv.length < 4) :
    execFollow d a b s = .next (finish (putNat d 0 (setCx s { cx s with resv := (cx s).resv ++
      [{ addr := rn s a % 2 ^ 32, len := rn s a / 2 ^ 32 % 2 ^ 32, tag := rn s b % 2 ^ 16, bar := rn s b / 2 ^ 16 % 4 }] }))) := by
  have addr : bits (rn s a) 31 0 = rn s a % 2 ^ 32 := by simp [bits]
  have len : bits (rn s a) 63 32 = rn s a / 2 ^ 32 % 2 ^ 32 := rfl
  have tag : bits (rn s b) 15 0 = rn s b % 2 ^ 16 := by simp [bits]
  have bar : bits (rn s b) 17 16 = rn s b / 2 ^ 16 % 4 := rfl
  unfold execFollow
  dsimp only
  rw [addr, len, tag, bar, if_neg (by simp [htx]), if_neg, if_neg (by omega)]
  rintro (h | h | h)
  · omega
  · rw [hl] at h
    cases h
  · exact hb h

/-- The lines of a tile, one after another. -/
theorem chainLines_eq (l : ChainLine) (b : List Byte) (n off : Nat) :
    chainLines l n off b = (List.range n).map fun k => { l with off := off + 128 * k, bytes := (b.drop (128 * k)).take 128, last := k + 1 == n } := by
  induction n generalizing off b with
  | zero => rfl
  | succ n ih =>
    rw [chainLines, ih, List.range_succ_eq_map, List.map_cons, List.map_map]
    congr 1
    · simp
    · refine List.map_congr_left fun k _ => ?_
      simp only [Function.comp_apply, List.drop_drop, Nat.succ_eq_add_one]
      congr 1
      · omega
      · congr 2
        omega
      · simp

/-- What goes out for the whole tile of a chain. -/
def chainStarted (s : State) (l : ChainLine) (bytes : List Byte) : State :=
  { s with flight := s.flight ++ (chainLines l (l.len / 128) 0 bytes).map Event.chainLineArrival }

/-- The first line of a chain, before it has its bytes. -/
def chainHead (s : State) (d : BitVec 6) (v : Nat) (members : List Nat) : ChainLine :=
  { lead := s.cur, sup := onSup s, reg := d.toNat, tag := v / 2 ^ 64 % 2 ^ 16, len := v / 2 ^ 32 % 2 ^ 32, off := 0, bytes := [], members := members
    index := 0, failed := none, last := false }

theorem execLead_of_legal {s : State} {d a b : BitVec 6} {ps qs : List (Place × Nat)} (htx : (cx s).tx = none) (ha : rn s a % 128 = 0)
    (hl : chainLen (rn s a / 2 ^ 32 % 2 ^ 32) = true) (hm : rn s b / 2 ^ 32 % 16 ≠ 0) (hal : rn s b % 2 = 0)
    (hp : spanOf s s.cur (onSup s) (cx s) permR true (rn s b % 2 ^ 32) (2 * (rn s b / 2 ^ 32 % 16)) = .ok ps)
    (hnd : (halfwords (rn s b / 2 ^ 32 % 16) (runBytes s ps)).Nodup)
    (hin : ∀ k ∈ halfwords (rn s b / 2 ^ 32 % 16) (runBytes s ps), k ≠ s.cur ∧ clusterOf k = clusterOf s.cur)
    (hq : spanOf s s.cur (onSup s) (cx s) permR true (rn s a % 2 ^ 32) (rn s a / 2 ^ 32 % 2 ^ 32) = .ok qs) (hr : released s 3 = true) :
    execLead d a b s = .next (finish (pendReg d 8
      (chainStarted s (chainHead s d (rn s a) (halfwords (rn s b / 2 ^ 32 % 16) (runBytes s ps))) (runBytes s qs)))) := by
  have src : bits (rn s a) 31 0 = rn s a % 2 ^ 32 := by simp [bits]
  have len : bits (rn s a) 63 32 = rn s a / 2 ^ 32 % 2 ^ 32 := rfl
  have list : bits (rn s b) 31 0 = rn s b % 2 ^ 32 := by simp [bits]
  have count : bits (rn s b) 35 32 = rn s b / 2 ^ 32 % 16 := rfl
  have self : (halfwords (rn s b / 2 ^ 32 % 16) (runBytes s ps)).contains s.cur = false := by
    simp only [List.contains_eq_mem, decide_eq_false_iff_not]
    exact fun h => (hin _ h).1 rfl
  have near : (halfwords (rn s b / 2 ^ 32 % 16) (runBytes s ps)).any (fun k => clusterOf k != clusterOf s.cur) = false := by
    simp only [List.any_eq_false, bne_iff_ne, ne_eq, not_not]
    exact fun k hk => (hin k hk).2
  unfold execLead
  dsimp only
  rw [src, len, list, count, if_neg (by simp [htx]), if_neg, if_neg (by omega), hp]
  · dsimp only
    rw [self, near, decide_eq_true hnd, if_neg Bool.false_ne_true, if_neg (by decide), hq]
    exact releasing_of_released hr
  · rintro (h | h | h)
    · omega
    · rw [hl] at h
      cases h
    · exact hm h

/-- An outstanding result and what is under way do not touch one another. -/
theorem pendReg_chainStarted (d : BitVec 6) (cause : Nat) (s : State) (l : ChainLine) (bytes : List Byte) :
    pendReg d cause (chainStarted s l bytes) = chainStarted (pendReg d cause s) l bytes := by
  unfold pendReg
  split <;> rfl

/-- Settles O40. -/
theorem barrierAndChainWords : Obligations.BarrierAndChainWords := by
  intro s d a b e ps qs xs htx hcur x c v w sc id n key len line
  refine ⟨fun h3 hw => ?_, fun hw hsc hid hn hr hf => ?_, fun hw hsc hid => ?_, fun hw hsc hn => ?_, fun hw hsc hid h1 h64 hr hf => ?_,
    fun hf hw hsc hid h0 h64 hr => ⟨fun he hm => ?_, fun he hn hg hlt => ?_, fun he hn hg heq => ?_⟩, fun ha hl h128 h21 hb hroom => ?_,
    fun ha hl h128 h21 hm hal hp hxs hnd hin hq hr => ?_⟩
  · exact completes_of_eq (execBar_of_illegal htx hw (.inl h3)) (writes_putNat d 8 s)
  · have out := execBar_of_legal (d := d) htx hw hcur hsc hid (by change 0 < n; omega) (by change n ≤ 64; omega) hr
    have one : (n == 1) = true := by simp [hn]
    have done := completes_arriveAt_first d (n := n) hf
    rw [if_pos hn, one] at done
    exact completes_of_eq out done
  · exact completes_of_eq (execBar_of_illegal htx hw (.inr (.inl hid))) (writes_putNat d 8 s)
  · exact completes_of_eq (execBar_of_illegal htx hw (.inr (.inr hn))) (writes_putNat d 8 s)
  · have out := execBar_of_legal (d := d) htx hw hcur hsc hid (by change 0 < n; omega) (by change n ≤ 64; omega) hr
    have one : (n == 1) = false := by simp; omega
    have done := completes_arriveAt_first d (n := n) hf
    rw [if_neg (by omega), one] at done
    exact completes_of_eq out done
  · have out := execBar_of_legal (d := d) htx hw hcur hsc hid h0 h64 hr
    exact completes_of_eq (out.trans (congrArg _ (arriveAt_mismatch hf he hm))) (writes_putNat d 14 s)
  · have out := execBar_of_legal (d := d) htx hw hcur hsc hid h0 h64 hr
    have full : (e.arrived.length + 1 == n) = false := by simp; omega
    have done := completes_arriveAt_later d hf he hn hg
    rw [full] at done
    exact completes_of_eq out done
  · have out := execBar_of_legal (d := d) htx hw hcur hsc hid h0 h64 hr
    have full : (e.arrived.length + 1 == n) = true := by simp [heq]
    have done := completes_arriveAt_later d hf he hn hg
    rw [full] at done
    exact completes_of_eq out done
  · exact completes_of_eq (execFollow_of_legal htx ha (chainLen_of hl h128 h21) hb hroom) (completes_putReg_setCx s _ d _)
  · subst hxs
    intro t
    have out := execLead_of_legal (d := d) htx ha (chainLen_of hl h128 h21) hm hal hp hnd hin hq hr
    rw [pendReg_chainStarted] at out
    have done := completes_of_eq out (completes_finish _)
    rw [chainStarted, chainLines_eq, List.map_map] at done
    simp only [Nat.zero_add] at done
    exact done

end Sys2Proof.Machine
end

section
/-! SUPPORT. Task words, groups, save areas and security words (R319 to R325, R348 to R353, R389). -/

namespace Sys2Proof.Machine

open Sys2Proof.Claims

/-! ## A TRED that has asked (R325) -/

/-- The user context of a dispatched task, of instance 0 of launch 0 on die 0. -/
def dispatchedCore : Core := { user := { inst := some ⟨0, 0, 0, 0⟩ } }

/-- An instance whose rank 0 has asked the slice and has no answer yet. -/
def askedInst : Inst := { ref := ⟨0, 0, 0, 0⟩, st := .running, counter := 0, prio := 0, tred := [(0, 255)] }

/-- The snapshot of a region of nothing. -/
def emptyRegion : Snapshot :=
  { rcb := 0, prio := 0, fhimg := 0, fhent := 0, flog := 0, flogn := 0, acct := 0, tenant := 0, tmask := 0, vf := 0, pfn := 0, witbase := 0, witn := 0 }

/-- A node of a template whose sensitivity entry is the first. -/
def plainNode : Node :=
  { image := 0, entry := 0, shape := 0, size := 1, banks := 0, retain := false, deps := 0, ops := [], succs := [], sens := 0 }

/-- A template of one node with one input. -/
def oneInput : Template :=
  { rcb := 0, addr := 0, gen := 0, recbase := 0, recn := 0, nodes := [plainNode]
    sens := [{ upol := false, nout := 1, own := 0, ins := [{ sig := 0, wgt := 0, srcv := true, keep := false, srcout := 0, srcnode := 0 }] }] }

def oneLaunch : Launch := { id := 0, fn := 0, tag := 0, snap := emptyRegion, tpl := oneInput, first := 0, count := 1, defdem := 0, dems := [], dstore := 0 }

/-- A machine in which that task, on a core listed out of order, issues its TRED again. -/
def askedTask : State := { outOfOrder dispatchedCore with dies := [(0, { launches := [oneLaunch], insts := [askedInst] })] }

/-- Refutes O41: a TRED that waits for its answer charges its cycle to its core, which puts the core in its place in the list of cores; where
the list does not rise, that is not the state of before. -/
theorem not_taskWords : ¬ Obligations.TaskWords := by
  intro h
  obtain ⟨-, -, -, -, -, -, -, -, -, -, -, -, asks, -⟩ :=
    h askedTask 0 0 0 0 false (.bank 0) (askedInst, oneLaunch, plainNode) ⟨0, 0, 0, 0⟩ 0
  obtain ⟨-, waits, -⟩ := asks rfl rfl rfl rfl rfl (by decide)
  exact not_completes_wait (c := 19) rfl rfl rfl (waits rfl)

/-! ## Updates of cores that commute -/

/-- A core is replaced by what a function makes of it. -/
def onCore (c : Nat) (f : Core → Core) (s : State) : State := setCore s c (f (core s c))

theorem tset_comm {α : Type} (l : AList α) {i j : Nat} (h : i ≠ j) (v w : α) : tset (tset l i v) j w = tset (tset l j w) i v := by
  induction l with
  | nil => grind [tset]
  | cons p t ih => grind [tset]

theorem onCore_onCore_comm (c c' : Nat) {f g : Core → Core} (h : ∀ k, f (g k) = g (f k)) (s : State) :
    onCore c f (onCore c' g s) = onCore c' g (onCore c f s) := by
  by_cases hc : c = c'
  · subst hc
    simp only [onCore, core_setCore, if_pos, setCore_setCore, h]
  · simp only [onCore, core_setCore, if_neg hc, if_neg (Ne.symm hc)]
    exact congrArg (fun l => { s with cores := l }) (tset_comm s.cores (Ne.symm hc) _ _)

theorem still_onCore_congr {s t : State} (h : still s = still t) (c : Nat) {f : Core → Core}
    (hf : ∀ {k k'}, stillCore k = stillCore k' → stillCore (f k) = stillCore (f k')) : still (onCore c f s) = still (onCore c f t) :=
  still_setCore_congr h c (hf (stillCore_core_of_still h c))

/-- A core with its request to stop for a save set to `v`. -/
def Core.preempted (v : Bool) (k : Core) : Core := { k with preempt := v }

/-- A core whose word in issue is complete. -/
def Core.finished (k : Core) : Core := (k.put k.supOn (if k.supOn then k.sup else k.user).advance).marked_

theorem completed_eq_onCore (s : State) : completed s (cx s) = onCore s.cur Core.finished s := completed_cx_eq s

theorem Core.finished_preempted (v : Bool) (k : Core) : (k.preempted v).finished = k.finished.preempted v := by
  have issuing : (k.preempted v).supOn = k.supOn := rfl
  unfold Core.finished
  rw [issuing]
  cases k.supOn <;> rfl

theorem stillCore_finished {k k' : Core} (h : stillCore k = stillCore k') : stillCore k.finished = stillCore k'.finished := by
  have sup : k.supOn = k'.supOn := supOn_of_still h
  unfold Core.finished
  rw [sup]
  refine stillCore_marked (stillCore_put _ h (stillCtx_advance ?_))
  cases k'.supOn
  · exact congrArg Core.user h
  · exact congrArg Core.sup h

theorem still_setPreempt (v : Bool) (s : State) (c : Nat) : still (setPreempt v s c) = still (onCore c (Core.preempted v) s) := by
  unfold setPreempt
  dsimp only
  rw [setCore_settle]
  refine still_setCore_congr rfl c ?_
  exact congrArg (Core.preempted v) (stillCore_core_settle s c)

/-- A CTXLD that has loaded its context: it is complete, and its core goes on (R349). -/
theorem still_finishLoad (c : Nat) (s : State) : still (finishLoad c s) = still (setPreempt false (completed s (cx s)) c) := by
  have stopping := still_setPreempt true s c
  have issued : still (finish (setPreempt true s c)) = still (onCore s.cur Core.finished (onCore c (Core.preempted true) s)) := by
    have cur : (setPreempt true s c).cur = s.cur := (still_cur stopping).trans (setCore_cur _ _ _)
    rw [still_finish, completed_eq_onCore, cur]
    exact still_onCore_congr stopping _ stillCore_finished
  rw [finishLoad, still_setPreempt, still_setPreempt, completed_eq_onCore, still_onCore_congr issued c (f := Core.preempted false) (congrArg (Core.preempted false)),
    onCore_onCore_comm s.cur c fun k => Core.finished_preempted true k]
  simp only [onCore, core_setCore, if_pos, setCore_setCore]
  rfl

/-! ## Words staged in a group (R351) -/

theorem answers_doneStatus (d : BitVec 6) (code bank : Nat) (s : State) : Answers (.next (doneStatus d code bank s)) s d code bank :=
  writes_putNat d (statusWord code bank) s

theorem txBlocked_of_room {d : BitVec 6} {t : Tx} (s : State) (ha : t.abort = 0) (hn : t.acts.length < 8) : txBlocked d t s = none := by
  rw [txBlocked, if_neg (by omega), if_neg (by omega)]

theorem txBlocked_of_full {d : BitVec 6} {t : Tx} (s : State) (ha : t.abort = 0) (hn : 8 ≤ t.acts.length) :
    txBlocked d t s = some (trapWord 0x0A s) := by
  rw [txBlocked, if_neg (by omega), if_pos hn]

theorem txBlocked_of_aborted {d : BitVec 6} {t : Tx} (s : State) (ha : t.abort ≠ 0) : txBlocked d t s = some (finish (putNat d 22 s)) :=
  if_pos ha

/-- A word that stages its action is complete with STAGED and the action's index. -/
theorem staged_of_eq {s : State} {t : Tx} {d : BitVec 6} {i : Instr} {k : TxKind} {st bank : Nat} (htx : (cx s).tx = some t)
    (h : exec i s = .next (stageAct d k st bank s)) : Staged s t d i k st bank := by
  refine completes_of_eq h ?_
  unfold stageAct
  simp only [htx]
  exact completes_putReg_setCx s _ d _

theorem misused_of_eq {s : State} {i : Instr} (hu : onSup s = false) (hv : (curCore s).tvec % 2 = 1) (h : exec i s = .next (trapWord 0x0A s)) :
    Misused s i :=
  completes_of_eq h (completes_trapWord_user 0x0A rfl s hu hv)

/-! ### What the words that may be staged do where a group is open and something blocks them -/

section
variable {s : State} {t : Tx} {d a b : BitVec 6} {m : BitVec 4} {u : State}

theorem execTdec_of_blocked (htx : (cx s).tx = some t) (h : txBlocked d t s = some u) : execTdec d a s = .next u := by
  simp only [execTdec, htx, h]

theorem execTspawn_of_blocked (htx : (cx s).tx = some t) (h : txBlocked d t s = some u) : execTspawn d a b s = .next u := by
  simp only [execTspawn, htx, h]

theorem execSend_of_blocked (htx : (cx s).tx = some t) (h : txBlocked d t s = some u) : execSend d a b m s = .next u := by
  simp only [execSend, htx, h]

theorem execAtt_of_blocked (htx : (cx s).tx = some t) (h : txBlocked d t s = some u) : execAtt d a b s = .next u := by
  simp only [execAtt, htx, h]

theorem execDet_of_blocked (htx : (cx s).tx = some t) (h : txBlocked d t s = some u) : execDet d a s = .next u := by
  simp only [execDet, htx, Option.bind_some, h]

theorem execHand_of_blocked (htx : (cx s).tx = some t) (h : txBlocked d t s = some u) : execHand d a b s = .next u := by
  simp only [execHand, htx, Option.bind_some, h]

theorem execTdec_of_room (htx : (cx s).tx = some t) (h : txBlocked d t s = none) :
    execTdec d a s = .next (stageAct d (.tdec (bits (rn s a) 11 0)) 0 0 s) := by
  simp only [execTdec, htx, h]

theorem execTspawn_of_room (htx : (cx s).tx = some t) (h : txBlocked d t s = none) :
    execTspawn d a b s = .next (stageAct d (.tspawn (spawnReq d a b s)) 0 0 s) := by
  simp only [execTspawn, htx, h]

theorem execAtt_of_room (htx : (cx s).tx = some t) (h : txBlocked d t s = none) :
    execAtt d a b s =
      .next (stageAct d (.att (rn s a) (attCheck s s.cur (onSup s) (rn s a) (bits (rn s b) 8 0)).bank)
        (attCheck s s.cur (onSup s) (rn s a) (bits (rn s b) 8 0)).status (attCheck s s.cur (onSup s) (rn s a) (bits (rn s b) 8 0)).bank s) := by
  simp only [execAtt, htx, h]

theorem execSend_of_legal {q : Msg} (htx : (cx s).tx = some t) (h : txBlocked d t s = none) (hm : sendMsg d.toNat (rn s a) (rv s b) s = some q) :
    execSend d a b m s = .next (stageAct d (.send q (bitAt (rn s a) 12)) (stagedSend s q) 0 s) := by
  simp only [execSend, htx, h, hm]

theorem execDet_of_drained (htx : (cx s).tx = some t) (h : txBlocked d t s = none) (hst : (cx s).staged (bits (rn s a) 5 0) = false)
    (hd : (entry (cx s) (bits (rn s a) 5 0)).valid = true → (entry (cx s) (bits (rn s a) 5 0)).st ≠ 1 ∧ (entry (cx s) (bits (rn s a) 5 0)).st ≠ 3 ∧
      drained s s.cur (onSup s) (bits (rn s a) 5 0) = true) :
    execDet d a s =
      (let e := entry (cx s) (bits (rn s a) 5 0)
       .next (stageAct d (.det (bits (rn s a) 5 0)) (if e.valid || e.st == 1 then 0 else 10) (if e.valid || e.st == 1 then e.bank else 0) s)) := by
  simp only [execDet, htx, Option.bind_some, h, hst]
  generalize entry (cx s) (bits (rn s a) 5 0) = e at hd
  by_cases hv : e.valid = true
  · obtain ⟨h1, h3, hdr⟩ := hd hv
    simp [hv, h1, h3, hdr]
  · simp [hv]

theorem execHand_of_far (htx : (cx s).tx = some t) (h : txBlocked d t s = none) (hf : bits (rn s b) 11 0 / 64 ≠ s.cur / 64) :
    execHand d a b s =
      (let e := entry (cx s) (bits (rn s a) 5 0)
       .next (stageAct d (.hand (handReq 0 s.cur (onSup s) (bits (rn s a) 5 0) e (bits (rn s b) 11 0) (bits (rn s b) 21 16) d.toNat (cx s))) 1
         (if e.valid then e.bank else 0) s)) := by
  simp only [execHand, htx, Option.bind_some, h]
  rw [if_pos (Or.inr hf)]
  rfl

theorem execHand_of_attached (htx : (cx s).tx = some t) (h : txBlocked d t s = none) (hc : s.cur < 4096)
    (hn : bits (rn s b) 11 0 / 64 = s.cur / 64) (hv : (entry (cx s) (bits (rn s a) 5 0)).valid = true)
    (h0 : (entry (cx s) (bits (rn s a) 5 0)).st = 0) (hcls : (entry (cx s) (bits (rn s a) 5 0)).cls ≠ 2)
    (hst : (cx s).staged (bits (rn s a) 5 0) = false) (hd : drained s s.cur (onSup s) (bits (rn s a) 5 0) = true) :
    execHand d a b s =
      (let e := entry (cx s) (bits (rn s a) 5 0)
       let r := handReq 0 s.cur (onSup s) (bits (rn s a) 5 0) e (bits (rn s b) 11 0) (bits (rn s b) 21 16) d.toNat (cx s)
       .next (stageAct d (.hand r) (handCheck s r true) (if e.valid then e.bank else 0) s)) := by
  have hcl : clusterOf s.cur = some (s.cur / 64) := if_pos hc
  simp only [execHand, htx, Option.bind_some, h, hcl, Option.isNone_some, hn]
  simp [hv, h0, hcls, hst, hd]

end

/-! ## CTXSV and CTXLD (R348, R349) -/

section
variable {s : State} {d a : BitVec 6}

theorem areaOk_false {area : Nat} (h : area % 2 ^ 20 ≠ 0 ∨ physExtent s area (2 ^ 20) = false) : areaOk s area = false := by
  rcases h with h | h
  · rw [areaOk, beq_eq_false_iff_ne.mpr h, Bool.false_and]
  · rw [areaOk, h, Bool.and_false]

theorem areaOk_true {area : Nat} (h : area % 2 ^ 20 = 0) (hp : physExtent s area (2 ^ 20) = true) : areaOk s area = true := by
  rw [areaOk, h, hp]; rfl

theorem lostToCtx_zero (c : Nat) (x : Ctx) (pa : Nat) (s : State) : lostToCtx c x pa 0 s = s := if_neg (by simp [lostAt])

end

section
variable {s : State} {d a : BitVec 6} {area : Nat}

theorem execCtxsv_of_open {t : Tx} (htx : (cx s).tx = some t) : execCtxsv d a s = .next (trapWord 0x0A s) := by
  unfold execCtxsv
  rw [htx]
  rfl

theorem execCtxsv_of_bad (htx : (cx s).tx = none) (hA : bits (rn s a) 49 0 = area) (ha : areaOk s area = false) :
    execCtxsv d a s = .next (doneStatus d 8 0 s) := by
  simp [execCtxsv, htx, hA, ha]

theorem execCtxsv_of_nothing (htx : (cx s).tx = none) (hA : bits (rn s a) 49 0 = area) (ha : areaOk s area = true)
    (hu : (curCore s).uload = false) : execCtxsv d a s = .next (doneStatus d 5 0 s) := by
  simp [execCtxsv, htx, hA, ha, hu]

theorem execCtxsv_of_dispatched (htx : (cx s).tx = none) (hA : bits (rn s a) 49 0 = area) (ha : areaOk s area = true)
    (hu : (curCore s).uload = true) (hd : (curCore s).udisp = true) : execCtxsv d a s = .next (doneStatus d 23 0 s) := by
  simp [execCtxsv, htx, hA, ha, hu, hd]

theorem execCtxsv_of_own (htx : (cx s).tx = none) (hA : bits (rn s a) 49 0 = area) (ha : areaOk s area = true)
    (hu : (curCore s).uload = true) (hd : (curCore s).udisp = false) :
    execCtxsv d a s =
      if (curCore s).killing || !stopped (setPreempt true s s.cur) s.cur then .next (wait 1 (setPreempt true s s.cur))
      else .next (doneStatus d 0 0 (saveUser s.cur area (setPreempt true s s.cur))) := by
  simp [execCtxsv, htx, hA, ha, hu, hd]

/-- The state in which a CTXLD goes on from its area's header. -/
def headerRead (s : State) (area : Nat) : State := lostToCtx s.cur (cx s) area 64 s

theorem execCtxld_of_bad (htx : (cx s).tx = none) (hA : bits (rn s a) 49 0 = area) (ha : areaOk s area = false) :
    execCtxld d a s = .next (doneStatus d 8 0 s) := by
  simp [execCtxld, htx, hA, ha, lostToCtx_zero]

/-! ### Recording a loss moves no CXL range, so that an area stays one -/

theorem cxlCap_homeWrite (s : State) (pa : Nat) (b : List Byte) : (homeWrite s pa b).mgmt.cxlCap = s.mgmt.cxlCap := by
  unfold homeWrite
  split <;> rfl

theorem cxlCap_logRecord (base pages r : Nat) (s : State) : (logRecord base pages r s).mgmt.cxlCap = s.mgmt.cxlCap := by
  unfold logRecord
  dsimp only
  split
  · rfl
  · split <;> simp only [homeWriteNat, cxlCap_homeWrite]

theorem cxlCap_mgmtLog (r : Nat) (s : State) : (mgmtLog r s).mgmt.cxlCap = s.mgmt.cxlCap := cxlCap_logRecord ..

theorem cxlCap_countLoss (unit : Nat) (s : State) : (countLoss unit s).mgmt.cxlCap = s.mgmt.cxlCap := rfl

theorem cxlCap_lostToMgmt (pa n : Nat) (s : State) : (lostToMgmt pa n s).mgmt.cxlCap = s.mgmt.cxlCap := by
  unfold lostToMgmt
  split
  · rw [cxlCap_countLoss, cxlCap_mgmtLog]
  · rfl

theorem cxlCap_domainLog (n : Nat) (g : Snapshot) (r : Nat) (s : State) : (domainLog n g r s).mgmt.cxlCap = s.mgmt.cxlCap := by
  have logged := (cxlCap_logRecord g.flog g.flogn r (lostToMgmt g.flog (64 * g.flogn) s)).trans (cxlCap_lostToMgmt ..)
  unfold domainLog
  dsimp only
  split <;> exact logged

theorem cxlCap_logFor (c : Nat) (x : Ctx) (cause : Nat) (imp : Bool) (pc : Nat) (v : Word) (s : State) :
    (logFor c x cause imp pc v s).mgmt.cxlCap = s.mgmt.cxlCap := by
  unfold logFor
  dsimp only
  split
  · exact cxlCap_domainLog ..
  · exact cxlCap_mgmtLog ..

theorem cxlCap_headerRead : (headerRead s area).mgmt.cxlCap = s.mgmt.cxlCap := by
  unfold headerRead lostToCtx
  split
  · rw [cxlCap_countLoss, cxlCap_logFor]
  · rfl

theorem physOk_of_cxlCap {s t : State} (h : t.mgmt.cxlCap = s.mgmt.cxlCap) (pa : Nat) : physOk t pa = physOk s pa := by
  unfold physOk cxlPort cxlSize
  rw [h]

theorem areaOk_headerRead : areaOk (headerRead s area) area = areaOk s area := by
  unfold areaOk physExtent
  rw [physOk_of_cxlCap cxlCap_headerRead, physOk_of_cxlCap cxlCap_headerRead]

/-- A CTXLD of an area goes by what its header says. -/
theorem execCtxld_of_area (htx : (cx s).tx = none) (hA : bits (rn s a) 49 0 = area) (ha : areaOk s area = true) :
    execCtxld d a s =
      (let u := headerRead s area
       let h := homeRead s area 64
       let rcb := bits h 113 64
       let q := loadArea s.cur area h u
       if areaBad u area then .next (doneStatus d 8 0 u)
       else if (curCore u).uload then .next (doneStatus d 11 0 u)
       else if rcb ≠ 0 ∧ (regionStatus u none rcb).1 ≠ 0 then .next (doneStatus d 24 0 u)
       else if q.1 = 0 then .next (finishLoad s.cur (putNat d (statusWord 0 0) q.2)) else .next (doneStatus d q.1 0 q.2)) := by
  unfold execCtxld
  dsimp only
  rw [htx, hA, ha, if_pos rfl, if_neg (show ¬(none : Option Tx).isSome = true by decide)]
  have still : areaOk (headerRead s area) area = true := areaOk_headerRead.trans ha
  unfold headerRead at still ⊢
  rw [still]
  simp only [Bool.not_true, Bool.false_or, apply_ite Host.Outcome.next]

theorem completes_finishLoad (c : Nat) (q : State) (d : BitVec 6) :
    Completes (.next (finishLoad c (putNat d 0 q))) (setPreempt false (completed q (setReg (cx q) d.toNat { val := 0 })) c) := by
  refine ⟨_, rfl, (still_finishLoad c _).trans ?_⟩
  rw [putNat, putWord, putReg, cx_setCx, completed_setCx]
  rfl

end

theorem listed_setPreempt (v : Bool) (s : State) : listed (setPreempt v s s.cur) = setPreempt v s s.cur := by
  have told : setPreempt v s s.cur = setCore s s.cur ((core (settle s.cur s) s.cur).preempted v) := setCore_settle s s.cur _
  rw [told, listed_setCore]

theorem execTxc_of_none {s : State} (d : BitVec 6) (n : Bool) (htx : (cx s).tx = none) : execTxc d n s = .next (trapWord 0x0A s) := by
  simp only [execTxc, htx]

theorem execTxc_of_released {s : State} (d : BitVec 6) (n : Bool) {t : Tx} (htx : (cx s).tx = some t) (hw : (cx s).waiting = none)
    (hr : released s 5 = true) :
    execTxc d n s = .next (waitIn 19 (.commit d.toNat) (send (.txCommit s.cur) (setCx s { cx s with tx := some { t with accounts := n } }))) := by
  simp only [execTxc, htx, hw, releasing_of_released hr]

theorem cx_send (e : Event) (s : State) : cx (send e s) = cx s := rfl

theorem setCx_send (e : Event) (s : State) (x : Ctx) : setCx (send e s) x = send e (setCx s x) := rfl

/-- Settles O42: each clause names the branch of its word and what that branch comes to. -/
theorem groupAndAreaWords : Obligations.GroupAndAreaWords := by
  intro s d a b n t m x area
  have hA : bits (rn s a) 49 0 = area := by simp [bits, area]; rfl
  refine ⟨fun h => ?_, fun h => ?_, fun h hw hr => ?_, fun hu hv h => ⟨?_, ?_⟩, fun hu hv h => ?_, fun h ha hn => ?_, fun h ha hn => ?_,
    fun hu hv h ha hn => ?_, fun h ha => ?_, fun h ha => ?_, fun h ha hp hl => ?_, fun h ha hp hl hd => ?_, fun h ha hp hl hd hk hst => ?_,
    fun h ha hp hl hd hst => ?_, fun h ha hp => ?_⟩
  · exact completes_of_eq (show execTxb s = _ by rw [execTxb, h]; rfl) (completes_setCx s _)
  · exact completes_of_eq (show execTxa s = _ by rw [execTxa, h]; rfl) (completes_setCx s _)
  · have waits := completes_waitIn 19 (.commit d.toNat) (send (.txCommit s.cur) (setCx s { x with tx := some { t with accounts := n } }))
    refine completes_of_eq (show execTxc d n s = _ from execTxc_of_released d n h hw hr) ?_
    rw [cx_send, cx_setCx, setCx_send, setCx_setCx] at waits
    exact waits
  · exact misused_of_eq hu hv (show execTxa s = _ by rw [execTxa, h]; rfl)
  · exact misused_of_eq hu hv (show execTxc d n s = _ from execTxc_of_none d n h)
  · have hopen : (cx s).tx.isSome = true := by rw [h]; rfl
    refine ⟨?_, ?_, ?_, ?_, ?_, ?_, ?_, ?_⟩ <;> exact misused_of_eq hu hv (if_pos hopen)
  · have room := txBlocked_of_room (d := d) s ha hn
    have low : bits (rn s a) 11 0 = (rv s a).toNat % 4096 := by simp [bits]; rfl
    exact ⟨low ▸ staged_of_eq h (execTdec_of_room h room), staged_of_eq h (execTspawn_of_room h room)⟩
  · have room := txBlocked_of_room (d := d) s ha hn
    intro v w c sup slot e q bank r
    have low (u : Nat) : bits u 5 0 = u % 64 := by simp [bits]
    have hslot : bits (rn s a) 5 0 = slot := low _
    have hkb : bits (rn s b) 8 0 = w % 512 := by simp [bits, w]; rfl
    have htgt : bits (rn s b) 11 0 = w % 4096 := by simp [bits, w]; rfl
    refine ⟨?_, fun hf h12 hz => ?_, fun hf h12 => ?_, fun hst hdr => ?_, fun hc hnear hv h0 hcls hst hdr => ?_, fun hfar => ?_⟩
    · have staged := staged_of_eq (i := .att d a b) h (execAtt_of_room h room)
      rw [hkb] at staged
      exact staged
    · have staged := staged_of_eq (i := .send d a b m) h (execSend_of_legal h room (sendMsg_of_legal hf (.inr hz)))
      rw [show bitAt (rn s a) 12 = false from bitAt_of_zero h12] at staged
      exact staged
    · have staged := staged_of_eq (i := .send d a b m) h (execSend_of_legal h room (sendMsg_of_legal hf (.inl h12)))
      rw [show bitAt (rn s a) 12 = true from bitAt_of_one h12] at staged
      exact staged
    · have staged := staged_of_eq (i := .det d a) h (execDet_of_drained h room (hslot ▸ hst) (hslot ▸ hdr))
      rw [hslot] at staged
      exact staged
    · have staged := staged_of_eq (i := .hand d a b) h (execHand_of_attached h room hc (htgt ▸ hnear) (hslot ▸ hv) (hslot ▸ h0) (hslot ▸ hcls)
        (hslot ▸ hst) (hslot ▸ hdr))
      rw [hslot, htgt] at staged
      exact staged
    · have staged := staged_of_eq (i := .hand d a b) h (execHand_of_far h room (htgt ▸ hfar))
      rw [hslot, htgt] at staged
      exact staged
  · have full := txBlocked_of_full (d := d) s ha hn
    exact ⟨misused_of_eq hu hv (execTdec_of_blocked h full), misused_of_eq hu hv (execTspawn_of_blocked h full),
      misused_of_eq hu hv (execSend_of_blocked h full), misused_of_eq hu hv (execAtt_of_blocked h full),
      misused_of_eq hu hv (execDet_of_blocked h full), misused_of_eq hu hv (execHand_of_blocked h full)⟩
  · have aborted := txBlocked_of_aborted (d := d) s ha
    exact ⟨completes_of_eq (execTdec_of_blocked h aborted) (writes_putNat d 22 s),
      completes_of_eq (execSend_of_blocked h aborted) (writes_putNat d 22 s)⟩
  · exact ⟨completes_of_eq (execCtxsv_of_bad h hA (areaOk_false ha)) (writes_putNat d 8 s),
      completes_of_eq (execCtxld_of_bad h hA (areaOk_false ha)) (writes_putNat d 8 s)⟩
  · exact completes_of_eq (execCtxsv_of_nothing h hA (areaOk_true ha hp) hl) (writes_putNat d 5 s)
  · exact completes_of_eq (execCtxsv_of_dispatched h hA (areaOk_true ha hp) hl hd) (writes_putNat d 23 s)
  · have hx : execCtxsv d a s = _ := execCtxsv_of_own h hA (areaOk_true ha hp) hl hd
    rw [hk, hst, if_neg (by decide)] at hx
    exact completes_of_eq hx (answers_doneStatus ..)
  · have hx : execCtxsv d a s = _ := execCtxsv_of_own h hA (areaOk_true ha hp) hl hd
    rw [if_pos (by rcases hst with hst | hst <;> simp [hst])] at hx
    refine completes_of_eq hx ⟨_, rfl, ?_⟩
    rw [still_wait]
    exact congrArg still (listed_setPreempt true s)
  · intro u rcb q
    have hx : execCtxld d a s =
        (if areaBad u area then .next (doneStatus d 8 0 u)
         else if (curCore u).uload then .next (doneStatus d 11 0 u)
         else if rcb ≠ 0 ∧ (regionStatus u none rcb).1 ≠ 0 then .next (doneStatus d 24 0 u)
         else if q.1 = 0 then .next (finishLoad s.cur (putNat d (statusWord 0 0) q.2)) else .next (doneStatus d q.1 0 q.2)) :=
      execCtxld_of_area h hA (areaOk_true ha hp)
    refine ⟨fun hb => ?_, fun hb hl => ?_, fun hb hl hr0 hr => ?_, fun hb hl hr => ?_⟩
    · rw [if_pos hb] at hx
      exact completes_of_eq hx (answers_doneStatus ..)
    · rw [hb, if_neg Bool.false_ne_true, if_pos hl] at hx
      exact completes_of_eq hx (answers_doneStatus ..)
    · rw [hb, hl, if_neg Bool.false_ne_true, if_neg Bool.false_ne_true, if_pos ⟨hr0, hr⟩] at hx
      exact completes_of_eq hx (answers_doneStatus ..)
    · rw [hb, hl, if_neg Bool.false_ne_true, if_neg Bool.false_ne_true, if_neg (by tauto)] at hx
      refine ⟨fun hq => ?_, fun hq => ?_⟩
      · rw [if_neg hq] at hx
        exact completes_of_eq hx (answers_doneStatus ..)
      · rw [if_pos hq] at hx
        exact completes_of_eq hx (completes_finishLoad ..)

/-! ## Security words (R389, R393) -/

theorem still_spendFor (s : State) (n cause : Nat) : still (spendFor s.cur n (some cause) none none s) = still (listed s) := by
  unfold spendFor listed
  rw [still_setCore, still_setCore, stillCore_chargeCore]
  rfl

/-- A context with one register written, apart from time. -/
theorem stillCtx_setReg {x y : Ctx} (h : stillCtx x = stillCtx y) (n : Nat) (r : Reg) : stillCtx (setReg x n r) = stillCtx (setReg y n r) := by
  have e : ∀ z : Ctx, stillCtx (setReg z n r) = setReg (stillCtx z) n r := fun z => by unfold setReg; split <;> rfl
  rw [e, e, h]

/-- A security word is complete with its status, however many cycles it takes. -/
theorem replies_secDone (d : BitVec 6) (status cycles : Nat) (s : State) : Replies (secDone d status cycles s) d s status := by
  unfold secDone
  dsimp only
  split
  · exact writes_putNat d status s
  · have passed := still_spendFor s (cycles - 1) 8
    obtain ⟨t, ht, hs⟩ := writes_putNat d status (spendFor s.cur (cycles - 1) (some 8) none none s)
    refine ⟨t, ht, hs.trans ?_⟩
    rw [← completed_listed s]
    have same := stillCtx_cx_of_still passed
    rw [cx_listed] at same
    exact still_completed passed (stillCtx_setReg same _ _)

theorem replies_of_eq {o : Out} {d : BitVec 6} {t : State} {code cycles : Nat} (h : o = secDone d code cycles t) : Replies o d t code :=
  completes_of_eq h (replies_secDone d code cycles t)

theorem sramOk_of_le {a n : Nat} (h : a + n ≤ 0x40000) : sramOk a n = true := by
  rw [sramOk, decide_eq_true h, Bool.or_true]

section
variable {s : State} {slot kind : Nat} {k : Key}

theorem keyFor_of_kind (hf : s.nolorn.fuse ≠ 7) (hk : tfind s.nolorn.keys slot = some k) (h : k.kind = kind) :
    keyFor s slot kind = .ok (toBytes 64 k.bytes.toNat) := by
  rw [keyFor, if_neg hf, hk]
  exact if_pos h

theorem keyFor_of_other_kind (hf : s.nolorn.fuse ≠ 7) (hk : tfind s.nolorn.keys slot = some k) (h : k.kind ≠ kind) :
    keyFor s slot kind = .error 26 := by
  rw [keyFor, if_neg hf, hk]
  exact if_neg h

theorem keyFor_of_none (hf : s.nolorn.fuse ≠ 7) (hk : tfind s.nolorn.keys slot = none) : keyFor s slot kind = .error 27 := by
  rw [keyFor, if_neg hf, hk]

end

theorem srcAddr_eq (v : Nat) : srcAddr v = v % 2 ^ 32 := by simp [srcAddr, bits]

theorem dstAddr_eq (v : Nat) : bits v 31 0 = v % 2 ^ 32 := by simp [bits]

theorem crypt_of_key {s : State} {dec : Bool} {d a b : BitVec 6} {k : List Byte} (h16 : srcLen (rn s a) % 16 = 0) (hn : srcLen (rn s a) ≤ 2 ^ 20)
    (hs : sramOk (srcAddr (rn s a)) (srcLen (rn s a)) = true) (hd : sramOk (bits (rn s b) 31 0) (srcLen (rn s a)) = true)
    (hk : keyFor s (selOf (rn s b)) 3 = .ok k) :
    crypt dec d a b s = secDone d 0 (32 * (srcLen (rn s a) / 16))
      (sramPut (bits (rn s b) 31 0) (sm4Xts dec (k.take 16) ((k.drop 16).take 16) (bits (rn s b) 127 64) (srcBytes s (rn s a))) s) := by
  unfold crypt
  dsimp only
  rw [if_neg (by rw [hs, hd]; simp [h16]; omega), hk]

/-- Settles O43: each word's operands are legal or named illegal, and its key is found, of another kind or absent. -/
theorem securityWords : Obligations.SecurityWords := by
  intro s d a b k v w src n bytes dst slot stored key z
  have hsrc : srcAddr (rn s a) = src := srcAddr_eq _
  have hdst : bits (rn s b) 31 0 = dst := dstAddr_eq _
  have hlen : srcLen (rn s a) = n := rfl
  have hsel : selOf (rn s b) = slot := rfl
  have hbytes : srcBytes s (rn s a) = bytes := by rw [srcBytes, hsrc, hlen]
  refine ⟨fun hn hs hd => ?_, fun hn => ?_, fun hn hs hf hk hkind => ?_, fun hn hs hd hf => ⟨fun hk hkind => ?_, fun hk hkind => ?_, fun hk => ?_⟩,
    fun h16 hn hs hd hf hk hkind => ?_, fun hn hs hf hslot => ?_, fun hn hs hf => ?_, fun hf => ?_, fun hn hs => ?_⟩
  · refine replies_of_eq (cycles := 64 * ceilDiv n 64 + 64) (show execShash d a b s = _ from ?_)
    unfold execShash
    dsimp only
    rw [hdst, hlen, hsrc, sramOk_of_le hs, sramOk_of_le hd, if_neg (by simp; omega), hbytes]
    rfl
  · exact replies_of_eq (show execShash d a b s = _ from if_pos (.inl hn))
  · refine replies_of_eq (cycles := 180000) (show execSverf d a b s = _ from ?_)
    unfold execSverf
    dsimp only
    rw [hlen, hsrc, ← hn, sramOk_of_le hs, if_neg (by simp), hsel, keyFor_of_kind hf hk hkind, hbytes]
  · refine replies_of_eq (cycles := 90000) (show execSsign d a b s = _ from ?_)
    unfold execSsign
    dsimp only
    rw [hlen, hsrc, hdst, sramOk_of_le hd, ← hn, sramOk_of_le hs, if_neg (by simp), hsel, keyFor_of_kind hf hk hkind, hbytes]
    rfl
  · refine replies_of_eq (cycles := 1) (show execSsign d a b s = _ from ?_)
    unfold execSsign
    dsimp only
    rw [hlen, hsrc, hdst, sramOk_of_le hd, ← hn, sramOk_of_le hs, if_neg (by simp), hsel, keyFor_of_other_kind hf hk hkind]
  · refine replies_of_eq (cycles := 1) (show execSsign d a b s = _ from ?_)
    unfold execSsign
    dsimp only
    rw [hlen, hsrc, hdst, sramOk_of_le hd, ← hn, sramOk_of_le hs, if_neg (by simp), hsel, keyFor_of_none hf hk]
  · have crypts (dec : Bool) : crypt dec d a b s = secDone d 0 (32 * (n / 16))
        (stored (sm4Xts dec (key.take 16) ((key.drop 16).take 16) (w / 2 ^ 64 % 2 ^ 64) bytes)) := by
      rw [crypt_of_key h16 hn (hsrc ▸ sramOk_of_le hs) (hdst ▸ sramOk_of_le hd) (keyFor_of_kind hf hk hkind), hdst, hbytes]
      rfl
    exact ⟨replies_of_eq (show execScryp d a b s = _ from crypts false), replies_of_eq (show execScrypDec d a b s = _ from crypts true)⟩
  · refine replies_of_eq (cycles := 1) (show execSkey d a b s = _ from ?_)
    unfold execSkey
    dsimp only
    rw [hlen, hsrc, ← hn, sramOk_of_le hs, if_neg (by simp), hsel, if_neg (not_or.mpr ⟨hf, Nat.not_lt.mpr hslot⟩), hbytes]
  · refine replies_of_eq (cycles := 1) (show execSkey d a b s = _ from ?_)
    unfold execSkey
    dsimp only
    rw [hlen, hsrc, ← hn, sramOk_of_le hs, if_neg (by simp), hsel, if_pos hf]
  · intro hi all
    refine replies_of_eq (cycles := hi + 1 - slot) (show execSkeyWipe d a b s = _ from ?_)
    unfold execSkeyWipe
    dsimp only
    rw [if_neg hf, hsel, Bool.decide_and, show decide (bits (rn s b) 45 40 = 63) = (hi == 63) from rfl]
    rfl
  · intro i m
    refine replies_of_eq (cycles := 128) (show execSmext d a b s = _ from ?_)
    unfold execSmext
    dsimp only
    have legal : sramOk (srcAddr (rn s a)) 32 = true := hsrc.symm ▸ sramOk_of_le (hn ▸ hs)
    rw [if_neg (by rw [hlen, hn, legal]; simp), hbytes, show bits (rn s b) 33 32 = i from rfl, ← beq_eq_decide]

end Sys2Proof.Machine
end

section
/-! SUPPORT. The steps of accesses, banks, messages and engines (R188 to R203, R225 to R227, R273 to R284, R293 to R317). -/

namespace Sys2Proof.Machine

open Sys2Proof.Claims

/-! ## Accesses and translations (R225 to R227, R244, R293 to R298, R375) -/

theorem noteWritten_of_word {a : Access} (h : a.eng = 0) (s : State) : noteWritten a s = s := if_neg (by omega)

section
variable {s : State} {a : Access} {pa : Nat}

theorem performHome_of_read (hw : a.write = none) (hm : a.amo = none) :
    performHome a pa s =
      putAccess { a with stage := .served, clock := locationClock s pa a.size, val := homeBytes s pa a.size, vtags := unitTags s pa a.size } s := by
  unfold performHome
  rw [hw, hm]

theorem performHome_of_write {b : List Byte} (hw : a.write = some b) (he : a.eng = 0) :
    performHome a pa s = setLocationClock pa a.size a.clock (setTags (pa / 16) a.tags (homeWrite (dropAccess a.id s) pa b)) := by
  unfold performHome
  rw [hw]
  exact noteWritten_of_word he _

theorem performHome_of_reduction {m : Amo} (hw : a.write = none) (hm : a.amo = some m) (hr : a.reg = none) :
    performHome a pa s = dropAccess a.id (setLocationClock pa a.size a.clock (applyAmo a m pa s).1) := by
  unfold performHome
  rw [hw, hm, hr]
  rfl

theorem performHome_of_atomic {m : Amo} (hw : a.write = none) (hm : a.amo = some m) (hr : a.reg ≠ none) :
    performHome a pa s = putAccess { a with stage := .served, clock := locationClock s pa a.size, val := toBytes a.size (homeRead s pa a.size)
                                            vtags := [a.size == 16 && homeTag s pa] }
      (setLocationClock pa a.size a.clock (applyAmo a m pa s).1) := by
  unfold performHome
  rw [hw, hm]
  exact if_pos (Option.isSome_iff_ne_none.mpr hr)

theorem execHomeApply_of_turn (hf : access s a.id = some a) (hs : a.stage = .slice) (hd : a.dest = .home pa) (ht : homeTurn s a = true) :
    exec (.homeApply a.id) s = .next (performHome a pa
      (if cxlDead s pa then lossRecord a.core a.sup 4 pa (taken (.homeApply a.id) s) else taken (.homeApply a.id) s)) := by
  have found : access (taken (.homeApply a.id) s) a.id = some a := hf
  have turn : homeTurn (taken (.homeApply a.id) s) a = true := ht
  show execHomeApply a.id s = _
  unfold execHomeApply
  simp only [found, hd, hs, turn]
  rfl

end

section
variable {s : State} {w : Walk} {n : Miss}

theorem endMiss_of_translated {r : Walked} (h : walkAll s w.die w.fn w.va n.rd n.wr = .ok r) :
    endMiss w n s = (setCore (cacheWalk r.used s) n.core (tlbAdd (r.tlb w.fn w.va) (core s n.core)), false) := by
  unfold endMiss
  rw [h]

theorem endMiss_of_absent {st2 : Bool} {x e : Nat} (h : walkAll s w.die w.fn w.va n.rd n.wr = .error (.absent st2 x e)) :
    endMiss w n s = match pageRequest w.fn st2 x n.wr [{ core := n.core, vpage := w.va / 4096, eng := 0, wr := n.wr }]
        (lostToCtx n.core (core s n.core).user e 8 s) with
      | some t => (t, false)
      | none => (s, true) := by
  unfold endMiss
  rw [h] <;> rfl

theorem endMiss_of_malformed {st2 : Bool} {x : Nat} (h : walkAll s w.die w.fn w.va n.rd n.wr = .error (.malformed st2 x)) :
    endMiss w n s =
      (let t := setCore s n.core { core s n.core with walkFail := some ⟨w.va / 4096, n.wr, if st2 then 0x2A else 0x29, x⟩ }
       (if w.misses.head? = some n then logMalformed n.core (.malformed st2 x) t else t, false)) := by
  unfold endMiss
  rw [h]
  rfl

theorem endMiss_of_refused {st2 : Bool} {x : Nat} (h : walkAll s w.die w.fn w.va n.rd n.wr = .error (.perm st2 x)) :
    endMiss w n s = (setCore s n.core { core s n.core with walkFail := some ⟨w.va / 4096, n.wr, if st2 then 0x28 else 0x27, x⟩ }, false) := by
  unfold endMiss
  rw [h]
  exact congrArg (·, false) (ite_self _)

theorem execTranslationWalk_of_found (h : (s.walks.find? fun v => v.id == w.id) = some w) :
    exec (.translationWalk w.id) s = .next (retryWhere (fun _ => true)
      (endWalk w w.misses [] { taken (.translationWalk w.id) s with walks := s.walks.filter fun v => v.id != w.id })) := by
  have found : (taken (.translationWalk w.id) s).walks.find? (fun v => v.id == w.id) = some w := h
  show execTranslationWalk w.id s = _
  unfold execTranslationWalk
  dsimp only
  rw [found]
  rfl

theorem invalidate_of_none {fn kind addr : Nat} {st2 : Bool} (h : (func s fn).inval = []) :
    invalidate fn kind st2 addr s = send (.invalComplete fn) (setFunc s fn { func s fn with inval := [(kind, st2, addr)] }) := by
  have none : (func s fn).inval.isEmpty = true := by rw [h]; rfl
  exact if_pos none

end

/-! Where a port's access stands does not depend on the events under way. -/

section
variable (e : Event) (s : State) (c : Nat) (sup : Bool)

theorem localMap_taken (x : Ctx) (va need : Nat) (own : Bool) : localMap (taken e s) c sup x va need own = localMap s c sup x va need own := rfl

theorem span_taken (x : Ctx) (need : Nat) (own : Bool) (fuel va n : Nat) :
    span (taken e s) c sup x need own fuel va n = span s c sup x need own fuel va n := by
  induction fuel generalizing va n with
  | zero => rfl
  | succ fuel ih => simp only [span, localMap_taken, ih]

theorem coreSpan_taken (k need la n : Nat) : coreSpan (taken e s) c sup k need la n = coreSpan s c sup k need la n := by
  unfold coreSpan spanOf
  rw [span_taken]
  rfl

theorem fillBanks_taken (u : RecUse) (d : Nat) : fillBanks (taken e s) c sup u d = fillBanks s c sup u d := by
  simp only [fillBanks, coreSpan_taken]

theorem behindFill_taken (a : Access) : behindFill (taken e s) a = behindFill s a := by
  simp only [behindFill, fillBanks_taken]
  rfl

end

/-- Settles O44: a step of an access finds it where the premises put it; a miss of a walk ends as its walk does. -/
theorem accessAndTranslationSteps : Obligations.AccessAndTranslationSteps := by
  constructor
  · intro s a pa b m id old
    refine ⟨fun hf hs ho => ?_, fun hf hs ho => ?_, fun hf hs hd hm ho => ?_, fun hf hs hd hm ho => ?_,
    fun hf hs ht hw hb => ?_, fun hf hs hd ht hl => ?_, fun hf hs hd ht hl => ?_, fun hf hs he n hr => ?_⟩
    · have found : access (taken (.accessForward id) s) id = some a := hf
      show execAccessForward id s = _
      unfold execAccessForward
      simp only [found, hs]
      exact if_pos ho
    · have found : access (taken (.accessSend id) s) id = some a := hf
      show execAccessSend id s = _
      unfold execAccessSend
      simp only [found, hs]
      exact if_pos ho
    · have found : access (taken (.linkCross id) s) id = some a := hf
      show execLinkCross id s = _
      unfold execLinkCross
      simp only [found, hs, hm, hd]
      rw [hd] at ho
      exact if_pos ho
    · have found : access (taken (.linkCross id) s) id = some a := hf
      show execLinkCross id s = _
      unfold execLinkCross
      simp only [found, hs, hm]
      rcases hdest : a.dest with q | ⟨c, sup, la, check⟩ | ⟨c, addr⟩
      · exact absurd hdest (hd q)
      all_goals
        rw [hdest] at ho
        exact if_pos ho
    · have found : access (taken (.bankPerform id) s) id = some a := hf
      show execBankPerform id s = _
      unfold execBankPerform
      dsimp only
      rw [found]
      dsimp only
      rw [behindFill_taken, hs, hb, show portTurn (taken (.bankPerform id) s) a = true from ht,
        show portWaits (taken (.bankPerform id) s) a = false from hw]
      rfl
    · intro t
      have performs := execHomeApply_of_turn hf hs hd ht
      rw [hl, if_neg Bool.false_ne_true] at performs
      refine ⟨fun hw hm => ?_, fun hw he => ?_, fun hw hm hr => ?_, fun hw hm hr => ?_⟩
      · exact performs.trans (by rw [performHome_of_read hw hm])
      · exact performs.trans (by rw [performHome_of_write hw he])
      · exact performs.trans (by rw [performHome_of_reduction hw hm hr])
      · exact performs.trans (by rw [performHome_of_atomic hw hm hr])
    · exact (execHomeApply_of_turn hf hs hd ht).trans (by rw [hl, if_pos rfl])
    · have found : access (taken (.readReturn id) s) id = some a := hf
      show execReadReturn id s = _
      unfold execReadReturn
      simp only [found, hs, he, hr]
      rfl
  · intro s w n ms left r st2 x e fn group code q t s0 miss asked failed answer
    refine ⟨execTranslationWalk_of_found, rfl, rfl, rfl, endMiss_of_translated,
      fun h ha => ?_, fun h ha => ?_, endMiss_of_malformed, endMiss_of_refused, fun h => ?_, fun h => ?_, fun h ht => ?_, fun h => ⟨?_, ?_, ?_⟩, fun h => ?_⟩
    · rw [endMiss_of_absent h, show pageRequest .. = some t from ha]
    · rw [endMiss_of_absent h, show pageRequest .. = none from ha]
    · exact congrArg Host.Outcome.next (if_neg (by rw [h]; decide))
    · exact congrArg Host.Outcome.next (if_pos h)
    · have found : (func (taken (.pageRequestTimeout fn group) s) fn).prq.find? (fun p => p.group == group) = some q := h
      show execPageRequestTimeout fn group s = _
      unfold execPageRequestTimeout
      dsimp only
      rw [found]
      exact congrArg Host.Outcome.next (if_pos ht)
    · exact congrArg Host.Outcome.next (invalidate_of_none h)
    · exact congrArg Host.Outcome.next (invalidate_of_none h)
    · exact congrArg Host.Outcome.next (invalidate_of_none h)
    · have outstanding : (func (taken (.invalComplete fn) s) fn).inval = [(code, st2, x)] := h
      show execInvalComplete fn s = _
      unfold execInvalComplete
      dsimp only
      rw [outstanding]
      rfl

/-! ## Hand-overs, scrubs and the pool (R77, R188, R196, R200, R201, R203) -/

section
variable {s : State} {r : HandReq}

theorem handCheck_of_far (h : r.target / 64 ≠ r.core / 64) : handCheck s r true = 1 := if_pos h

theorem handCheck_of_absent (hc : r.target / 64 = r.core / 64) (h : (core s r.target).uload = false ∨ (core s r.target).killing = true) :
    handCheck s r true = 5 := by
  unfold handCheck
  dsimp only
  rw [if_neg (not_not.mpr hc), if_pos (by simpa using h)]

theorem handCheck_of_present (hc : r.target / 64 = r.core / 64) (hu : (core s r.target).uload = true) (hk : (core s r.target).killing = false) :
    handCheck s r true =
      if !tenantOk r.tenant (core s r.target).user then 6
      else
        let e := entry (core s r.target).user r.tslot
        if e.valid ∨ (e.st = 1 ∧ e.bank ≠ r.bank) ∨ slotReserved s r.target r.tslot then 2
        else if r.cls = 1 ∧ (bankAt s (bankOf r.core r.bank)).holders.any (fun h => h.1 == holderKey r.target false) then 2
        else 0 := by
  unfold handCheck
  dsimp only
  rw [if_neg (not_not.mpr hc), if_neg (by rw [hu, hk]; decide)]
  simp only [true_and]

theorem tenantOk_false {t : Option (Nat × Nat)} {x : Ctx} {p : Nat × Nat} {g : Snapshot} (ht : t = some p) (hg : x.region = some g)
    (h : (g.tenant ^^^ p.1) &&& p.2 ≠ 0) : tenantOk t x = false := by
  unfold tenantOk
  rw [ht, hg]
  exact beq_eq_false_iff_ne.mpr h

theorem killing_putEntry (c c' : Nat) (sup : Bool) (slot : Nat) (e : Entry) (s : State) :
    (core (putEntry c sup slot e s) c').killing = (core s c').killing := by
  unfold putEntry setCtxOf
  rw [core_setCore]
  split
  · rename_i h
    rw [← h]
    cases sup <;> rfl
  · rfl

theorem isCore_of_le {c : Nat} (h : c ≤ 4208) : isCore c = true := decide_eq_true h

/-- The first event of its kind under way is behind no other. -/
theorem not_behind {o : Option Event} {e : Event} (h : o = some e) : ¬(!(o == none || o == some e)) = true := by
  rw [h]
  simp

theorem execHandoverRequest_of_first (ht : r.target ≤ 4208) (hc : r.core ≤ 4208)
    (hf : s.flight.find? (fun f => match f with | .handoverRequest q => q.target == r.target && q.core == r.core | _ => false) = some (.handoverRequest r)) :
    exec (.handoverRequest r) s =
      (let u := taken (.handoverRequest r) s
       let st := if sourceHolds u r then handCheck u r true else 10
       .next (send (.handoverAnswer { req := r, status := st }) (if st = 0 then handAccept r u else u))) := by
  show execHandoverRequest r s = _
  unfold execHandoverRequest
  rw [isCore_of_le ht, isCore_of_le hc, if_neg (by decide)]
  exact if_neg (not_behind hf)

theorem execHandoverAnswer_of_hand {st : Nat} (hc : r.core ≤ 4208) (ho : r.origin = 0) (hk : (core s r.core).killing = false) :
    exec (.handoverAnswer { req := r, status := st }) s =
      (let w := taken (.handoverAnswer { req := r, status := st }) s
       let e := entry (ctxOf s r.core r.sup) r.slot
       .next (deliver r.core r.sup r.reg (BitVec.ofNat 128 (statusWord st r.bank))
         (if st ≠ 0 ∧ e.valid ∧ e.bank = r.bank then putEntry r.core r.sup r.slot { e with st := 0 } w else w))) := by
  have alive (b : State) (hb : (core b r.core).killing = false) : ((core b r.core).killing && !r.sup) = false := by rw [hb]; rfl
  show execHandoverAnswer _ s = _
  unfold execHandoverAnswer
  dsimp only
  rw [isCore_of_le hc, ho]
  rw [if_neg (by decide), if_neg]
  · rfl
  · rw [alive]
    · decide
    · split
      · exact (killing_putEntry ..).trans hk
      · exact hk

theorem execBankScrubDone_of_scrubbing {bank : Nat} (hb : bank < 32768) (hc : (bankAt s bank).cond = .scrubbing) (hm : (bankAt s bank).marked = false) :
    exec (.bankScrubDone bank) s =
      .next (zeroBank bank (setBank (taken (.bankScrubDone bank) s) bank { cond := .free, marked := false })) := by
  have cond : (bankAt (taken (.bankScrubDone bank) s) bank).cond = .scrubbing := hc
  have unmarked : (bankAt (taken (.bankScrubDone bank) s) bank).marked = false := hm
  show execBankScrubDone bank s = _
  unfold execBankScrubDone
  dsimp only
  rw [if_neg (show ¬bankCount ≤ bank from Nat.not_le.mpr hb), cond, unmarked]
  rfl

/-- The cluster record that a pool configuration asks for (R188). -/
def Cluster.asked (k : Cluster) (n : Nat) : Cluster :=
  { k with werr := false, owner := n / 2 ^ 8 % 2 ^ 50 * 2 ^ 8, cbl := n / 16 % 16, en := n.testBit 0 }

/-- Whether a pool configuration moves banks. -/
def Cluster.moves (k : Cluster) (n : Nat) : Bool := (k.asked n).cbl != k.cbl || (k.asked n).en != k.en

/-- Why a pool configuration is refused (R188): a reserved bit, CBL above 8, or banks in use that would move. -/
def poolRefused (s : State) (cl n : Nat) : Prop :=
  n / 2 ^ 58 % 32 ≠ 0 ∨ n / 2 % 8 ≠ 0 ∨ 8 < n / 16 % 16 ∨ ((cluster s cl).moves n = true ∧ banksInUse s cl = true)

theorem execCpoolWrite_of_refused {cl : Nat} {v : BitVec 64} (hcl : cl < 64) (h : poolRefused s cl v.toNat) :
    exec (.cpoolWrite cl v) s = .next (setCluster (taken (.cpoolWrite cl v) s) cl { cluster s cl with werr := true }) := by
  show execCpoolWrite cl v s = _
  unfold execCpoolWrite
  dsimp only
  rw [if_neg (Nat.not_le.mpr hcl), bitAt_eq_testBit]
  exact if_pos h

theorem execCpoolWrite_of_accepted {cl : Nat} {v : BitVec 64} (hcl : cl < 64) (h : ¬poolRefused s cl v.toNat) :
    exec (.cpoolWrite cl v) s =
      (let k := cluster s cl
       let t := setCluster (taken (.cpoolWrite cl v) s) cl (k.asked v.toNat)
       let scrubbed := (List.range 512).foldl (fun t b => scrubNow t (512 * cl + b)) t
       let zeroed := (commonBanks s cl ++ commonBanks scrubbed cl).foldl (fun t b => zeroBank (512 * cl + b) t) scrubbed
       .next (if k.moves v.toNat = false ∧ (k.asked v.toNat).owner = k.owner then t
         else if k.en && !(k.asked v.toNat).en then touchCluster cl zeroed else zeroed)) := by
  show execCpoolWrite cl v s = _
  unfold execCpoolWrite
  dsimp only
  rw [if_neg (Nat.not_le.mpr hcl), bitAt_eq_testBit]
  refine (if_neg h).trans ?_
  by_cases same : (cluster s cl).moves v.toNat = false ∧ ((cluster s cl).asked v.toNat).owner = (cluster s cl).owner
  · rw [if_pos same]
    refine if_neg ?_
    rintro (h | h)
    · exact absurd (same.1.symm.trans h) (by decide)
    · exact h same.2
  · rw [if_neg same]
    refine if_pos ?_
    by_contra h
    obtain ⟨hm, ho⟩ := not_or.mp h
    exact same ⟨Bool.eq_false_iff.mpr hm, not_not.mp ho⟩

end

/-- Settles O45: the answers of a target's table, and the steps that act on them. -/
theorem bankSteps : Obligations.BankSteps := by
  constructor
  · intro s r k e
    refine ⟨handCheck_of_far, fun hc h => handCheck_of_absent hc h, fun hc hu hk => ⟨fun p g hp hg h => ?_, fun ht h => ?_, fun ht hv hb hr hcls => ?_⟩⟩
    · rw [handCheck_of_present hc hu hk, tenantOk_false hp hg h]
      rfl
    · rw [handCheck_of_present hc hu hk, ht, if_neg (by decide)]
      exact if_pos (or_assoc.mp (.inl h))
    · rw [handCheck_of_present hc hu hk, ht, if_neg (by decide)]
      dsimp only
      rw [if_neg, if_neg fun h => hcls h.1]
      rw [show (entry (core s r.target).user r.tslot).valid = false from hv, hr]
      simp only [Bool.false_eq_true, false_or, or_false, not_and, not_not]
      exact hb
  · intro s r st bank cl v e u ans w k n k' moves
    refine ⟨fun ht hc hf => ⟨fun hs => ?_, fun hs h => ?_, fun hs h => ?_⟩, fun hc ho hk h0 => ?_, fun hc ho hk h0 hv hb => ?_,
      execBankScrubDone_of_scrubbing, fun hcl hz hz' hcbl hm => ?_, fun hcl hbad => ?_⟩
    · refine (execHandoverRequest_of_first ht hc hf).trans ?_
      dsimp only
      rw [show sourceHolds (taken (.handoverRequest r) s) r = false from hs]
      rfl
    · refine (execHandoverRequest_of_first ht hc hf).trans ?_
      dsimp only
      rw [show sourceHolds (taken (.handoverRequest r) s) r = true from hs, if_pos rfl,
        show handCheck (taken (.handoverRequest r) s) r true = 0 from h, if_pos rfl]
    · refine (execHandoverRequest_of_first ht hc hf).trans ?_
      dsimp only
      rw [show sourceHolds (taken (.handoverRequest r) s) r = true from hs, if_pos rfl,
        if_neg (show handCheck (taken (.handoverRequest r) s) r true ≠ 0 from h)]
    · subst h0
      refine (execHandoverAnswer_of_hand hc ho hk).trans ?_
      dsimp only
      rw [if_neg fun h => h.1 rfl, statusWord, Nat.zero_add]
      rfl
    · refine (execHandoverAnswer_of_hand hc ho hk).trans ?_
      dsimp only
      rw [if_pos ⟨h0, hv, hb⟩]
      rfl
    · refine execCpoolWrite_of_accepted hcl fun refused => ?_
      rcases refused with h | h | h | ⟨h, hu⟩
      · exact h hz
      · exact h hz'
      · exact absurd h (Nat.not_lt.mpr hcbl)
      · exact absurd ((hm h).symm.trans hu) (by decide)
    · exact execCpoolWrite_of_refused hcl hbad

/-! ## Messages, barriers, chains and waits (R126, R305 to R317, R326, R382) -/

section
variable {s : State}

theorem execMessageArrival_of_first {m : Msg} (ht : m.target ≤ 4208) (hs : m.src ≤ 4208) (hp : powered (core s m.target) = true)
    (hb : msgBehind (.messageArrival m) m s = false) :
    exec (.messageArrival m) s =
      (let t := mergeClock (dieOf m.target) m.clock (taken (.messageArrival m) s)
       .next (admitAll m.target ((core t m.target).niq ++ [m]) t)) := by
  show execMessageArrival m s = _
  unfold execMessageArrival
  dsimp only
  rw [isCore_of_le ht, isCore_of_le hs, hb, hp, if_neg (by decide), if_neg (by decide), if_neg (by decide)]

theorem execTaggedMessageArrival_of_first {m : Msg} (ht : m.target ≤ 4208) (hs : m.src ≤ 4208) (hp : powered (core s m.target) = true)
    (hb : msgBehind (.taggedMessageArrival m) m s = false) :
    exec (.taggedMessageArrival m) s = .next (takeTagged m (mergeClock (dieOf m.target) m.clock (taken (.taggedMessageArrival m) s))) := by
  show execTaggedMessageArrival m s = _
  unfold execTaggedMessageArrival
  dsimp only
  rw [isCore_of_le ht, isCore_of_le hs, hb, hp, if_neg (by decide), if_neg (by decide), if_neg (by decide)]

theorem execPortWordArrival_of_first {c port : Nat} {w : Word} (hc : c < 4096) (hp : port < 4) (hr : residentOf (core s c) = some false)
    (hf : s.flight.find? (fun e => match e with | .portWordArrival c' p' _ => c' == c && p' == port | _ => false) = some (.portWordArrival c port w)) :
    exec (.portWordArrival c port w) s =
      (let t := taken (.portWordArrival c port w) s
       let x := (core t c).user
       .next (setCtxOf t c false { x with ports := tset x.ports port (tget x.ports port [] ++ [w]) })) := by
  have resident : residentOf (core (taken (.portWordArrival c port w) s) c) = some false := hr
  show execPortWordArrival c port w s = _
  unfold execPortWordArrival
  rw [if_neg (by omega)]
  refine (if_neg (not_behind hf)).trans ?_
  dsimp only
  rw [resident]
  rfl

theorem execBarrierLeave_of_released {key : Nat} {b : Barrier} (h : tfind s.barriers key = some b) (hr : b.released = true) :
    exec (.barrierLeave key) s = .next (leaveAll key 0 b.arrived { taken (.barrierLeave key) s with barriers := tdel s.barriers key }) := by
  have found : tfind (taken (.barrierLeave key) s).barriers key = some b := h
  show execBarrierLeave key s = _
  unfold execBarrierLeave
  dsimp only
  rw [found]
  exact if_pos hr

/-- A chain's line that is the first of its kind under way goes by what is resident on its core. -/
theorem execChainLineArrival_of_first {l : ChainLine} {c : Nat} {cs : List Nat} (hm : l.members = c :: cs) (ha : l.members.all isCore = true)
    (hf : s.flight.find? (fun e => match e with | .chainLineArrival q => q.lead == l.lead && q.sup == l.sup && q.members.head? == l.members.head? | _ => false)
      = some (.chainLineArrival l)) :
    exec (.chainLineArrival l) s =
      match residentOf (core s c) with
      | none => .next (passLine l false (taken (.chainLineArrival l) s))
      | some sup =>
        if !sup && (core s c).killing then .next (passLine l false (taken (.chainLineArrival l) s))
        else
          match takeFirst (lineMeets l) (ctxOf s c sup).resv with
          | some (r, rest) => .next (performLine l c sup r rest (taken (.chainLineArrival l) s))
          | none => .next (if l.off = 0 then s else passLine l false (taken (.chainLineArrival l) s)) := by
  have cores : ¬(l.members.any fun c => !isCore c) = true := by
    rw [List.any_eq_true]
    rintro ⟨k, hk, hn⟩
    rw [List.all_eq_true.mp ha k hk] at hn
    cases hn
  show execChainLineArrival l s = _
  unfold execChainLineArrival
  rw [if_neg cores]
  refine (if_neg (not_behind hf)).trans ?_
  rw [hm] <;> rfl

theorem waitEdge_taken (e : Event) (s : State) (c : Nat) : waitEdge (taken e s) c = waitEdge s c := rfl

theorem edgePath_taken (e : Event) (s : State) (o fuel c : Nat) : edgePath (taken e s) o fuel c = edgePath s o fuel c := by
  induction fuel generalizing c with
  | zero => rfl
  | succ fuel ih => simp only [edgePath, waitEdge_taken, ih]

theorem cycleOf_taken (e : Event) (s : State) (c : Nat) : cycleOf (taken e s) c = cycleOf s c := by
  unfold cycleOf
  rw [edgePath_taken]
  rfl

theorem execWaitForProbe_of_cycle {c : Nat} {cs : List Nat} (hc : c ≤ 4208) (h : cycleOf s c = some cs)
    (hn : s.flight.contains (.receiveCycle cs) = false) :
    exec (.waitForProbe c) s = .next (send (.receiveCycle cs) (taken (.waitForProbe c) s)) := by
  have absent : ¬(taken (.waitForProbe c) s).flight.contains (.receiveCycle cs) = true := by
    rw [List.contains_iff_mem]
    intro hmem
    rw [List.contains_iff_mem.mpr (List.mem_of_mem_erase hmem)] at hn
    cases hn
  show execWaitForProbe c s = _
  unfold execWaitForProbe
  dsimp only
  rw [isCore_of_le hc, if_neg (by decide), cycleOf_taken, h]
  exact congrArg Host.Outcome.next (if_neg absent)

theorem execReceiveCycle_of_cycle {c : Nat} {cs : List Nat} (h : cycleOf s c = some (c :: cs)) (ha : (c :: cs).all isCore = true) :
    exec (.receiveCycle (c :: cs)) s =
      (let t := taken (.receiveCycle (c :: cs)) s
       let low := (c :: cs).foldl Nat.min c
       let x := ctxOf t low (core t low).supOn
       .next (logFor low x 0x64 false x.pc (Config.cycleVal ((c :: cs).map fun k => (k, (ctxOf t k (core t k).supOn).pc)))
         ((c :: cs).foldl markReported t))) := by
  have cores : ¬((c :: cs).any fun c => !isCore c) = true := by
    rw [List.any_eq_true]
    rintro ⟨k, hk, hn⟩
    rw [List.all_eq_true.mp ha k hk] at hn
    cases hn
  show execReceiveCycle (c :: cs) s = _
  unfold execReceiveCycle
  dsimp only
  rw [if_neg cores, cycleOf_taken, if_neg (not_not.mpr h)]

theorem expired_of_le {x : Ctx} {tmo start : Nat} (h0 : tmo ≠ 0) (h : start + tmo ≤ x.ctime) : expired x tmo start = true := by
  rw [expired, decide_eq_true h, Bool.and_true]
  exact bne_iff_ne.mpr h0

theorem execRecvTimeout_of_expired {c d h tmo start : Nat} (hc : c ≤ 4208) (hs : (core s c).sup.waiting = none)
    (hw : (core s c).user.waiting = some (.recv d h tmo start)) (h0 : tmo ≠ 0) (ht : start + tmo ≤ (core s c).user.ctime)
    (hi : (core s c).user.inbox = []) :
    exec (.recvTimeout c) s = .next (completeWord c false (fun x => setReg (setReg x d {}) h { val := 0xFE }) (taken (.recvTimeout c) s)) := by
  have sup : (ctxOf (taken (.recvTimeout c) s) c true).waiting = none := hs
  have user : (ctxOf (taken (.recvTimeout c) s) c false).waiting = some (.recv d h tmo start) := hw
  have past : expired (ctxOf (taken (.recvTimeout c) s) c false) tmo start = true := expired_of_le h0 ht
  have empty : (ctxOf (taken (.recvTimeout c) s) c false).inbox = [] := hi
  show execRecvTimeout c s = _
  unfold execRecvTimeout
  dsimp only
  rw [isCore_of_le hc, if_neg (by decide), sup]
  dsimp only
  rw [user]
  dsimp only
  rw [past, empty]
  rfl

theorem execProbeTimeout_of_expired {c d h tmo start since : Nat} {told : Bool} {p : Precv} (hc : c ≤ 4208) (hs : (core s c).sup.waiting = none)
    (hw : (core s c).user.waiting = some (.probe d h tmo start since told)) (h0 : tmo ≠ 0) (ht : start + tmo ≤ (core s c).user.ctime)
    (hp : (core s c).user.precvs.find? (fun p => p.handle == h) = some p) (hd : p.done = none) :
    exec (.probeTimeout c) s = .next (completeWord c false (fun x => setReg x d { val := 15 }) (taken (.probeTimeout c) s)) := by
  have sup : (ctxOf (taken (.probeTimeout c) s) c true).waiting = none := hs
  have user : (ctxOf (taken (.probeTimeout c) s) c false).waiting = some (.probe d h tmo start since told) := hw
  have past : expired (ctxOf (taken (.probeTimeout c) s) c false) tmo start = true := expired_of_le h0 ht
  have posted : (ctxOf (taken (.probeTimeout c) s) c false).precvs.any (fun p => p.handle == h && p.done.isNone) = true :=
    List.any_eq_true.mpr ⟨p, List.mem_of_find?_eq_some hp, by rw [hd]; simpa using List.find?_some hp⟩
  show execProbeTimeout c s = _
  unfold execProbeTimeout
  dsimp only
  rw [isCore_of_le hc, if_neg (by decide), sup]
  dsimp only
  rw [user]
  dsimp only
  rw [past, posted]
  rfl

theorem execForwardedWordIssue_of_word {c lead : Nat} {f : FwdWord} {fs : List FwdWord} (hc : c ≤ 4208) (hr : (core s c).user.role = .attached lead)
    (hf : (core s c).fwd = none) (hq : (core s c).user.fwdq = f :: fs) (hi : userIssues (core s c) = true) (hp : powered (core s c) = true)
    (hs : (core s c).supOn = false) :
    exec (.forwardedWordIssue c) s =
      .next { setCore (taken (.forwardedWordIssue c) s) c { core s c with fwd := some f, user := { (core s c).user with fwdq := fs, pc := f.pc } } with
        cur := c, order := [] } := by
  have same : core (taken (.forwardedWordIssue c) s) c = core s c := rfl
  show execForwardedWordIssue c s = _
  unfold execForwardedWordIssue
  dsimp only
  rw [isCore_of_le hc, if_neg (by decide), same, hr, hf, hq]
  dsimp only
  rw [hi, hp, hs]
  rfl

end

section
variable {s : State} {n : BlockNotice}

theorem execBlockNoticeArrival_of_retraining (hd : n.die < 4) (hl : 3 ≤ n.link) (hl' : n.link < 7)
    (hn : n.rank < (tget s.mgmt.bq (7 * n.die + n.link) {} : Bq).p) (hr : (link s (4 * n.die + (n.link - 3))).retraining = true) :
    exec (.blockNoticeArrival n) s = .next (if s.flight.contains (.blockNoticeArrival n) then s else send (.blockNoticeArrival n) s) := by
  have waits : (decide (3 ≤ n.link) && (tget s.mgmt.links (4 * n.die + (n.link - 3)) {}).retraining) = true := by
    rw [decide_eq_true hl]; exact hr
  show execBlockNoticeArrival n s = _
  unfold execBlockNoticeArrival
  dsimp only
  rw [if_neg (by omega), if_neg (by omega), if_pos waits]

theorem execBlockNoticeArrival_of_turn {ps : List (Place × Nat)} (hd : n.die < 4) (hl : n.link < 7)
    (hr : 3 ≤ n.link → (link s (4 * n.die + (n.link - 3))).retraining = false) :
    let i := 7 * n.die + n.link
    let q : Bq := tget s.mgmt.bq i {}
    let cc := 4096 + 28 * n.die + 4 * n.link + n.block % 4
    let size := 2 ^ (q.bs + 7)
    let addr := (q.base + n.rank % 4 * size) % 2 ^ 32
    let bn := taken (.blockNoticeArrival n) s
    n.rank < q.p → tget q.open_ n.block 0 = 2 * n.rank → residentOf (core s cc) = some true → inboxRoom s cc true = true →
    spanOf bn cc true (ctxOf bn cc true) permW false addr size = .ok ps →
    exec (.blockNoticeArrival n) s =
      (let t := writeRuns cc 3 ps (n.bytes.take size) bn
       .next (notify cc true (.block (blockWord addr q.p n.rank n.block))
         { t with mgmt := { t.mgmt with bq := tset t.mgmt.bq i { q with open_ := tset q.open_ n.block (2 * n.rank + 3) } } })) := by
  intro i q cc size addr bn hn ho hres hroom hspan
  have side : residentSide s cc = true := by rw [residentSide, hres]; rfl
  have trained : ¬(decide (3 ≤ n.link) && (tget s.mgmt.links (4 * n.die + (n.link - 3)) {}).retraining) = true := by
    by_cases h3 : 3 ≤ n.link
    · rw [show (tget s.mgmt.links (4 * n.die + (n.link - 3)) {}).retraining = false from hr h3, Bool.and_false]
      decide
    · rw [decide_eq_false h3, Bool.false_and]; decide
  have turn : ¬(tget q.open_ n.block 0 ≠ 2 * n.rank ∨ (residentOf (core s cc)).isNone = true ∨ (!inboxRoom s cc (residentSide s cc)) = true) := by
    rw [side, ho, hres, hroom]; simp
  show execBlockNoticeArrival n s = _
  unfold execBlockNoticeArrival
  dsimp only
  rw [if_neg (by omega), if_neg (Nat.not_le.mpr hn), if_neg trained, if_neg turn, side, hspan, ho]

end

/-- Settles O46: each arrival is the first of its kind, and each wait over, as the premises say. -/
theorem messageSteps : Obligations.MessageSteps := by
  intro s m c port key d h tmo start wb w b l r rest p cs f fs n ps i q cc size addr bn
  refine ⟨fun ht hs hp => ⟨execMessageArrival_of_first ht hs hp, execTaggedMessageArrival_of_first ht hs hp⟩, execPortWordArrival_of_first,
    execBarrierLeave_of_released, fun hm ha hf hr => ⟨fun ht => ?_, fun ht => ?_⟩, fun hm ha hf hr => ?_, execRecvTimeout_of_expired,
    execProbeTimeout_of_expired, execWaitForProbe_of_cycle, execReceiveCycle_of_cycle, execForwardedWordIssue_of_word,
    fun hd hl hl' => execBlockNoticeArrival_of_retraining hd hl hl', execBlockNoticeArrival_of_turn⟩
  · refine (execChainLineArrival_of_first hm ha hf).trans ?_
    rw [hr]
    dsimp only
    rw [show (ctxOf s c true).resv = (core s c).sup.resv from rfl, ht]
    rfl
  · refine (execChainLineArrival_of_first hm ha hf).trans ?_
    rw [hr]
    dsimp only
    rw [show (ctxOf s c true).resv = (core s c).sup.resv from rfl, ht]
    rfl
  · refine (execChainLineArrival_of_first hm ha hf).trans ?_
    rcases hr with hr | ⟨hr, hk⟩
    · rw [hr]
    · rw [hr]
      dsimp only
      rw [hk]
      rfl

/-! ## The copy engine and the matrix unit (R151, R234, R241, R273, R278, R281, R284) -/

theorem any_of_find? {α : Type} {p : α → Bool} {l : List α} {a : α} (h : l.find? p = some a) : l.any p = true :=
  List.any_eq_true.mpr ⟨a, List.mem_of_find?_eq_some h, List.find?_some h⟩

section
variable {s : State} {c : Nat}

theorem execCopyStart_of_ready {m : CCmd} {ms : List CCmd} {srcs parts : List (Nat × Nat)} {ix : List Int} {st el : Nat} (hc : c ≤ 4208)
    (hq : (core s c).user.cq = m :: ms) (hr : copyReady (taken (.copyStart c) s) c false = true)
    (hb : beginCopy (taken (.copyStart c) s) c false m = .ok srcs parts ix st el) :
    exec (.copyStart c) s =
      (let p : Copy := { id := s.nextId, cmd := m, parts := parts, srcs := srcs, index := ix, keep := keepsTags m, status := st, elem := el }
       .next (startReads c false p srcs.length 0 (setCtxOf { taken (.copyStart c) s with nextId := s.nextId + 1 } c false
         { (core s c).user with cq := ms, copies := (core s c).user.copies ++ [p] }))) := by
  have side : copySide (taken (.copyStart c) s) c = false := by
    rw [copySide, show (core (taken (.copyStart c) s) c).user.cq = m :: ms from hq]
    rfl
  have queue : (ctxOf (taken (.copyStart c) s) c false).cq = m :: ms := hq
  show execCopyStart c s = _
  unfold execCopyStart
  dsimp only
  rw [isCore_of_le hc, if_neg (by decide), side, hr, if_neg (by decide), queue]
  dsimp only
  rw [hb]
  rfl

/-- When the first copy of a user context may start (R234, R241). -/
theorem copyReady_of_run {m : CCmd} {ms : List CCmd} {srcs parts : List (Nat × Nat)} {ix : List Int} {st el : Nat}
    (hq : (core s c).user.cq = m :: ms) (hrun : m.bind = .run) (hh : (core s c).user.dbg.halted = false) (hp : (core s c).preempt = false)
    (hn : (core s c).user.copies.length < 64) (hf : ((core s c).user.copies.all fun p => p.cmd.op != .cfnc) = true)
    (ha : acquired s c false m.o m.seq = true) (hb : beginCopy s c false m = .ok srcs parts ix st el) : copyReady s c false = true := by
  have queue : (ctxOf s c false).cq = m :: ms := hq
  have user : ctxOf s c false = (core s c).user := rfl
  unfold copyReady
  dsimp only
  rw [queue]
  dsimp only
  rw [user, hrun, hh, Core.enginesStop, hp, decide_eq_true hn, hf, ha, hb]
  rfl

theorem execCopyComplete_of_done {p : Copy} (hc : c ≤ 4208) (hp : copyOf s c false p.id = some p)
    (hd : copyComplete (taken (.copyComplete c p.id) s) c false p = true) :
    exec (.copyComplete c p.id) s = .next (setCtxOf (taken (.copyComplete c p.id) s) c false
      ({ (core s c).user with copies := (core s c).user.copies.filter fun q => q.id != p.id }.countDown p.cmd p.status p.elem)) := by
  have found : copyOf (taken (.copyComplete c p.id) s) c false p.id = some p := hp
  show execCopyComplete c p.id s = _
  unfold execCopyComplete
  dsimp only
  rw [isCore_of_le hc, if_neg (by decide), found]
  dsimp only [Option.isNone_some]
  rw [found]
  exact if_pos hd

theorem execMldFillComplete_of_found {slot : Nat} {f : MWork} (hc : c ≤ 4208)
    (hf : ((core s c).user.fills.find? fun f => f.slot == slot) = some f) :
    exec (.mldFillComplete c slot) s = .next (advanceMatrix c (completeFill c false f (taken (.mldFillComplete c slot) s))) := by
  have there : ((core (taken (.mldFillComplete c slot) s) c).user.fills.any fun f => f.slot == slot) = true := any_of_find? hf
  have found : ((ctxOf (taken (.mldFillComplete c slot) s) c false).fills.find? fun f => f.slot == slot) = some f := hf
  show execMldFillComplete c slot s = _
  unfold execMldFillComplete
  dsimp only
  rw [isCore_of_le hc, if_neg (by decide), there, show (!true) = false from rfl, found]

/-! ### What a fill leaves in its group -/

theorem core_domainLog (d : Nat) (g : Snapshot) (r : Nat) (s : State) (c : Nat) : core (domainLog d g r s) c = core s c := by
  have lost : core (lostToMgmt g.flog (64 * g.flogn) s) c = core s c := by
    unfold lostToMgmt
    split
    · exact core_mgmtLog ..
    · rfl
  have logged := (core_logRecord g.flog g.flogn r (lostToMgmt g.flog (64 * g.flogn) s) c).trans lost
  unfold domainLog
  dsimp only
  split <;> exact logged

theorem core_logFor (k : Nat) (x : Ctx) (cause : Nat) (imp : Bool) (pc : Nat) (v : Word) (s : State) (c : Nat) :
    core (logFor k x cause imp pc v s) c = core s c := by
  unfold logFor
  dsimp only
  split
  · exact core_domainLog ..
  · exact core_mgmtLog ..

theorem core_lossRecord (k : Nat) (sup : Bool) (unit ix : Nat) (s : State) (c : Nat) : core (lossRecord k sup unit ix s) c = core s c := by
  unfold lossRecord
  dsimp only
  split
  · exact core_logFor ..
  · exact core_mgmtLog ..

theorem core_fillReads (k : Nat) (sup : Bool) (u : RecUse) (d : Nat) (s : State) (c : Nat) : core (fillReads s k sup u d) c = core s c := by
  have read (s : State) (va : Nat) : core (noteRead k sup s va) c = core s c := by
    unfold noteRead
    split
    · dsimp only
      split
      · exact core_lossRecord ..
      · rfl
    · rfl
  unfold fillReads
  induction fillLines u d generalizing s with
  | nil => rfl
  | cons va l ih => exact (ih _).trans (read s va)

theorem user_setCtxOf (s : State) (c : Nat) (x : Ctx) : (core (setCtxOf s c false x) c).user = x := by
  rw [setCtxOf, core_setCore, if_pos rfl]
  rfl

theorem mslots_matrixFault (s : State) (c pc status elem : Nat) :
    (core (matrixFault c false pc status elem s) c).user.mslots = (core s c).user.mslots := by
  have kept : (core (keepFault c false pc status elem s) c).user.mslots = (core s c).user.mslots := by
    unfold keepFault
    dsimp only
    split
    · rw [user_setCtxOf]
      rfl
    · rfl
  unfold matrixFault
  dsimp only
  split
  · unfold raiseImprecise
    dsimp only
    split
    · exact kept
    · rw [user_setCtxOf]
      exact kept
  · exact kept

theorem mslots_dropFill (s : State) (c slot : Nat) : (core (dropFill c false slot s) c).user.mslots = (core s c).user.mslots := by
  unfold dropFill
  dsimp only
  rw [user_setCtxOf]
  rfl

theorem mslot_congr {x y : Ctx} (h : x.mslots = y.mslots) (i : Nat) : mslot x i = mslot y i := by rw [mslot, h, mslot]

/-- A fill that has failed leaves its group FAULTED and empty. -/
theorem mslot_failMld (m : MCmd) (status elem : Nat) (hs : 0 < (mslot (core s c).user m.x).span) (hr : (mslot (core s c).user m.x).st ≠ 6) :
    mslot (core (failMld c false m status elem s) c).user m.x = { st := slotFaulted, head := m.x, span := (mslot (core s c).user m.x).span } := by
  unfold failMld
  dsimp only
  rw [mslot_congr (mslots_matrixFault ..), user_setCtxOf, if_neg (show ¬(mslot (ctxOf s c false) m.x).st = slotReleasing from hr)]
  exact mslot_putGroup_head _ _ _ hs

theorem mslot_fillDone (m : MCmd) (u : RecUse) (rows : List TileRow) (hs : 0 < (mslot (core s c).user m.x).span)
    (hr : (mslot (core s c).user m.x).st ≠ 6) :
    mslot (core (fillDone c false m u rows s) c).user m.x =
      { st := slotFull, head := m.x, span := (mslot (core s c).user m.x).span, kv := mldKv u.rec_ m.k2.val.toNat, rowsp := rows.length, rows := rows } := by
  unfold fillDone
  dsimp only
  rw [user_setCtxOf, if_neg (show ¬(mslot (ctxOf s c false) m.x).st = slotReleasing from hr)]
  exact mslot_putGroup_head _ _ _ hs

theorem mslot_completeFill_failed {f : MWork} (hs : 0 < (mslot (core s c).user f.cmd.x).span) (hr : (mslot (core s c).user f.cmd.x).st ≠ 6)
    (hf : f.failed ≠ none) :
    mslot (core (completeFill c false f s) c).user f.cmd.x =
      { st := slotFaulted, head := f.cmd.x, span := (mslot (core s c).user f.cmd.x).span } := by
  have kept := mslot_congr (mslots_dropFill s c f.slot) f.cmd.x
  unfold completeFill
  dsimp only
  rw [if_pos (Option.isSome_iff_ne_none.mpr hf), mslot_failMld _ _ _ (kept ▸ hs) (kept ▸ hr), kept]

theorem mslot_completeFill_done {f : MWork} {base : Int} {rec_ cap : Nat} {rows : List TileRow}
    (hs : 0 < (mslot (core s c).user f.cmd.x).span) (hr : (mslot (core s c).user f.cmd.x).st ≠ 6) (hf : f.failed = none)
    (hu : f.use = some (base, rec_, cap)) (hb : fillBehind s c false f.cmd.seq ⟨base, rec_, cap⟩ f.cmd.k2.val.toNat = false)
    (hl : (fillLines ⟨base, rec_, cap⟩ f.cmd.k2.val.toNat).all (lineReady s c false) = true)
    (ht : fillTile s c false ⟨base, rec_, cap⟩ f.cmd.k2.val.toNat = .ok rows) :
    mslot (core (completeFill c false f s) c).user f.cmd.x =
      { st := slotFull, head := f.cmd.x, span := (mslot (core s c).user f.cmd.x).span, kv := mldKv rec_ f.cmd.k2.val.toNat, rowsp := rows.length
        rows := rows } := by
  have kept : mslot (core (dropFill c false f.slot (fillReads s c false ⟨base, rec_, cap⟩ f.cmd.k2.val.toNat)) c).user f.cmd.x =
      mslot (core s c).user f.cmd.x :=
    mslot_congr ((mslots_dropFill ..).trans (by rw [core_fillReads])) _
  unfold completeFill
  dsimp only
  rw [hf, if_neg (by decide), hu]
  dsimp only
  rw [if_neg (show ¬(some (base, rec_, cap)).isNone = true by simp), hb, hl, if_neg (by decide), ht]
  dsimp only
  rw [mslot_fillDone _ _ _ (kept ▸ hs) (kept ▸ hr), kept]

/-! ### Accumulators, stores, remote commands and guards -/

theorem execAccumulatorWriteback_of_fresh {ac : Nat} {t : AList (BitVec 32)} (hc : c ≤ 4208) (ht : tfind (core s c).user.fresh ac = some t) :
    exec (.accumulatorWriteback c ac) s =
      .next (advanceMatrix c (setCtxOf (taken (.accumulatorWriteback c ac) s) c false
        (({ (core s c).user with fresh := tdel (core s c).user.fresh ac, mmas := (core s c).user.mmas.filter fun a => a.acc != ac }.putCells ac t).raise
          (((core s c).user.mmas.filter fun a : MMul => a.acc == ac).foldl (fun n (a : MMul) => n ||| a.flags) 0)))) := by
  have busy : accBusy (core s c).user ac = true := by rw [accBusy, ht]; rfl
  have kept : core (taken (.accumulatorWriteback c ac) s) c = core s c := rfl
  show execAccumulatorWriteback c ac s = _
  unfold execAccumulatorWriteback
  dsimp only
  rw [isCore_of_le hc, if_neg (by decide), kept, busy]
  refine (if_pos busy).trans ?_
  rw [show ctxOf (taken (.accumulatorWriteback c ac) s) c (!true) = (core s c).user from rfl, Ctx.writeback, ht]
  rfl

/-- A user context without the store that is complete. -/
def Ctx.stored (x : Ctx) (u : MStore) : Ctx := u.groups.foldl Ctx.endWork { x.raise u.flags with mstores := x.mstores.filter fun q => q.id != u.id }

theorem execMatrixStoreComplete_of_found {u : MStore} (hc : c ≤ 4208)
    (hu : (core s c).user.mstores.find? (storeComplete (taken (.matrixStoreComplete c) s) c false) = some u) :
    exec (.matrixStoreComplete c) s =
      (let t := setCtxOf (taken (.matrixStoreComplete c) s) c false ((core s c).user.stored u)
       .next (advanceMatrix c (if u.status = 0 then t else matrixFault c false u.cmd.pc u.status u.elem t))) := by
  have kept : core (taken (.matrixStoreComplete c) s) c = core s c := rfl
  have user : ctxOf (taken (.matrixStoreComplete c) s) c (!true) = (core s c).user := rfl
  show execMatrixStoreComplete c s = _
  unfold execMatrixStoreComplete
  dsimp only
  rw [isCore_of_le hc, if_neg (by decide), kept, any_of_find? hu, user, show (!true) = false from rfl, hu]
  rfl

section
variable {r : MsndReq} (hf : s.flight.find? (fun f => match f with
    | .msndAccept q => q.src == r.src && q.sup == r.sup && q.target == r.target | _ => false) = some (.msndAccept r))
include hf

theorem execMsndAccept_of_room {k : MCmd} (hc : r.target ≤ 4208) (hp : powered (core s r.target) = true) (hu : (core s r.target).uload = true)
    (hk : (core s r.target).killing = false) (hpre : (core s r.target).preempt = false) (ht : tenantOk r.tenant (core s r.target).user = true)
    (hn : matrixUsed (core s r.target).user < 8) (hcmd : remoteCmd r (core s r.target).user s.tick = some k) :
    exec (.msndAccept r) s = .next (advanceMatrix r.target (msndAnswer r true
      (setCtxOf (mergeClock (dieOf r.target) r.clock (taken (.msndAccept r) s)) r.target false
        { (core s r.target).user with mq := (core s r.target).user.mq ++ [k] }))) := by
  have command : remoteCmd r (core s r.target).user (taken (.msndAccept r) s).tick = some k := hcmd
  show execMsndAccept r s = _
  unfold execMsndAccept
  rw [isCore_of_le hc, if_neg (by decide)]
  refine (if_neg (not_behind hf)).trans ?_
  dsimp only
  rw [hp, if_neg (by decide), hu, hk, hpre, ht, if_neg (by decide), if_neg (Nat.not_le.mpr hn), command]

theorem execMsndAccept_of_refused (hc : r.target ≤ 4208) (hp : powered (core s r.target) = true)
    (h : (core s r.target).uload = false ∨ (core s r.target).killing = true ∨ (core s r.target).preempt = true ∨
      tenantOk r.tenant (core s r.target).user = false) :
    exec (.msndAccept r) s = .next (msndAnswer r false (taken (.msndAccept r) s)) := by
  show execMsndAccept r s = _
  unfold execMsndAccept
  rw [isCore_of_le hc, if_neg (by decide)]
  refine (if_neg (not_behind hf)).trans ?_
  dsimp only
  rw [hp, if_neg (by decide)]
  refine if_pos ?_
  rcases h with h | h | h | h <;> simp [h]

end

theorem execGuardFalseDiscard_vector {v : VCmd} {vs : List VCmd} (hc : c ≤ 4208) (hq : (core s c).user.vq = v :: vs) (hb : v.bind = .discard)
    (hh : (core s c).user.dbg.halted = false) (hs : vectorSide (core s c) = false) :
    exec (.guardFalseDiscard c 1) s =
      (let t := spendOn c none (some 5) none (taken (.guardFalseDiscard c 1) s)
       .next (setCtxOf t c false (stillPending { ctxOf t c false with
         vq := vs, pend := match v.target with | some n => tdel (core s c).user.pend n | none => (core s c).user.pend }))) := by
  have side : vectorSide (core (taken (.guardFalseDiscard c 1) s) c) = false := hs
  have queue : (ctxOf (taken (.guardFalseDiscard c 1) s) c false).vq = v :: vs := hq
  have pend : (ctxOf (spendOn c none (some 5) none (taken (.guardFalseDiscard c 1) s)) c false).pend = (core s c).user.pend := by
    have same := congrArg (fun k : Core => k.user.pend) (stillCore_core_spendFor (taken (.guardFalseDiscard c 1) s) c 1 c none (some 5) none)
    exact same
  show execGuardFalseDiscard c 1 s = _
  unfold execGuardFalseDiscard
  dsimp only
  rw [isCore_of_le hc, if_neg (by decide), if_pos rfl]
  unfold discardVector
  dsimp only
  rw [side, queue]
  dsimp only
  rw [hb, show (ctxOf (taken (.guardFalseDiscard c 1) s) c false).dbg.halted = false from hh, pend]
  rfl

theorem execGuardFalseDiscard_copy {m : CCmd} {ms : List CCmd} (hc : c ≤ 4208) (hq : (core s c).user.cq = m :: ms) (hb : m.bind = .discard) :
    exec (.guardFalseDiscard c 3) s =
      .next (setCtxOf (taken (.guardFalseDiscard c 3) s) c false ({ (core s c).user with cq := ms }.countDown m 0 0)) := by
  have side : copySide (taken (.guardFalseDiscard c 3) s) c = false := by
    rw [copySide, show (core (taken (.guardFalseDiscard c 3) s) c).user.cq = m :: ms from hq]
    rfl
  have queue : (ctxOf (taken (.guardFalseDiscard c 3) s) c false).cq = m :: ms := hq
  show execGuardFalseDiscard c 3 s = _
  unfold execGuardFalseDiscard
  dsimp only
  rw [isCore_of_le hc, if_neg (by decide), if_neg (by decide), if_neg (by decide), if_pos rfl]
  unfold discardCopy
  dsimp only
  rw [side, queue]
  exact congrArg Host.Outcome.next (if_pos hb)

theorem execGuardFalseDiscard_matrix {k : MCmd} {ks : List MCmd} (hc : c ≤ 4208) (hq : (core s c).user.mq = k :: ks) (hb : k.bind = .discard)
    (hs : matrixSide (core s c) = false) :
    exec (.guardFalseDiscard c 2) s =
      .next (advanceMatrix c (popMatrix c false (spendFor c 1 none none (some 5) (taken (.guardFalseDiscard c 2) s)))) := by
  have side : matrixSide (core (taken (.guardFalseDiscard c 2) s) c) = false := hs
  have queue : (ctxOf (taken (.guardFalseDiscard c 2) s) c false).mq = k :: ks := hq
  show execGuardFalseDiscard c 2 s = _
  unfold execGuardFalseDiscard
  dsimp only
  rw [isCore_of_le hc, if_neg (by decide), if_neg (by decide), if_pos rfl]
  unfold discardMatrix
  dsimp only
  rw [side, queue]
  exact congrArg Host.Outcome.next (if_pos hb)

end

/-- Settles O47: each step finds the work that the premises name at the user context. -/
theorem engineSteps : Obligations.EngineSteps := by
  intro s c m ms srcs parts ix st el p slot ac f t u r k ks v vs hc x cs new
  refine ⟨fun hq hrun hh hp hn hf ha hb => execCopyStart_of_ready hc hq (copyReady_of_run hq hrun hh hp hn hf ha hb) hb,
    execCopyComplete_of_done hc, execMldFillComplete_of_found hc, fun hs hr => ⟨fun hf => ?_, fun base rec_ cap rows hf hu hb hl ht => ?_⟩,
    execAccumulatorWriteback_of_fresh hc, fun hu h0 => ?_, fun hu h0 => ?_, fun he hf hp hu hk hpre ht hn hcmd => ?_, fun he hf hp h => ?_,
    execGuardFalseDiscard_vector hc, execGuardFalseDiscard_copy hc, execGuardFalseDiscard_matrix hc⟩
  · have faulted := mslot_completeFill_failed hs hr hf
    rw [faulted]
    exact ⟨rfl, rfl, rfl, rfl⟩
  · have full := mslot_completeFill_done hs hr hf hu hb hl ht
    rw [full]
    exact ⟨rfl, rfl, rfl, rfl⟩
  · have done := execMatrixStoreComplete_of_found hc hu
    dsimp only at done
    rwa [if_pos h0] at done
  · have done := execMatrixStoreComplete_of_found hc hu
    dsimp only at done
    rwa [if_neg h0] at done
  · subst he
    exact execMsndAccept_of_room hf hc hp hu hk hpre ht hn hcmd
  · subst he
    exact execMsndAccept_of_refused hf hc hp h

end Sys2Proof.Machine
end

section
/-! SUPPORT. The steps of tasks, of host messages, of Saffron, of traps and contexts (R87, R96, R102 to R118, R123, R155, R320, R321, R333 to R345, R352, R353). -/

namespace Sys2Proof.Machine

open Sys2Proof.Claims

/-! ## Decrements and expansions (R109, R110, R320) -/

section
variable {s : State}

/-- The answer of a decrement to the register that waits for it, if one does. -/
def decAnswer (r : DecReq) (n : Nat) (z : State) : State :=
  match r.reg with | some k => deliver r.core false k (BitVec.ofNat 128 n) z | none => z

theorem execDependenceDecrement_of_core {r : DecReq} (hc : r.core ≤ 4208) {z : State} {zero : Bool}
    (h : decrement r.target r.byNode true r.core r.pc (taken (.dependenceDecrement r) s) = (z, zero)) :
    exec (.dependenceDecrement r) s = .next (decAnswer r (if zero then 19 else 0) z) := by
  show execDependenceDecrement r s = _
  unfold execDependenceDecrement decAnswer
  rw [isCore_of_le hc, if_neg (by decide)]
  dsimp only
  rw [h]
  cases r.reg with
  | none => rfl
  | some n => cases zero <;> rfl

section
variable {target : InstRef} {byNode c pc : Nat} {i : Inst} {l : Launch} (hi : inst s target = some i)
  (hl : launch s target.die target.launch = some l)
include hi hl

theorem decrement_of_zero (h : i.counter = 0) :
    decrement target byNode true c pc s =
      (domainLog target.die l.snap (record 0x63 false target.n target.node target.launch (coreName c) pc (elapsedOn s target.die)
        (BitVec.ofNat 128 (byNode % 4096 + 4096))) s, false) := by
  unfold decrement
  rw [hi, hl]
  exact if_pos h

theorem decrement_of_last (h : i.counter = 1) :
    decrement target byNode true c pc s =
      (onInst target (fun i => if i.st = .waiting then { i with counter := i.counter - 1, st := .ready, ready := s.elapsed, since := s.elapsed }
        else { i with counter := i.counter - 1 }) s, true) := by
  have turns : ∀ i : Inst, (if (true && i.st == .waiting) = true then { i with counter := i.counter - 1 }.toReady s.elapsed
      else { i with counter := i.counter - 1 }) =
      if i.st = .waiting then { i with counter := i.counter - 1, st := .ready, ready := s.elapsed, since := s.elapsed }
        else { i with counter := i.counter - 1 } := fun i => by
    rw [Bool.true_and]
    simp only [beq_iff_eq]
    rfl
  unfold decrement
  rw [hi, hl]
  dsimp only
  rw [if_neg (by omega), h]
  exact congrArg (fun f => (onInst target f s, true)) (funext turns)

theorem decrement_of_more (h : 1 < i.counter) :
    decrement target byNode true c pc s = (onInst target (fun i => { i with counter := i.counter - 1 }) s, false) := by
  have more : (i.counter == 1) = false := beq_eq_false_iff_ne.mpr (by omega)
  unfold decrement
  rw [hi, hl]
  dsimp only
  rw [if_neg (by omega), more]
  rfl

end

section
variable {q : SpawnReq} {t : State} (hc : q.core ≤ 4208)
include hc

theorem execTspawnExpansion_of_result {v : Nat} (h : expandSpawn q (taken (.tspawnExpansion q) s) = (t, .inl v)) :
    exec (.tspawnExpansion q) s = .next (deliver q.core q.sup q.reg (BitVec.ofNat 128 v) t) := by
  show execTspawnExpansion q s = _
  unfold execTspawnExpansion
  rw [isCore_of_le hc, if_neg (by decide)]
  dsimp only
  rw [h]

theorem execTspawnExpansion_of_page {r : SpawnReq} (h : expandSpawn q (taken (.tspawnExpansion q) s) = (t, .inr r)) :
    exec (.tspawnExpansion q) s = .next (send (.tspawnExpansion r) t) := by
  show execTspawnExpansion q s = _
  unfold execTspawnExpansion
  rw [isCore_of_le hc, if_neg (by decide)]
  dsimp only
  rw [h]

end

end

/-! ## Re-demands (R96, R325) -/

section
variable {s : State} {u : RedemandReq} {l : Launch} {w : SensIn} {p : Inst}

/-- A producer that a re-demand arms (R96). -/
def Inst.armedBy (p : Inst) (u : RedemandReq) (o now : Nat) : Inst :=
  { p with demand := p.demand.set o (Nat.max (p.demand.getD o 0) u.code), st := .ready, ready := now, since := now, rearmed := true
           reruns := p.reruns + 1, waited := 0, starved := false, disp := 0, resid := 0, waiters := p.waiters ++ [(u.consumer.node, u.rank, false)] }

/-- A producer under way that a re-demand asks to run again once it retires. -/
def Inst.queuedBy (p : Inst) (u : RedemandReq) (o : Nat) : Inst :=
  { p with requeue := p.requeue ++ [(o, u.code)], waiters := p.waiters ++ [(u.consumer.node, u.rank, true)] }

section
variable (hp : inst s { u.consumer with node := w.srcnode } = some p)
include hp

theorem redemandOf_of_met (h : u.code ≤ p.demand.getD w.srcout 0) : redemandOf s u l w = (1, none) := by
  unfold redemandOf
  rw [hp]
  exact if_pos h

theorem redemandOf_of_gone (h : p.demand.getD w.srcout 0 < u.code) (hr : p.rearmed = false) (hh : p.held = false) :
    redemandOf s u l w = (2, none) := by
  unfold redemandOf
  rw [hp]
  dsimp only
  rw [if_neg (Nat.not_le.mpr h), hr, if_neg (by decide), hh]
  rfl

theorem redemandOf_of_held (h : p.demand.getD w.srcout 0 < u.code) (hr : p.rearmed = false) (hh : p.held = true) (hk : keeps l w.srcnode = true)
    (hn : p.reruns < 7) : redemandOf s u l w = (255, some (p.armedBy u w.srcout s.elapsed)) := by
  unfold redemandOf
  rw [hp]
  dsimp only
  rw [if_neg (Nat.not_le.mpr h), hr, if_neg (by decide), hh, if_neg (by decide), hk, if_neg (by decide), if_neg (Nat.not_le.mpr hn)]
  rfl

theorem redemandOf_of_rearmed (h : p.demand.getD w.srcout 0 < u.code) (hr : p.rearmed = true) (hst : p.st ≠ .ready) :
    redemandOf s u l w = (255, some (p.queuedBy u w.srcout)) := by
  unfold redemandOf
  rw [hp]
  dsimp only
  rw [if_neg (Nat.not_le.mpr h), if_pos hr, if_neg (by simpa using hst)]
  rfl

end

section
variable (hl : launch s u.consumer.die u.consumer.launch = some l) (hw : inputOf l u.consumer.node u.input = some w) (hv : w.srcv = true)
include hl hw hv

theorem execRedemand_of_status {st : Nat} (h : redemandOf s u l w = (st, none)) :
    exec (.redemand u) s = .next (answerTred u.consumer u.rank st (taken (.redemand u) s)) := by
  show execRedemand u s = _
  unfold execRedemand
  simp only [hl, hw, hv, h]
  rfl

theorem execRedemand_of_producer {st : Nat} {p : Inst} (h : redemandOf s u l w = (st, some p)) :
    exec (.redemand u) s =
      (let q := writeDemand l p s
       if q.2 then .next (onInst p.ref (fun _ => p) (taken (.redemand u) q.1)) else .next (send (.redemand u) (taken (.redemand u) q.1))) := by
  show execRedemand u s = _
  unfold execRedemand
  simp only [hl, hw, hv, h]
  rfl

theorem execRedemand_of_written {st : Nat} {p : Inst} {t : State} (h : redemandOf s u l w = (st, some p)) (hd : writeDemand l p s = (t, true)) :
    exec (.redemand u) s = .next (onInst p.ref (fun _ => p) (taken (.redemand u) t)) := by
  rw [execRedemand_of_producer hl hw hv h, hd]
  rfl

theorem execRedemand_of_unwritten {st : Nat} {p : Inst} {t : State} (h : redemandOf s u l w = (st, some p)) (hd : writeDemand l p s = (t, false)) :
    exec (.redemand u) s = .next (send (.redemand u) (taken (.redemand u) t)) := by
  rw [execRedemand_of_producer hl hw hv h, hd]
  rfl

end

end

/-! ## Commits (R321, R352, R353) -/

section
variable {s : State} {c : Nat}

theorem execTdoneCommit_of_own {mask : Nat} (hc : c ≤ 4208) (hw : (core s c).user.waiting = some (.tdone mask)) (hu : (core s c).uload = true)
    (hk : (core s c).killing = false) (hh : (core s c).user.handler = none) (hi : (core s c).user.inst = none) :
    exec (.tdoneCommit c) s =
      .next (clearUser c (commitAccounts c false none (disposeTable c 64 0 (spendOn c (some 2) none none (taken (.tdoneCommit c) s))))) := by
  have kept : core (taken (.tdoneCommit c) s) c = core s c := rfl
  show execTdoneCommit c s = _
  unfold execTdoneCommit
  dsimp only
  rw [isCore_of_le hc, if_neg (by decide), kept, hw]
  dsimp only
  rw [hu, hk, if_neg (by decide), hh, hi]
  rfl

theorem execTxCommit_of_user {d : Nat} {g : Tx} (hc : c ≤ 4208) (hs : (core s c).sup.waiting = none)
    (hw : (core s c).user.waiting = some (.commit d)) (hg : (core s c).user.tx = some g) :
    exec (.txCommit c) s = .next (commitTx c false d g (taken (.txCommit c) s)) := by
  have kept : core (taken (.txCommit c) s) c = core s c := rfl
  show execTxCommit c s = _
  unfold execTxCommit
  dsimp only
  rw [isCore_of_le hc, if_neg (by decide), kept, hs, hw, hg]

theorem commitTx_of_aborted {d : Nat} {g : Tx} (ha : g.abort ≠ 0) (hf : firstRefused 0 g.acts = none) :
    commitTx c false d g s = closeTx c false d g (abortWords none 0 g.acts) (22 + g.abort * 2 ^ 8 + g.acts.length * 2 ^ 32) s := by
  unfold commitTx
  dsimp only
  rw [hf, if_pos ha, if_pos ha]
  simp only [txcWord, fld, Option.map_none, Option.getD_none, Nat.zero_mod, Nat.zero_mul, Nat.add_zero]

theorem commitTx_of_done {d : Nat} {g : Tx} {ws : List Nat} {t : State} (ha : g.abort = 0) (hf : firstRefused 0 g.acts = none)
    (hacc : g.accounts = false) (hl : g.acts.any (attLost s c) = false) (hsl : g.acts.any (slotAsked (core s c).user) = false)
    (hsw : sendsWait s c false g = false) (h : applyAll c false 0 g.acts [] (setCtxOf s c false { (core s c).user with tx := none }) = .commit ws t) :
    commitTx c false d g s = closeTx c false d g ws (g.acts.length * 2 ^ 32) t := by
  have user : ctxOf s c false = (core s c).user := rfl
  unfold commitTx
  dsimp only
  rw [hf, if_neg (not_not.mpr ha), if_neg (show ¬(none : Option (Nat × Nat)).isSome = true by decide), hl, hsw, user, hsl, h, hacc,
    if_neg (by decide), if_neg (by decide)]
  simp only [txcWord, fld, Nat.zero_mod, Nat.zero_mul, Nat.zero_add, Bool.false_eq_true, if_false]

theorem execTxTimeout_of_late {g : Tx} (hc : c ≤ 4208) (hs : (core s c).sup.tx = none) (hg : (core s c).user.tx = some g)
    (hw : (core s c).user.waiting = none) (ha : g.abort = 0) (ht : g.since + 65536 ≤ (core s c).user.ctime) :
    exec (.txTimeout c) s =
      .next (setCore (taken (.txTimeout c) s) c { core s c with user := { (core s c).user with tx := some { g with abort := 5 } } }) := by
  have kept : core (taken (.txTimeout c) s) c = core s c := rfl
  have sup : expireTx (core s c).sup = (core s c).sup := by
    unfold expireTx
    rw [hs]
    split
    · rfl
    · contradiction
    · rfl
  have user : expireTx (core s c).user = { (core s c).user with tx := some { g with abort := 5 } } := by
    have late : (decide (g.abort = 0) && decide (65536 ≤ (core s c).user.ctime - g.since)) = true := by
      rw [decide_eq_true ha, decide_eq_true (by omega)]
      rfl
    unfold expireTx
    split
    · rename_i commits
      rw [hw] at commits
      cases commits
    · rename_i opened _
      obtain rfl := Option.some.inj (hg.symm.trans opened)
      exact if_pos late
    · rename_i closed _
      rw [hg] at closed
      cases closed
  show execTxTimeout c s = _
  unfold execTxTimeout
  dsimp only
  rw [isCore_of_le hc, if_neg (by decide), kept, sup, user]

end

/-- Settles O48: what each step of the counter slice comes to, by what it finds there. -/
theorem taskSteps : Obligations.TaskSteps := by
  intro s r q u c l i p w t st mask d g ws s1 done
  refine ⟨fun hc hi hl => ⟨fun h => ?_, fun h => ⟨_, ?_, rfl⟩, fun h => ?_⟩, fun hc => ⟨fun h => ?_, fun q' h => ?_⟩,
    fun hl hw hv hp => ⟨fun h => ?_, fun h hr hh => ?_, fun h hr hh hk hn => ⟨fun hd => ?_, fun hd => ?_⟩, fun h hr hst hd => ?_⟩,
    execTdoneCommit_of_own, fun hc hs hw hg => ⟨fun ha hf => ?_, fun ha hf hacc hla hsl hsw happ => ?_⟩, fun hc hs hg hw ha ht => ?_⟩
  · exact execDependenceDecrement_of_core hc (decrement_of_more hi hl h)
  · exact execDependenceDecrement_of_core hc (decrement_of_last hi hl h)
  · exact execDependenceDecrement_of_core hc (decrement_of_zero hi hl h)
  · exact execTspawnExpansion_of_result hc h
  · exact execTspawnExpansion_of_page hc h
  · exact execRedemand_of_status hl hw hv (redemandOf_of_met hp h)
  · exact execRedemand_of_status hl hw hv (redemandOf_of_gone hp h hr hh)
  · exact execRedemand_of_written hl hw hv (redemandOf_of_held hp h hr hh hk hn) hd
  · exact execRedemand_of_unwritten hl hw hv (redemandOf_of_held hp h hr hh hk hn) hd
  · exact execRedemand_of_written hl hw hv (redemandOf_of_rearmed hp h hr hst) hd
  · rw [execTxCommit_of_user hc hs hw hg, commitTx_of_aborted ha hf]
  · rw [execTxCommit_of_user hc hs hw hg, commitTx_of_done ha hf hacc hla hsl hsw happ]
  · exact execTxTimeout_of_late hc hs hg hw ha ht

/-! ## Host messages (R102 to R108, R376) -/

theorem die_setDie_same (s : State) (d : Nat) (x : Die) : die (setDie s d x) d = x := tget_tset_same ..

theorem setDie_setDie (s : State) (d : Nat) (x y : Die) : setDie (setDie s d x) d y = setDie s d y := by
  unfold setDie
  rw [tset_tset]

section
variable {s : State} {d fn : Nat} {msg : BitVec 512}

theorem execCompletionRecordWrite_of_space {r : BitVec 256} {t : List (BitVec 256)} (hh : (func s fn).held = r :: t) (hc : (func s fn).crsize ≠ 0)
    (hs : (func s fn).crtail < (func s fn).crsize + (func s fn).crhead) :
    exec (.completionRecordWrite fn) s =
      .next (setFunc (taken (.completionRecordWrite fn) s) fn (writeRing r { func s fn with held := t })) := by
  have space : ringSpace (func (taken (.completionRecordWrite fn) s) fn) = true := by
    rw [show func (taken (.completionRecordWrite fn) s) fn = func s fn from rfl, ringSpace, decide_eq_true hs, Bool.and_true]
    exact bne_iff_ne.mpr hc
  have held : (func (taken (.completionRecordWrite fn) s) fn).held = r :: t := hh
  show execCompletionRecordWrite fn s = _
  unfold execCompletionRecordWrite
  dsimp only
  rw [held]
  exact congrArg Host.Outcome.next (if_pos space)

theorem headMsg_of_head (hr : (func s fn).ready = true) (hh : (func s fn).held = []) (hx : (die s d).reset = false)
    (hq : (tget (die s d).queues fn []).head? = some msg) : headMsg s d fn msg = true := by
  unfold headMsg
  dsimp only
  rw [hr, hh, hx, hq]
  simp

/-- A message that its queue comes to next, and whose type its event is of, acts. -/
theorem onMessage_of_head {e : Event} {types : Nat → Bool} {f : State → State} (hd : d < 4) (hf : fn < 64) (hm : headMsg s d fn msg = true)
    (ht : types (bits msg.toNat 7 0) = true) : onMessage e d fn msg types f s = .next (f (taken e s)) := by
  have head : headMsg (taken e s) d fn msg = true := hm
  unfold onMessage
  dsimp only
  rw [if_neg (by omega), head, ht]
  rfl

end

section
variable {s : State} {d fn : Nat} {msg : BitVec 512} {m : Template} {l : Launch}

theorem doLaunch_of_reserved (h : launchReserved msg.toNat = true) : doLaunch d fn msg s = answerMsg d fn 1 2 0 msg s := by
  unfold doLaunch
  simp only [h, if_true]

/-- The state in which a LAUNCH reads its template, once its region is in order. -/
def launchState (d fn v : Nat) (s : State) : State :=
  noteLoad d (regionStatus (lostToMgmt (bits v 113 64) 256 s) (some fn) (bits v 113 64)).2 (bits v 179 128) (lostToMgmt (bits v 113 64) 256 s)

/-- The region that a LAUNCH names. -/
def launchRegion (fn v : Nat) (s : State) : Nat × Snapshot := regionStatus (lostToMgmt (bits v 113 64) 256 s) (some fn) (bits v 113 64)

/-- What a LAUNCH comes to by the template that it loads. -/
def launchLoaded (d fn : Nat) (msg : BitVec 512) (g : Snapshot) (y : State) : TplRes → State
  | .refuse st => answerMsg d fn 1 st 0 msg y
  | .page st2 a p => askPage d fn g st2 a p y
  | .ok t =>
    match hostLaunch (storeTemplate d t y) d fn msg.toNat g t with
    | .inl st => answerMsg d fn 1 st 0 msg (storeTemplate d t y)
    | .inr l => acceptLaunch d fn msg l (storeTemplate d t y)

theorem doLaunch_of_region (hr : launchReserved msg.toNat = false) (hg : (launchRegion fn msg.toNat s).1 = 0)
    (hq : overQuota (lostToMgmt (bits msg.toNat 113 64) 256 s) (bits msg.toNat 113 64) = false)
    (ha : askedFailed (launchState d fn msg.toNat s) d fn (launchRegion fn msg.toNat s).2 = none) :
    doLaunch d fn msg s = launchLoaded d fn msg (launchRegion fn msg.toNat s).2 (launchState d fn msg.toNat s)
      (loadTemplate (launchState d fn msg.toNat s) d (launchRegion fn msg.toNat s).2 (bits msg.toNat 179 128)) := by
  unfold launchState launchRegion at *
  unfold doLaunch
  simp only [hr, Bool.false_eq_true, if_false, hg, ne_eq, not_true_eq_false, hq, ha]
  cases loadTemplate _ d _ (bits msg.toNat 179 128) <;> rfl

theorem doCorestart_of_legal (h1 : bits msg.toNat 511 256 = 0) (h2 : bits msg.toNat 127 96 = 0) (h3 : bits msg.toNat 79 76 = 0)
    (h4 : bits msg.toNat 31 8 = 0) (h5 : bits msg.toNat 81 80 = 0) :
    doCorestart d fn msg s =
      (let v := msg.toNat
       let c := bits v 75 64
       let k := core s c
       if 2 ≤ fn then answerMsg d fn 3 15 0 msg s
       else
         match k.start with
         | some t => if t.sup then answerMsg d fn 3 12 0 msg s else s
         | none =>
           if k.supOn ∨ k.mappedOut then answerMsg d fn 3 12 0 msg s
           else answerMsg d fn 3 0 0 msg (send (.startMessage c) (wakeCore c (setCore s c
             { k with start := some { sup := true, pc := bits v 95 80, arg0 := bits v 191 128, arg1 := bits v 255 192, clock := (die s d).vc } })))) := by
  unfold doCorestart
  dsimp only
  rw [h1, h2, h3, h4, h5, if_neg (by simp)] <;> rfl

theorem doCancel_of_legal (h1 : bits msg.toNat 511 80 = 0) (h2 : bits msg.toNat 31 8 = 0) :
    doCancel d fn msg s =
      match launch s d (bits msg.toNat 79 64) with
      | none => answerMsg d fn 4 14 0 msg s
      | some l => if l.fn ≠ fn then answerMsg d fn 4 15 0 msg s
        else cancelLaunch d (bits msg.toNat 79 64) (answerMsg d fn 4 0 (bits msg.toNat 79 64) msg s) := by
  unfold doCancel
  dsimp only
  rw [h1, h2, if_neg (by simp)] <;> rfl

theorem doImgdrop_of_image (h1 : bits msg.toNat 511 80 = 0) (h2 : bits msg.toNat 31 8 = 0) (hi : (image s d fn (bits msg.toNat 79 64)).isSome = true) :
    doImgdrop d fn msg s =
      if imageUsed s d fn (bits msg.toNat 79 64) then answerMsg d fn 5 16 0 msg s
      else answerMsg d fn 5 0 0 msg (dropImage d fn (bits msg.toNat 79 64) s) := by
  have there : ¬(image s d fn (bits msg.toNat 79 64)).isNone = true := by rw [← Option.not_isSome, hi]; decide
  unfold doImgdrop
  dsimp only
  rw [h1, h2, if_neg (by simp), if_neg there]

section
variable (h1 : bits msg.toNat 511 178 = 0) (h2 : bits msg.toNat 127 80 = 0) (h3 : bits msg.toNat 31 8 = 0)
include h1 h2 h3

theorem doImgreg_of_bad (hr : readImage (noteImage (bits msg.toNat 79 64) (bits msg.toNat 177 128) s) fn (bits msg.toNat 79 64) (bits msg.toNat 177 128) = none) :
    doImgreg d fn msg s = answerMsg d fn 5 2 0 msg (noteImage (bits msg.toNat 79 64) (bits msg.toNat 177 128) s) := by
  unfold doImgreg
  dsimp only
  rw [h1, h2, h3, if_neg (by simp), hr]

theorem doImgreg_of_new {i : Image} (hi : image s d fn (bits msg.toNat 79 64) = none)
    (hn : (die (noteImage (bits msg.toNat 79 64) (bits msg.toNat 177 128) s) d).images.length < 1024)
    (hr : readImage (noteImage (bits msg.toNat 79 64) (bits msg.toNat 177 128) s) fn (bits msg.toNat 79 64) (bits msg.toNat 177 128) = some i) :
    doImgreg d fn msg s =
      (let u := noteImage (bits msg.toNat 79 64) (bits msg.toNat 177 128) s
       answerMsg d fn 5 0 0 msg { (setDie u d { die u d with
         images := (die u d).images.filter (fun j => !(j.fn == fn && j.imgid == bits msg.toNat 79 64)) ++ [i] }) with nextId := u.nextId + 1 }) := by
  unfold doImgreg
  dsimp only
  rw [h1, h2, h3, if_neg (by simp), hr]
  dsimp only
  rw [hi, if_neg (by simp), if_neg (by simpa using hn)]
  unfold dropImage
  dsimp only
  rw [die_setDie_same, setDie_setDie]
  rfl

end

end

section
variable {s : State} {d fn : Nat} {msg : BitVec 512} (hd : d < 4) (hf : fn < 64) (hm : headMsg s d fn msg = true)
include hd hf hm

theorem exec_launch_of_head (ht : bits msg.toNat 7 0 = 1) : exec (.launch d fn msg) s = .next (doLaunch d fn msg (taken (.launch d fn msg) s)) := by
  have acts := onMessage_of_head (e := .launch d fn msg) (types := fun t => !(2 ≤ t && t ≤ 5))
    (f := fun s => if bits msg.toNat 7 0 = 1 then doLaunch d fn msg s else answerMsg d fn 1 1 0 msg s) hd hf hm (by rw [ht]; rfl)
  rwa [if_pos ht] at acts

theorem exec_launch_of_unknown (ht : bits msg.toNat 7 0 = 0) : exec (.launch d fn msg) s = .next (answerMsg d fn 1 1 0 msg (taken (.launch d fn msg) s)) := by
  have acts := onMessage_of_head (e := .launch d fn msg) (types := fun t => !(2 ≤ t && t ≤ 5))
    (f := fun s => if bits msg.toNat 7 0 = 1 then doLaunch d fn msg s else answerMsg d fn 1 1 0 msg s) hd hf hm (by rw [ht]; rfl)
  rwa [if_neg (by rw [ht]; decide)] at acts

theorem exec_corestart_of_head (ht : bits msg.toNat 7 0 = 2) :
    exec (.corestart d fn msg) s = .next (doCorestart d fn msg (taken (.corestart d fn msg) s)) :=
  onMessage_of_head (types := (· == 2)) hd hf hm (by rw [ht]; rfl)

theorem exec_cancel_of_head (ht : bits msg.toNat 7 0 = 3) : exec (.cancel d fn msg) s = .next (doCancel d fn msg (taken (.cancel d fn msg) s)) :=
  onMessage_of_head (types := (· == 3)) hd hf hm (by rw [ht]; rfl)

theorem exec_imgreg_of_head (ht : bits msg.toNat 7 0 = 4) : exec (.imgreg d fn msg) s = .next (doImgreg d fn msg (taken (.imgreg d fn msg) s)) :=
  onMessage_of_head (types := (· == 4)) hd hf hm (by rw [ht]; rfl)

theorem exec_imgdrop_of_head (ht : bits msg.toNat 7 0 = 5) : exec (.imgdrop d fn msg) s = .next (doImgdrop d fn msg (taken (.imgdrop d fn msg) s)) :=
  onMessage_of_head (types := (· == 5)) hd hf hm (by rw [ht]; rfl)

end

/-- Settles O49: the message at the head is taken by its event, and its kind's checks say what it comes to. -/
theorem activeMessages : Obligations.ActiveMessages := by
  intro s d fn msg r t l m i hd hf v x q f a
  refine ⟨?_, execCompletionRecordWrite_of_space, fun hr hh hx hq => ?_⟩
  · show execActiveMessageEnqueue d fn msg s = _
    unfold execActiveMessageEnqueue
    dsimp only
    rw [if_neg (by omega)]
    rfl
  have head := headMsg_of_head hr hh hx hq
  refine ⟨fun ht h => ?_, fun ht h => ?_, fun ht => ?_, fun ht h1 h2 h3 h4 h5 => ?_, fun ht h1 h2 => ?_, ?_, fun ht h1 h2 => ?_⟩
  · rw [exec_launch_of_head hd hf head ht, doLaunch_of_reserved h]
  · intro u g y z hg hquota hasked
    have acts := (exec_launch_of_head hd hf head ht).trans (congrArg Host.Outcome.next (doLaunch_of_region h hg hquota hasked))
    have loads (o : TplRes) (hl : loadTemplate y d g.2 (bits v 179 128) = o) : exec (.launch d fn msg) s = .next (launchLoaded d fn msg g.2 y o) :=
      hl ▸ acts
    refine ⟨fun hl hh => ?_, fun st hl hh => ?_, fun st hl => loads _ hl, fun st2 b p hl => loads _ hl⟩
    · refine (loads _ hl).trans ?_
      dsimp only [launchLoaded]
      rw [show hostLaunch (storeTemplate d m y) d fn msg.toNat g.2 m = .inr l from hh]
      rfl
    · refine (loads _ hl).trans ?_
      dsimp only [launchLoaded]
      rw [show hostLaunch (storeTemplate d m y) d fn msg.toNat g.2 m = .inl st from hh]
  · exact exec_launch_of_unknown hd hf head ht
  · intro c u
    have acts := exec_corestart_of_head hd hf head ht
    rw [acts, doCorestart_of_legal h1 h2 h3 h4 h5]
    have kept : core (taken (.corestart d fn msg) s) (bits msg.toNat 75 64) = core s c := rfl
    dsimp only
    refine ⟨fun hfn hst hs hmap => ?_, fun hfn => ?_, fun hfn hst hs => ?_⟩
    · rw [if_neg (Nat.not_le.mpr hfn), kept, hst]
      dsimp only
      rw [if_neg (by rw [hs, hmap]; decide)]
      rfl
    · rw [if_pos hfn]
    · rw [if_neg (Nat.not_le.mpr hfn), kept, hst]
      exact congrArg Host.Outcome.next (if_pos hs)
  · have acts := exec_cancel_of_head hd hf head ht
    rw [acts, doCancel_of_legal h1 h2]
    refine ⟨fun hl => ?_, fun hl hn => ?_, fun hl hn => ?_⟩
    · rw [show launch (taken (.cancel d fn msg) s) d (bits msg.toNat 79 64) = none from hl]
    · rw [show launch (taken (.cancel d fn msg) s) d (bits msg.toNat 79 64) = some l from hl]
      exact congrArg Host.Outcome.next (if_pos hn)
    · rw [show launch (taken (.cancel d fn msg) s) d (bits msg.toNat 79 64) = some l from hl]
      exact congrArg Host.Outcome.next (if_neg (not_not.mpr hn))
  · intro u ht h1 h2 h3 hi
    have acts := exec_imgreg_of_head hd hf head ht
    rw [acts]
    exact ⟨fun hb => congrArg Host.Outcome.next (doImgreg_of_bad h1 h2 h3 hb), fun hn hb => congrArg Host.Outcome.next (doImgreg_of_new h1 h2 h3 hi hn hb)⟩
  · have acts := exec_imgdrop_of_head hd hf head ht
    rw [acts]
    refine ⟨fun hi hu => ?_, fun hi hu => ?_⟩
    · rw [doImgdrop_of_image (s := taken (.imgdrop d fn msg) s) h1 h2 hi]
      exact congrArg Host.Outcome.next (if_pos hu)
    · rw [doImgdrop_of_image (s := taken (.imgdrop d fn msg) s) h1 h2 hi]
      exact congrArg Host.Outcome.next (if_neg (by rw [show imageUsed (taken (.imgdrop d fn msg) s) d fn (bits msg.toNat 79 64) = false from hu]; decide))

/-! ## Saffron's steps (R87, R112 to R118, R123, R342) -/

section
variable {s : State}

theorem execDemandSweep_of_launch {d id : Nat} {l : Launch} (h : launch s d id = some l) :
    exec (.demandSweep d id) s =
      (let t := writeDemands l (unwritten s d id) (taken (.demandSweep d id) s)
       .next (if (unwritten t d id).isEmpty then t else send (.demandSweep d id) t)) := by
  have found : launch (taken (.demandSweep d id) s) d id = some l := h
  show execDemandSweep d id s = _
  unfold execDemandSweep
  dsimp only
  rw [found]
  rfl

/-- A local name of a definition is generalised with its value kept aside: the kernel then never runs what the name stands for, here the choice
of a pool, eight rounds long. -/
theorem let_eq {α β : Type} {v : α} {f : α → β} {b : β} (h : ∀ x, x = v → f x = b) : (let x := v; f x) = b := h v rfl

/-- The tasks of a die that may be placed, as they compete. -/
def pooledTasks (d : Nat) (t : State) : List Inst := sortInsts ((die t d).insts.filter Inst.pooled)

/-- The starved ones among them, the oldest first. -/
def starvedTasks (d : Nat) (t : State) : List Inst := (pooledTasks d t).filter (·.starved)

/-- The state in which a choice is made, with what is held for the oldest of the starved. -/
def withHold (d : Nat) (t : State) : State :=
  setDie t d { die t d with holdCluster := (starvedHold t d (starvedTasks d t)).map (·.1), holdTask := (starvedHold t d (starvedTasks d t)).map (·.2) }

section
variable {d : Nat} {i : Inst} {cs : List Nat} {u : State} (hd : d < 4) (hr : (die s d).reset = false)
include hd hr

theorem execTaskSelect_of_starved (h : ((starvedTasks d (markFits d (taken (.taskSelect d) s))).head?.bind fun i =>
      (placeInst (withHold d (markFits d (taken (.taskSelect d) s))) none i).map fun p => (i, p)) = some (i, cs)) :
    exec (.taskSelect d) s = .next (dispatch i cs (withHold d (markFits d (taken (.taskSelect d) s)))) := by
  have ready : ¬(die (taken (.taskSelect d) s) d).reset = true := fun h => absurd (h.symm.trans hr) (by decide)
  show execTaskSelect d s = _
  unfold execTaskSelect
  refine (if_neg (Nat.not_le.mpr hd)).trans ((if_neg ready).trans ?_)
  refine let_eq fun otherwise _ => ?_
  have oldest : ∀ f, ((starvedTasks d (markFits d (taken (.taskSelect d) s))).head?.bind fun i =>
      (placeInst (withHold d (markFits d (taken (.taskSelect d) s))) none i).map fun p => (i, p)).orElse f = some (i, cs) := by
    intro f
    rw [h]
    rfl
  generalize chosen : Option.orElse _ _ = o
  obtain rfl := chosen.symm.trans (oldest _)
  rfl

theorem execTaskSelect_of_none_starved {o : Option (Inst × List Nat)} (hn : starvedTasks d (markFits d (taken (.taskSelect d) s)) = [])
    (h : choosePools d none (pooledTasks d (markFits d (taken (.taskSelect d) s))) 8 (withHold d (markFits d (taken (.taskSelect d) s))) = (u, o)) :
    exec (.taskSelect d) s = .next ((o.map fun p => dispatch p.1 p.2 u).getD u) := by
  have ready : ¬(die (taken (.taskSelect d) s) d).reset = true := fun h => absurd (h.symm.trans hr) (by decide)
  have unstarved : (pooledTasks d (markFits d (taken (.taskSelect d) s))).filter (fun i => !i.starved) = pooledTasks d (markFits d (taken (.taskSelect d) s)) := by
    rw [List.filter_eq_self]
    intro i hi
    rw [starvedTasks, List.filter_eq_nil_iff] at hn
    simpa using hn i hi
  show execTaskSelect d s = _
  unfold execTaskSelect
  refine (if_neg (Nat.not_le.mpr hd)).trans ((if_neg ready).trans ?_)
  refine let_eq fun otherwise ho => ?_
  have none_held : (starvedHold (markFits d (taken (.taskSelect d) s)) d (starvedTasks d (markFits d (taken (.taskSelect d) s)))).map (·.1) = none := by
    rw [hn]
    rfl
  have none_fits : ∀ z l k, l = [] → ((starvedTasks d (markFits d (taken (.taskSelect d) s))).head?.bind fun i =>
      (placeInst z none i).map fun p => (i, p)).orElse (fun _ => firstFit z k (l.drop 1)) = none := by
    rintro z l k rfl
    rw [hn]
    rfl
  have pools : ∀ k l z, k = none → l = pooledTasks d (markFits d (taken (.taskSelect d) s)) → z = withHold d (markFits d (taken (.taskSelect d) s)) →
      choosePools d k l 8 z = (u, o) := by
    rintro k l z rfl rfl rfl
    exact h
  generalize chosen : Option.orElse _ _ = p
  obtain rfl := chosen.symm.trans (none_fits _ _ _ hn)
  show otherwise () = _
  refine (congrFun ho ()).trans ?_
  generalize placed : choosePools _ _ _ _ _ = p
  obtain rfl := placed.symm.trans (pools _ _ _ none_held unstarved rfl)
  cases o <;> rfl

end

theorem execStarvation_eq (r : InstRef) : exec (.starvation r) s = .next (onInst r (fun i => { i with starved := i.starved ||
    ((i.st == .ready || i.st == .suspended) && decide (524288 ≤ i.waited + (s.elapsed - i.since))) }) (taken (.starvation r) s)) := by
  refine congrArg (fun f => Host.Outcome.next (onInst r f (taken (.starvation r) s))) (funext fun i => ?_)
  rw [show (i.st == .ready || i.st == .suspended) = i.pooled from rfl, Inst.waitedNow]
  cases hp : i.pooled with
  | false => simp
  | true =>
    by_cases hw : 524288 ≤ i.waited + (s.elapsed - i.since)
    · simp [hw]
    · simp [hw]

theorem onInst_congr {r : InstRef} {f g : Inst → Inst} (h : ∀ i, i.ref = r → f i = g i) (s : State) : onInst r f s = onInst r g s := by
  have same : (fun i : Inst => if i.ref = r then f i else i) = fun i => if i.ref = r then g i else i := by
    funext i
    split
    · exact h i ‹_›
    · rfl
  simp only [onInst, same]

theorem execPriorityAging_of_launch {r : InstRef} {l : Launch} (h : launch s r.die r.launch = some l) :
    exec (.priorityAging r) s = .next (onInst r (fun i =>
      if i.st = .ready ∨ i.st = .suspended then
        { i with prio := Nat.max i.prio (Nat.min 7 (l.snap.prio + (i.waited + (s.elapsed - i.since)) / 65536)) } else i) (taken (.priorityAging r) s)) := by
  refine congrArg Host.Outcome.next (onInst_congr (fun i hi => ?_) _)
  have found : launch (taken (.priorityAging r) s) i.ref.die i.ref.launch = some l := by rw [hi]; exact h
  have pooled : i.pooled = true ↔ i.st = .ready ∨ i.st = .suspended := by simp [Inst.pooled]
  by_cases hp : i.pooled = true
  · rw [if_pos hp, if_pos (pooled.mp hp), agedLevel, found, Inst.waitedNow, hp]
    rfl
  · rw [if_neg hp, if_neg (fun h => hp (pooled.mpr h))]

section
variable {r : InstRef} {i : Inst} {l : Launch} {g : Image}

theorem execInstanceStart_of_powered {n : Node} (hi : inst s r = some i) (hst : i.st = .placing) (hl : launch s r.die r.launch = some l)
    (hn : nodeOf l r.node = some n) (hg : image s r.die l.fn n.image = some g) (hp : (i.cores.all fun c => powered (core s c)) = true) :
    exec (.instanceStart r) s = .next (startPlaced l g i (taken (.instanceStart r) s)) := by
  have found : inst (taken (.instanceStart r) s) r = some i := hi
  have of : launch (taken (.instanceStart r) s) r.die r.launch = some l := hl
  have img : image (taken (.instanceStart r) s) r.die l.fn n.image = some g := hg
  show execInstanceStart r s = _
  unfold execInstanceStart
  dsimp only
  rw [found]
  dsimp only
  rw [of, Option.bind_some, hn, Option.bind_some, img]
  dsimp only [Option.map_some]
  rw [if_neg (not_not.mpr hst)]
  exact congrArg Host.Outcome.next (if_pos hp)

/-- The state of a placed instance's die once its cores hold the image and what reading it found lost is noted. -/
def imageLoaded (l : Launch) (g : Image) (i : Inst) (s : State) : State := i.cores.foldl (loadImage l.snap g) s

section
variable {u : State} (ha : i.areas = [])
include ha

theorem startPlaced_of_fresh (hb : bankdataRuns g.addr i.cores 0 (runsOf (noteBankdata l.snap g i (imageLoaded l g i s)) g.addr g.textlen g.bdn)
      (noteBankdata l.snap g i (imageLoaded l g i s)) = (u, none)) :
    startPlaced l g i s = send (.startMessage (i.cores.headD 0)) (i.cores.foldl (stampStart i.ref.die) u) := by
  unfold imageLoaded at hb
  unfold startPlaced
  dsimp only
  rw [ha, if_neg (by decide), hb]

theorem startPlaced_of_bad_bankdata {b slot : Nat}
    (hb : bankdataRuns g.addr i.cores 0 (runsOf (noteBankdata l.snap g i (imageLoaded l g i s)) g.addr g.textlen g.bdn)
      (noteBankdata l.snap g i (imageLoaded l g i s)) = (u, some (b, slot))) :
    startPlaced l g i s = failStart l i g b slot u := by
  unfold imageLoaded at hb
  unfold startPlaced
  dsimp only
  rw [ha, if_neg (by decide), hb]

end

theorem startPlaced_of_restored (ha : i.areas ≠ []) :
    startPlaced l g i s = (i.cores.zip i.areas).foldl (fun s p => send (.contextRestore p.1 p.2) s) (imageLoaded l g i s) := by
  have some : (!i.areas.isEmpty) = true := by simpa using ha
  exact if_pos some

end

section
variable {c : Nat} {k : Start} (hc : c ≤ 4208) (hk : (core s c).start = some k)
include hc hk

theorem execStartMessage_of_sup (hs : k.sup = true) (hp : powered (core s c) = true) (hw : storeComing (taken (.startMessage c) s) c = false) :
    exec (.startMessage c) s = .next (startSup c k (mergeClock (dieOf c) k.clock (settle c (taken (.startMessage c) s)))) := by
  have kept : core (taken (.startMessage c) s) c = core s c := rfl
  show execStartMessage c s = _
  unfold execStartMessage
  dsimp only
  rw [isCore_of_le hc, if_neg (by decide), kept, hk]
  dsimp only
  rw [if_pos hs, hp, if_neg (by decide), hw]
  rfl

theorem execStartMessage_of_handler (hs : k.sup = false) (hx : k.ctx.bind (·.inst) = none) (hp : powered (core s c) = true) :
    exec (.startMessage c) s = .next (startUser (taken (.startMessage c) s) c) := by
  have kept (c : Nat) : core (taken (.startMessage c) s) c = core s c := rfl
  show execStartMessage c s = _
  unfold execStartMessage
  dsimp only
  rw [isCore_of_le hc, if_neg (by decide), kept, hk]
  dsimp only
  rw [if_neg (by rw [hs]; decide), hx]
  dsimp only [Option.bind_none]
  rw [if_neg]
  · rfl
  · rw [List.all_cons, kept, hp]
    exact fun h => Bool.false_ne_true h

theorem execStartMessage_of_instance {r : InstRef} {i : Inst} (hs : k.sup = false) (hx : k.ctx.bind (·.inst) = some r) (hi : inst s r = some i)
    (hp : (i.cores.all fun m => powered (core s m)) = true) :
    exec (.startMessage c) s = .next (onInst r (fun j => { j with st := .running, disp := (i.cores.foldl startUser (taken (.startMessage c) s)).elapsed })
      (i.cores.foldl startUser (taken (.startMessage c) s))) := by
  have kept : core (taken (.startMessage c) s) c = core s c := rfl
  have found : inst (taken (.startMessage c) s) r = some i := hi
  have on : (i.cores.all fun m => powered (core (taken (.startMessage c) s) m)) = true := hp
  show execStartMessage c s = _
  unfold execStartMessage
  dsimp only
  rw [isCore_of_le hc, if_neg (by decide), kept, hk]
  dsimp only
  rw [if_neg (by rw [hs]; decide), hx, Option.bind_some, found]
  dsimp only
  rw [on]
  rfl

end

theorem isSome_takeAreas_taken (e : Event) (v : Inst) : (takeAreas v (taken e s)).isSome = (takeAreas v s).isSome := by
  have pool : die (taken e s) v.ref.die = die s v.ref.die := rfl
  unfold takeAreas
  dsimp only
  rw [pool]
  split
  · rfl
  · split <;> rfl

theorem victimFor_taken (e : Event) (i : Inst) : victimFor (taken e s) i = victimFor s i := by
  have ok (n : Need) (p : Nat) : victimOk (taken e s) n p = victimOk s n p := by
    funext v
    unfold victimOk
    rw [isSome_takeAreas_taken]
    rfl
  unfold victimFor
  simp only [ok]
  rfl

theorem execPreemptDecision_of_victim {d : Nat} {i v : Inst} {u : State} (hd : d < 4)
    (hl : (longUnplaced s d).find? (fun i => (victimFor s i).isSome) = some i) (hv : victimFor s i = some v)
    (ht : takeAreas v (taken (.preemptDecision d) s) = some u) :
    exec (.preemptDecision d) s = .next (send (.preemption (v.cores.headD 0))
      (v.cores.foldl (setPreempt true) (onInst i.ref (fun i => { i with failedPlace := some s.elapsed }) u))) := by
  have long : longUnplaced (taken (.preemptDecision d) s) d = longUnplaced s d := rfl
  show execPreemptDecision d s = _
  unfold execPreemptDecision
  dsimp only
  rw [if_neg (Nat.not_le.mpr hd), long]
  simp only [victimFor_taken]
  rw [hl]
  dsimp only
  rw [hv]
  dsimp only
  rw [ht]
  rfl

theorem execFaultHandlerStart_of_place {d flog c : Nat} {m : Domain} {g : Image} {cs : List Nat} (hd : d < 4)
    (hm : tfind (die s 0).domains flog = some m) (hr : m.running = false) (hw : m.covered < homeRead s flog 8)
    (hg : image s d (funcOf (handlerSnap (taken (.faultHandlerStart d flog) s) m.snap).vf (handlerSnap (taken (.faultHandlerStart d flog) s) m.snap).pfn)
      (handlerSnap (taken (.faultHandlerStart d flog) s) m.snap).fhimg = some g)
    (hp : placement (taken (.faultHandlerStart d flog) s) { die := d, rcb := (handlerSnap (taken (.faultHandlerStart d flog) s) m.snap).rcb, img := g
                                                            shape := 0, size := 1, fresh := 0 } (die s d).holdCluster = some (c :: cs)) :
    exec (.faultHandlerStart d flog) s =
      (let p := handlerSnap (taken (.faultHandlerStart d flog) s) m.snap
       let t := wakeCore c (setDie (taken (.faultHandlerStart d flog) s) 0
         { die s 0 with domains := tset (die s 0).domains flog { m with covered := homeRead s flog 8, running := true } })
       .next (send (.startMessage c) (setCore t c
         { core t c with start := some { sup := false, pc := p.fhent, clock := (die t d).vc, ctx := some (handlerCtx p (homeRead s flog 8)) } }))) := by
  have found : (tfind (die (taken (.faultHandlerStart d flog) s) 0).domains flog : Option Domain) = some m := hm
  have more : ¬(m.running = true ∨ homeRead (taken (.faultHandlerStart d flog) s) flog 8 ≤ m.covered) := by
    rw [hr]
    exact fun h => h.elim (by decide) (Nat.not_le.mpr hw)
  show execFaultHandlerStart d flog s = _
  unfold execFaultHandlerStart
  dsimp only
  rw [if_neg (Nat.not_le.mpr hd), found]
  dsimp only
  rw [if_neg more]
  generalize handlerSnap (taken (.faultHandlerStart d flog) s) m.snap = p at hg hp ⊢
  rw [show image (taken (.faultHandlerStart d flog) s) d (funcOf p.vf p.pfn) p.fhimg = some g from hg]
  dsimp only
  rw [show placement (taken (.faultHandlerStart d flog) s) { die := d, rcb := p.rcb, img := g, shape := 0, size := 1, fresh := 0 }
    (die (taken (.faultHandlerStart d flog) s) d).holdCluster = some (c :: cs) from hp]
  rfl

end

/-- Settles O50: what each step of Saffron finds decides which of its branches it takes. -/
theorem saffronSteps : Obligations.SaffronSteps := by
  intro s d id c flog l r i v n g cs u k m
  refine ⟨execDemandSweep_of_launch, fun hd hr => ⟨execTaskSelect_of_starved hd hr, execTaskSelect_of_none_starved hd hr, execTaskSelect_of_none_starved hd hr⟩, execStarvation_eq r, execPriorityAging_of_launch,
    fun hi hst hl hn hg hp => ?_,
    fun hc hk => ⟨execStartMessage_of_sup hc hk, execStartMessage_of_handler hc hk, execStartMessage_of_instance hc hk⟩,
    execPreemptDecision_of_victim, execFaultHandlerStart_of_place⟩
  · intro t y
    have starts := execInstanceStart_of_powered hi hst hl hn hg hp
    refine ⟨fun ha hb => ?_, fun b slot ha hb => ?_, fun ha => ?_⟩
    · exact starts.trans (congrArg Host.Outcome.next (startPlaced_of_fresh ha hb))
    · exact starts.trans (congrArg Host.Outcome.next (startPlaced_of_bad_bankdata ha hb))
    · exact starts.trans (congrArg Host.Outcome.next (startPlaced_of_restored ha))

/-! ## Traps and kills as steps (R333, R335, R336, R340) -/

section
variable {s : State} {c : Nat}

theorem hint_abortTx (x : Ctx) (why : Nat) : (x.abortTx why).hint = x.hint := by
  unfold Ctx.abortTx
  split
  · split <;> rfl
  · rfl

theorem hint_detach (x : Ctx) : x.detach.hint = x.hint := by
  unfold Ctx.detach
  split <;> rfl

/-- An imprecise trap of a user context, with traps on: %tcause has bit 8 set. -/
theorem userTrap_imprecise_of_on (cause : Nat) (val : Word) (h : (core s c).tvec % 2 = 1) (hint : (core s c).user.hint = .none) :
    userTrap c cause true val s = setCore s c (userTrapCore (cause + 256) (causeClass cause) val (core (settle c s) c)) := by
  have settled := stillCore_core_settle s c
  have ht : (core (settle c s) c).tvec = (core s c).tvec := tvec_of_still settled
  have h0 : ¬ (core (settle c s) c).tvec % 2 = 0 := by omega
  have unhinted : (core (settle c s) c).user.hint = .none := (congrArg Ctx.hint (stillCtx_user settled)).trans hint
  have at_pc : restart (core (settle c s) c).user = ((core (settle c s) c).user.abortTx 3).detach.pc := by
    rw [← restart_abortTx _ 3, ← restart_detach]
    refine if_pos ?_
    rw [hint_detach, hint_abortTx]
    exact unhinted
  simp only [userTrap, if_neg h0, setCore_settle, Bool.true_or, if_true]
  rw [← at_pc]
  rfl

theorem setCx_of_user {x : Ctx} (h : onSup s = false) : setCx s x = setCore s s.cur { curCore s with user := x } := by
  show setCore s s.cur ((curCore s).put (onSup s) x) = _
  rw [h]
  rfl

/-- A user context's imprecise trap in its issue slot, apart from the cycle that it takes. -/
theorem still_takeTrap_imprecise (cause : Nat) (val : Word) (hs : onSup s = false) (hv : (curCore s).tvec % 2 = 1) (hint : (curCore s).user.hint = .none) :
    still (takeTrap s.cur cause true val (spend 8 s)) = still (userTrapped s (cause + 256) (causeClass cause) val) := by
  have hk : stillCore (core (spend 8 s) s.cur) = stillCore (curCore s) := stillCore_core_spendFor s s.cur 1 s.cur (some 8) none none
  have user : (core (spend 8 s) s.cur).supOn = false := (supOn_of_still hk).trans hs
  have hv' : (core (spend 8 s) s.cur).tvec % 2 = 1 := by rw [tvec_of_still hk]; exact hv
  have unhinted : (core (spend 8 s) s.cur).user.hint = .none := (congrArg Ctx.hint (stillCtx_user hk)).trans hint
  rw [takeTrap, user, if_neg Bool.false_ne_true, userTrap_imprecise_of_on _ _ hv' unhinted, userTrapped_eq]
  refine still_setCore_spendFor s s.cur 1 s.cur (some 8) none none _ _ ?_ rfl
  rw [stillCore_userTrapCore, stillCore_core_settle, hk, stillCore_userTrapCore]

theorem takeImprecise_of_cons {cause : Nat} {val : Word} {imp : List (Nat × Word)} (h : (cx s).imprecise = (cause, val) :: imp) :
    takeImprecise s = takeTrap s.cur cause true val (spend 8 (setCx s { cx s with imprecise := imp })) := by
  unfold takeImprecise
  dsimp only
  rw [h]

/-- A trap of the user context of a core that may not be the current one, as the state after it is stated. -/
theorem still_setCore_userTrapCore (cause class_ : Nat) (val : Word) {t : State} (h : still s = still t) :
    still (setCore s c (userTrapCore cause class_ val (core (settle c s) c))) = still (setCore t c (userTrapCore cause class_ val (core t c))) := by
  refine still_setCore_congr h c ?_
  rw [stillCore_userTrapCore, stillCore_core_settle, stillCore_core_of_still h, stillCore_userTrapCore]

/-- The state in which a core's user context is being killed. -/
def killingAt (c : Nat) (s : State) : State := setCore s c { core s c with killing := true }

/-- What a kill of a context apart from any instance does to it before its table is looked at. -/
def killStripped (c : Nat) (u : State) : State :=
  let z := withdraw c false u
  let z := { z with accesses := z.accesses.filter fun a => !(a.core == c && !a.sup) }
  dealTable c (setCore z c { core z c with user := (core z c).user.stripped, fwd := none })

theorem core_killingAt (s : State) (c : Nat) : core (killingAt c s) c = { core s c with killing := true } := (core_setCore ..).trans (if_pos rfl)

section
variable {cause : BitVec 8} {pc : BitVec 16} {val : Word} (hc : c ≤ 4208)
include hc

theorem execTrapEntry_of_user (hu : userIssues (core s c) = true) (hs : (core s c).supOn = false) (ht : trapCause cause.toNat = true)
    (hi : impreciseCause cause.toNat = false) :
    exec (.trapEntry c cause pc val) s = .next (userTrap c cause.toNat false val
      (setCore (taken (.trapEntry c cause pc val) s) c { core s c with user := { (core s c).user with pc := pc.toNat, hint := .none } })) := by
  have kept : core (taken (.trapEntry c cause pc val) s) c = core s c := rfl
  show execTrapEntry c cause pc val s = _
  unfold execTrapEntry
  dsimp only
  rw [isCore_of_le hc, if_neg (by decide), kept, hu, hs, ht, if_neg (by decide), hi]

theorem execImpreciseTrapTake_of_user {imp : List (Nat × Word)} (hu : userIssues (core s c) = true) (hs : (core s c).supOn = false)
    (hi : (core s c).user.imprecise = (cause.toNat, val) :: imp) (hh : (core s c).user.hint = .none) (hm : (core s c).user.midway = false) :
    exec (.impreciseTrapTake c) s = .next { takeImprecise { taken (.impreciseTrapTake c) s with cur := c } with cur := s.cur } := by
  have kept : core (taken (.impreciseTrapTake c) s) c = core s c := rfl
  show execImpreciseTrapTake c s = _
  unfold execImpreciseTrapTake
  dsimp only
  rw [isCore_of_le hc, if_neg (by decide), kept, hu, hs, hi, hh, hm]
  rfl

theorem execSupervisorTrap_of_sup (hs : (core s c).supOn = true) (ht : trapCause cause.toNat = true) (hi : impreciseCause cause.toNat = false) :
    exec (.supervisorTrap c cause pc val) s = .next (supTrap c cause.toNat false val
      (setCore (taken (.supervisorTrap c cause pc val) s) c { core s c with sup := { (core s c).sup with pc := pc.toNat, hint := .none } })) := by
  have kept : core (taken (.supervisorTrap c cause pc val) s) c = core s c := rfl
  show execSupervisorTrap c cause pc val s = _
  unfold execSupervisorTrap
  dsimp only
  rw [isCore_of_le hc, if_neg (by decide), kept, hs, ht, if_neg (by decide), hi]

theorem execContextKill_of_single {t : State} (hu : (core s c).uload = true) (hw : (core s c).user.waiting = none) (hi : (core s c).user.inst = none)
    (ht : killStripped c (killingAt c (taken (.contextKill c cause pc val) s)) = t) (hd : tableDone t c = true) :
    exec (.contextKill c cause pc val) s = .next (endKill c cause.toNat pc.toNat val t) := by
  have kept : core (taken (.contextKill c cause pc val) s) c = core s c := rfl
  have waits : (core (killingAt c (taken (.contextKill c cause pc val) s)) c).user.waiting = none := (congrArg (·.user.waiting) (core_killingAt _ c)).trans hw
  have alone : (core (killingAt c (taken (.contextKill c cause pc val) s)) c).user.inst = none := (congrArg (·.user.inst) (core_killingAt _ c)).trans hi
  have loaded : ¬(!(core (taken (.contextKill c cause pc val) s) c).uload) = true := by
    rw [kept, hu]
    decide
  have named : setCore (taken (.contextKill c cause pc val) s) c { core (taken (.contextKill c cause pc val) s) c with killing := true } =
    killingAt c (taken (.contextKill c cause pc val) s) := rfl
  show execContextKill c cause pc val s = _
  unfold execContextKill
  refine (if_neg (by rw [isCore_of_le hc]; decide)).trans ((if_neg loaded).trans ?_)
  dsimp only at named ⊢
  rw [named]
  generalize killingAt c (taken (.contextKill c cause pc val) s) = u at *
  rw [waits, alone]
  subst ht
  exact if_pos hd
theorem execPreemption_of_stopped {i j : Inst} {t : State} (hi : (core s c).user.inst.bind (inst s) = some i) (hu : (core s c).uload = true)
    (hd : (core s c).udisp = true) (hr : i.st = .running) (hk : i.cores.all (fun m => !(core s m).killing) = true)
    (ht : takeAreas i (taken (.preemption c) s) = some t) (hs : i.cores.all (stopped (i.cores.foldl (setPreempt true) t)) = true)
    (hj : inst (i.cores.foldl (setPreempt true) t) i.ref = some j) :
    exec (.preemption c) s = .next (onInst j.ref (fun n => { n with st := .suspended, since := (saveAll (j.cores.zip j.areas) (i.cores.foldl (setPreempt true) t)).elapsed, cores := [] })
      (saveAll (j.cores.zip j.areas) (i.cores.foldl (setPreempt true) t))) := by
  have kept : core (taken (.preemption c) s) c = core s c := rfl
  have found : (core s c).user.inst.bind (inst (taken (.preemption c) s)) = some i := hi
  have unkilled : ¬(i.cores.any fun m => (core (taken (.preemption c) s) m).killing) = true := by
    simpa [core_taken] using hk
  show execPreemption c s = _
  unfold execPreemption
  dsimp only
  rw [isCore_of_le hc, if_neg (by decide), kept, found]
  dsimp only
  rw [hu, hd, hr, if_neg (by decide), if_neg unkilled, ht]
  dsimp only
  rw [if_pos hs, hj]

section
variable {area o : Nat} {x : Ctx} {i : Inst} (ha : tfind s.areas area = some (o, x)) (hi : x.inst.bind (inst s) = some i) (hu : (core s c).uload = false)
  (hm : i.cores.contains c = true) (hl : i.areas.contains area = true) (hp : powered (core s c) = true)
include ha hi hu hm hl hp

theorem execContextRestore_of_member :
    exec (.contextRestore c area) s = (let s := restoreMember c area i (taken (.contextRestore c area) s)
      if i.areas.length ≤ 1 then
        let s := i.cores.foldl (setPreempt false) s
        let s := i.cores.foldl (fun s c => resumeHandler c s) s
        .next (onInst i.ref (fun i => { i with st := .running, disp := s.elapsed }) s)
      else .next s) := by
  have kept : core (taken (.contextRestore c area) s) c = core s c := rfl
  have found : ((tfind (taken (.contextRestore c area) s).areas area).bind fun p => p.2.inst.bind (inst (taken (.contextRestore c area) s))) = some i := by
    show ((tfind s.areas area).bind fun p => p.2.inst.bind (inst s)) = some i
    rw [ha]
    exact hi
  show execContextRestore c area s = _
  unfold execContextRestore
  dsimp only
  rw [isCore_of_le hc, if_neg (by decide), found]
  dsimp only
  rw [kept, hu, hm, hl, hp, if_neg (by decide), if_neg (by decide)]

end

theorem execAccountCounterLimit_of_full (hr : residentOf (core s c) = some false)
    (hf : (core s c).user.acct.any (fun p => decide (2 ^ 47 ≤ p.2)) = true) :
    exec (.accountCounterLimit c) s = .next (commitAccounts c false none (taken (.accountCounterLimit c) s)) := by
  have kept : core (taken (.accountCounterLimit c) s) c = core s c := rfl
  show execAccountCounterLimit c s = _
  unfold execAccountCounterLimit
  dsimp only
  rw [isCore_of_le hc, if_neg (by decide), kept, hr]
  dsimp only
  exact congrArg Host.Outcome.next (if_pos hf)

end

end

/-- Settles O51: each step takes the branch of its event that its premises select; a trap's first step differs from the trap as stated in what
the cycle that it takes charges. -/
theorem trapAndContextSteps : Obligations.TrapAndContextSteps := by
  intro s c area cause pc val imp i j t x o hc k with_ kt
  refine ⟨fun hu hs ht hi hv => ?_, fun hu hs hi hh hm hv => ?_, fun hs ht hi hv hp => ?_, ?_, ?_, fun ha hi hu hm hl hp => ?_,
    execAccountCounterLimit_of_full hc⟩
  · refine ⟨_, execTrapEntry_of_user hc hu hs ht hi, ?_⟩
    rw [userTrap_of_on _ _ _ _ (by rw [core_setCore, if_pos rfl]; exact hv)]
    exact still_setCore_userTrapCore _ _ _ rfl
  · refine ⟨_, execImpreciseTrapTake_of_user hc hu hs hi hh hm, ?_⟩
    have user : cx { taken (.impreciseTrapTake c) s with cur := c } = k.user := cx_of_user hs
    have put : setCx { taken (.impreciseTrapTake c) s with cur := c } { k.user with imprecise := imp } =
        with_ (.impreciseTrapTake c) { k.user with imprecise := imp } := setCx_of_user hs
    rw [takeImprecise_of_cons (user ▸ hi), user, put]
    have front : curCore (with_ (.impreciseTrapTake c) { k.user with imprecise := imp }) = { k with user := { k.user with imprecise := imp } } :=
      (core_setCore ..).trans (if_pos rfl)
    have trapped := still_takeTrap_imprecise cause.toNat val ((congrArg (·.supOn) front).trans hs) ((congrArg (·.tvec % 2) front).trans hv)
      ((congrArg (·.user.hint) front).trans hh)
    exact congrArg (fun t : State => { t with cur := s.cur }) trapped
  · rw [execSupervisorTrap_of_sup hc hs ht hi, supTrap_of_on _ _ _ _ (by rw [core_setCore, if_pos rfl]; exact hv) (by rw [core_setCore, if_pos rfl]; exact hp)]
    rfl
  · intro hu hw hi z z' ht hd
    exact execContextKill_of_single hc hu hw hi ht hd
  · intro hi hu hd hr hk ht z hs hj y
    exact execPreemption_of_stopped hc hi hu hd hr hk ht hs hj
  · have restores := execContextRestore_of_member hc ha hi hu hm hl hp
    intro z
    exact ⟨fun many => restores.trans (if_neg (Nat.not_le.mpr many)), fun one => restores.trans (if_pos one.le)⟩

end Sys2Proof.Machine
end

section
/-! SUPPORT. The steps of power, of the host, of errors and of debugging (O52 to O55). -/

namespace Sys2Proof.Machine

open Sys2Proof.Claims

/-! ## Power gating and waking (R119) -/

section
variable {s : State}

@[simp] theorem flight_settle (s : State) (c : Nat) : (settle c s).flight = s.flight := by
  unfold settle
  split <;> rfl

@[simp] theorem elapsed_settle (s : State) (c : Nat) : (settle c s).elapsed = s.elapsed := by
  unfold settle
  split <;> rfl

@[simp] theorem clusters_settle (s : State) (c : Nat) : (settle c s).clusters = s.clusters := by
  unfold settle
  split <;> rfl

theorem messagePending_settle (s : State) (c : Nat) : messagePending (settle c s) c = messagePending s c := by
  have settled := stillCore_core_settle s c
  have hn : (core (settle c s) c).niq = (core s c).niq := congrArg (·.niq) settled
  have hs : (core (settle c s) c).start = (core s c).start := congrArg (·.start) settled
  unfold messagePending
  rw [hn, hs, flight_settle]

theorem messagePending_of_flight {t : State} (h : s.flight = t.flight) (c : Nat) (hk : core s c = core t c) : messagePending s c = messagePending t c := by
  unfold messagePending
  rw [hk, h]

section
variable {c : Nat} (hc : c ≤ 4208)
include hc

theorem execCoreGatingStart_of_idle (hp : (core s c).power = .on) (hr : residentOf (core s c) = none)
    (hm : messagePending (taken (.coreGatingStart c) s) c = false) (ht : (core s c).idleSince + 16384 ≤ s.elapsed) :
    exec (.coreGatingStart c) s = .next (send (.coreGatingCommit c) (setCore (settle c (taken (.coreGatingStart c) s)) c
      { core (settle c (taken (.coreGatingStart c) s)) c with power := .gating false false, idleSince := s.elapsed })) := by
  have settled : stillCore (core (settle c (taken (.coreGatingStart c) s)) c) = stillCore (core s c) := stillCore_core_settle ..
  have on : (core (settle c (taken (.coreGatingStart c) s)) c).power = .on := (congrArg (·.power) settled).trans hp
  have since : (core (settle c (taken (.coreGatingStart c) s)) c).idleSince = (core s c).idleSince := congrArg (·.idleSince) settled
  have loaded : (core (settle c (taken (.coreGatingStart c) s)) c).uload = (core s c).uload := congrArg (·.uload) settled
  have sup : (core (settle c (taken (.coreGatingStart c) s)) c).supOn = (core s c).supOn := congrArg (·.supOn) settled
  have empty : residentOf (core (settle c (taken (.coreGatingStart c) s)) c) = none := by
    rw [← hr, residentOf, loaded, sup, residentOf]
  have elapsed : (settle c (taken (.coreGatingStart c) s)).elapsed = s.elapsed := elapsed_settle ..
  show execCoreGatingStart c s = _
  unfold execCoreGatingStart
  dsimp only
  rw [isCore_of_le hc, if_neg (by decide), elapsed]
  refine if_pos ?_
  rw [messagePending_settle, hm, empty, powered, on, since]
  simpa using ht

theorem execCoreGatingCommit_of_due {h : Bool} (hp : (core s c).power = .gating false h) (ht : (core s c).idleSince + 32 ≤ s.elapsed) :
    exec (.coreGatingCommit c) s = .next (send (.corePowerOff c) (setCore (taken (.coreGatingCommit c) s) c { core s c with power := .gating true h })) := by
  have kept : core (taken (.coreGatingCommit c) s) c = core s c := rfl
  show execCoreGatingCommit c s = _
  unfold execCoreGatingCommit
  dsimp only
  rw [isCore_of_le hc, if_neg (by decide), kept, hp]
  exact if_pos ht

theorem execCorePowerOff_of_due {h : Bool} (hp : (core s c).power = .gating true h) (ht : (core s c).idleSince + 64 ≤ s.elapsed) :
    exec (.corePowerOff c) s = .next (if h then send (.powerUpDone false c) (setCore (taken (.corePowerOff c) s) c { core s c with power := .waking })
      else setCore (taken (.corePowerOff c) s) c { core s c with power := .off }) := by
  have kept : core (taken (.corePowerOff c) s) c = core s c := rfl
  show execCorePowerOff c s = _
  unfold execCorePowerOff
  dsimp only
  rw [isCore_of_le hc, if_neg (by decide), kept, hp]
  refine (if_pos ht).trans ?_
  cases h <;> rfl

theorem execPowerUpDone_of_core {cl : Nat} (hp : (core s c).power = .waking) (hcl : clusterOf c = some cl) (hg : (cluster s cl).power = .on) :
    exec (.powerUpDone false c) s = .next (setCore (settle c (taken (.powerUpDone false c) s)) c
      { core (settle c (taken (.powerUpDone false c) s)) c with power := .on, idleSince := s.elapsed }) := by
  have waking : (core (settle c (taken (.powerUpDone false c) s)) c).power = .waking :=
    (congrArg (·.power) (stillCore_core_settle (taken (.powerUpDone false c) s) c)).trans hp
  have elapsed : (settle c (taken (.powerUpDone false c) s)).elapsed = s.elapsed := elapsed_settle ..
  have on : (cluster (settle c (taken (.powerUpDone false c) s)) cl).power = .on := by
    rw [cluster, clusters_settle]
    exact hg
  show execPowerUpDone false c s = _
  unfold execPowerUpDone
  dsimp only
  rw [if_neg (by decide), isCore_of_le hc, if_neg (by decide), waking, hcl, elapsed]
  dsimp only [Option.map_some]
  rw [on]

end

section
variable {cl : Nat} (hcl : cl < 64)
include hcl

theorem execClusterGatingStart_of_idle (hp : (cluster s cl).power = .on) (hg : ∀ m ∈ clusterCores cl, (core s m).power = .off)
    (hb : banksIdle s cl = true) (ht : clusterIdleSince s cl + 65536 ≤ s.elapsed) :
    exec (.clusterGatingStart cl) s = .next (send (.clusterGatingCommit cl)
      (setCluster (taken (.clusterGatingStart cl) s) cl { cluster s cl with power := .gating false false, idleSince := s.elapsed })) := by
  have kept : cluster (taken (.clusterGatingStart cl) s) cl = cluster s cl := rfl
  have off : (clusterCores cl).all (fun c => gated (core (taken (.clusterGatingStart cl) s) c)) = true := by
    rw [List.all_eq_true]
    intro m hm
    show gated (core s m) = true
    rw [gated, hg m hm]
  show execClusterGatingStart cl s = _
  unfold execClusterGatingStart
  dsimp only
  rw [if_neg (Nat.not_le.mpr hcl), kept, hp]
  refine if_pos ?_
  rw [off]
  show (true && banksIdle s cl && decide (clusterIdleSince s cl + 65536 ≤ s.elapsed)) = true
  rw [hb]
  simpa using ht

theorem execClusterGatingCommit_of_due {h : Bool} (hp : (cluster s cl).power = .gating false h) (ht : (cluster s cl).idleSince + 256 ≤ s.elapsed) :
    exec (.clusterGatingCommit cl) s =
      .next (send (.clusterPowerOff cl) (setCluster (taken (.clusterGatingCommit cl) s) cl { cluster s cl with power := .gating true h })) := by
  have kept : cluster (taken (.clusterGatingCommit cl) s) cl = cluster s cl := rfl
  show execClusterGatingCommit cl s = _
  unfold execClusterGatingCommit
  dsimp only
  rw [if_neg (Nat.not_le.mpr hcl), kept, hp]
  exact if_pos ht

theorem execClusterPowerOff_of_due (hp : (cluster s cl).power = .gating true false) (ht : (cluster s cl).idleSince + 512 ≤ s.elapsed) :
    exec (.clusterPowerOff cl) s = .next ((clusterCores cl).foldl (fun s m => setCore s m { core s m with image := none })
      (setCluster (taken (.clusterPowerOff cl) s) cl { cluster s cl with power := .off })) := by
  have kept : cluster (taken (.clusterPowerOff cl) s) cl = cluster s cl := rfl
  show execClusterPowerOff cl s = _
  unfold execClusterPowerOff
  dsimp only
  rw [if_neg (Nat.not_le.mpr hcl), kept, hp]
  exact if_pos ht

theorem exec_wake_cluster (s : State) : exec (.wake true cl) s = .next (wakeCluster cl (taken (.wake true cl) s)) := by
  show execWake true cl s = _
  unfold execWake
  exact (if_pos rfl).trans (if_neg (Nat.not_le.mpr hcl))

theorem execPowerUpDone_of_cluster (hp : (cluster s cl).power = .waking) :
    exec (.powerUpDone true cl) s = .next (setCluster { taken (.powerUpDone true cl) s with
      istore := s.istore.filter fun p => p.1 / 2 ^ 22 != cl } cl { cluster s cl with power := .on, idleSince := s.elapsed }) := by
  have kept : cluster (taken (.powerUpDone true cl) s) cl = cluster s cl := rfl
  show execPowerUpDone true cl s = _
  unfold execPowerUpDone
  dsimp only
  rw [if_pos rfl, if_neg (Nat.not_le.mpr hcl), kept, hp]
  rfl

end

/-- What a wake does to a cluster whose power is known. -/
theorem wakeCluster_of_power {s : State} {cl : Nat} {p q : Power} {up : Bool} (hp : (cluster s cl).power = p) (hw : p.wake = (q, up)) :
    wakeCluster cl s = if up then send (.powerUpDone true cl) (setCluster s cl { cluster s cl with power := q }) else
      setCluster s cl { cluster s cl with power := q } := by
  unfold wakeCluster
  dsimp only
  rw [hp, hw]

/-! ## Bring-up, heat and the reset controls (R120, R378, R385, R390) -/

theorem execPowerGood_of_off (hp : s.mgmt.poweredUp = false) :
    exec .powerGood s = (let t : State := { taken .powerGood s with
         mgmt := { s.mgmt with poweredUp := true, cxlCap := [(0, Config.cxlCapacity 0), (1, Config.cxlCapacity 1)] } }
       let m := ofBytes (sm3 (toBytes 32 0 ++ sm3 Config.firmwareImage))
       .next (if firmwareAccepted s = true then send .functionReady (startFirmware ([0, 1, 2, 3].foldl (fun s d => selfTest (resetDie d false s) d)
         { t with nolorn := { s.nolorn with meas := tset s.nolorn.meas 0 (BitVec.ofNat 256 m) } })) else t)) := by
  have down : ¬(taken .powerGood s).mgmt.poweredUp = true := fun h => absurd (h.symm.trans hp) (by decide)
  have accepts : ∀ m : Mgmt, firmwareAccepted { taken .powerGood s with mgmt := m } = firmwareAccepted s := fun _ => rfl
  show execPowerGood s = _
  unfold execPowerGood
  refine (if_neg down).trans ?_
  dsimp only
  rw [accepts, firmwareDigest]
  cases firmwareAccepted s <;> rfl

theorem func_setFunc (s : State) (f g : Nat) (x : Func) : func (setFunc s f x) g = if f = g then x else func s g := by
  exact tget_tset ..

/-- The functions of a list become ready, and the others stay as they were. -/
theorem func_foldl_ready (l : List Nat) (s : State) (f : Nat) :
    func (l.foldl (fun s f => setFunc s f { func s f with ready := true }) s) f = if f ∈ l then { func s f with ready := true } else func s f := by
  induction l generalizing s with
  | nil => rfl
  | cons g l ih =>
    rw [List.foldl_cons, ih, func_setFunc]
    by_cases hg : g = f
    · subst hg
      simp
    · simp [hg, Ne.symm hg]

theorem execFunctionReady_ready (s : State) : ∃ t, exec .functionReady s = .next t ∧ ∀ f, f < 64 → func t f = { func s f with ready := true } :=
  ⟨_, rfl, fun f hf => (func_foldl_ready _ _ f).trans (if_pos (List.mem_range.mpr hf))⟩

section
variable {d : Nat} (hd : d < 4)
include hd

theorem execThermalWarning_eq (s : State) :
    exec (.thermalWarning d) s = .next ([0, 1].foldl (fun s f => setFunc s f { func s f with msix0 := (func s f).msix0 + 1 })
      (setDie { taken (.thermalWarning d) s with mgmt := { s.mgmt with thermal := true } } d { die s d with thermal := true })) :=
  if_neg (Nat.not_le.mpr hd)

theorem execThermalClear_eq (s : State) :
    exec (.thermalClear d) s = (let t := setDie (taken (.thermalClear d) s) d { die s d with thermal := false }
      .next { t with mgmt := { s.mgmt with thermal := [0, 1, 2, 3].any fun e => (die t e).thermal } }) :=
  if_neg (Nat.not_le.mpr hd)

theorem execThermalTrip_eq (s : State) :
    exec (.thermalTrip d) s = .next (resetModule (mgmtLog (record Config.thermalCause.toNat false 0 0 0 (1024 * d) 0xFFFF (elapsedOn s d) 0)
      (taken (.thermalTrip d) s))) :=
  if_neg (Nat.not_le.mpr hd)

theorem execDieResetHold_of_owner {fn : Nat} (ho : owns s fn 1 = true) :
    exec (.dieResetHold fn d true) s = .next (resetDie d true
      { taken (.dieResetHold fn d true) s with mgmt := { s.mgmt with dieReset := setBits s.mgmt.dieReset d d 1 } }) := by
  have owner : owns (taken (.dieResetHold fn d true) s) fn 1 = true := ho
  show execDieResetHold fn d true s = _
  unfold execDieResetHold
  refine (if_neg (Nat.not_le.mpr hd)).trans ((if_neg ?_).trans rfl)
  rw [owner]
  decide

theorem execDieResetHold_of_other {fn : Nat} {h : Bool} (ho : owns s fn 1 = false) :
    exec (.dieResetHold fn d h) s = .next (taken (.dieResetHold fn d h) s) := by
  have other : owns (taken (.dieResetHold fn d h) s) fn 1 = false := ho
  show execDieResetHold fn d h s = _
  unfold execDieResetHold
  refine (if_neg (Nat.not_le.mpr hd)).trans (if_pos ?_)
  rw [other]
  decide

end

theorem execModuleReset_eq (s : State) (fn : Nat) :
    exec (.moduleReset fn) s = .next (if owns s fn 1 then resetModule (taken (.moduleReset fn) s) else taken (.moduleReset fn) s) := rfl

theorem execClockStop_eq (s : State) (fn : Nat) (h : Bool) :
    exec (.clockStop fn h) s = .next (if owns s fn 2 then { taken (.clockStop fn h) s with mgmt := { s.mgmt with clockStopped := h } }
      else taken (.clockStop fn h) s) := rfl

end

/-- Settles O52: each step takes the branch of its event that its premises select. -/
theorem powerSteps : Obligations.PowerSteps := by
  intro s c cl d fn h hc hcl hd k g pow cpow
  refine ⟨execCoreGatingStart_of_idle hc, execCoreGatingCommit_of_due hc, execCorePowerOff_of_due hc, execClusterGatingStart_of_idle hcl,
    execClusterGatingCommit_of_due hcl, execClusterPowerOff_of_due hcl,
    fun hp => ?_, fun hp => ?_, fun hp => ?_, execPowerUpDone_of_cluster hcl, execPowerUpDone_of_core hc, execPowerGood_of_off,
    execFunctionReady_ready s, execThermalWarning_eq hd s, execThermalClear_eq hd s, execThermalTrip_eq hd s,
    execDieResetHold_of_owner hd, fun ho => ?_, fun ho => ?_, fun ho => ⟨execDieResetHold_of_other hd ho, ?_⟩, fun ho => ?_⟩
  · exact (exec_wake_cluster hcl s).trans (congrArg Host.Outcome.next (wakeCluster_of_power (s := taken (.wake true cl) s) hp rfl))
  · exact (exec_wake_cluster hcl s).trans (congrArg Host.Outcome.next (wakeCluster_of_power (s := taken (.wake true cl) s) hp rfl))
  · exact (exec_wake_cluster hcl s).trans (congrArg Host.Outcome.next (wakeCluster_of_power (s := taken (.wake true cl) s) hp rfl))
  · rw [execModuleReset_eq, ho]
    rfl
  · rw [execClockStop_eq, ho]
    rfl
  · rw [execModuleReset_eq, ho]
    rfl
  · rw [execClockStop_eq, ho]
    rfl

/-! ## Semaphores, function resets and the windows (R100, R101, R122, R376 to R380) -/

section
variable {s : State} {fn : Nat}

section
variable {i : Nat} (hi : i < 4)
include hi

theorem exec_semAcquire (s : State) (fn : Nat) :
    exec (.semAcquire fn i) s = .next (if fn < 2 ∧ (sem s i).owner = 0 then setSem (taken (.semAcquire fn i) s) i { sem s i with owner := fn + 1 }
      else taken (.semAcquire fn i) s) := if_neg (Nat.not_le.mpr hi)

theorem exec_semRelease (s : State) (fn : Nat) :
    exec (.semRelease fn i) s = .next (if owns s fn i then setSem (taken (.semRelease fn i) s) i { owner := 0, forced := false }
      else taken (.semRelease fn i) s) := if_neg (Nat.not_le.mpr hi)

end

theorem exec_functionLevelReset (hf : fn < 64) (s : State) :
    exec (.functionLevelReset fn) s = .next ([0, 1, 2, 3].foldl (fun s i => if owns s fn i then setSem s i { owner := 0, forced := true } else s)
      ([0, 1, 2, 3].foldl (clearFunction fn) (taken (.functionLevelReset fn) s))) := if_neg (Nat.not_le.mpr hf)

theorem exec_numvfsWrite (hf : fn < 2) (n : Nat) (en : Bool) (s : State) :
    exec (.numvfsWrite fn n en) s = .next (if 62 < n + (func s (1 - fn)).numVfs then taken (.numvfsWrite fn n en) s
      else setFunc (taken (.numvfsWrite fn n en) s) fn { func s fn with numVfs := n, vfEnable := en }) := if_neg (Nat.not_le.mpr hf)

theorem execIstoreHostWrite_of_turn {c addr : Nat} {w : BitVec 32} (hc : c < 4096) (hf : fn < 2) (ha : addr % 4 = 0) (hr : addr < 65536)
    (hp : (core s c).power = .on) (ht : s.flight.find? (storeTo c) = some (.istoreHostWrite fn c addr w)) :
    exec (.istoreHostWrite fn c addr w) s = .next (if (core s c).tlim ≤ addr then taken (.istoreHostWrite fn c addr w) s
      else writeStore c addr w (taken (.istoreHostWrite fn c addr w) s)) := by
  have legal : ¬(4096 ≤ c ∨ 2 ≤ fn ∨ addr % 4 ≠ 0 ∨ 65536 ≤ addr) := by omega
  show execIstoreHostWrite fn c addr w s = _
  unfold execIstoreHostWrite
  refine (if_neg legal).trans ((if_pos ?_).trans rfl)
  rw [powered, hp, ht]
  exact beq_self_eq_true _

theorem exec_capgenWrite (hf : fn < 2) (u : BitVec 256) (s : State) :
    exec (.capgenWrite fn u) s = (if !isLpddr (bits u.toNat 49 0) ∨ bits u.toNat 49 0 % 16 ≠ 0 then .next (countDrop fn (taken (.capgenWrite fn u) s))
      else .next (homeWriteTagged (taken (.capgenWrite fn u) s) (bits u.toNat 49 0)
        (BitVec.ofNat 128 (coreCap (bits u.toNat 75 64) (bitAt u.toNat 80) (bits u.toNat 91 88))) true)) := if_neg (Nat.not_le.mpr hf)

theorem exec_bqcfgWrite {link : Nat} (hl : link < 28) (u : BitVec 256) (s : State) :
    exec (.bqcfgWrite fn link u) s = .next (if 2 ≤ fn ∨ !(tget s.mgmt.bq link {}).open_.isEmpty ∨ (taken (.bqcfgWrite fn link u) s).flight.any (noticeOf link)
      then taken (.bqcfgWrite fn link u) s
      else { taken (.bqcfgWrite fn link u) s with mgmt := { s.mgmt with
        bq := tset s.mgmt.bq link { bs := bits u.toNat 2 0, p := bits u.toNat 31 16, base := bits u.toNat 95 64 } } }) := if_neg (Nat.not_le.mpr hl)

/-- An event that a test does not hold of may leave without the test's noticing. -/
theorem any_flight_taken {f : Event → Bool} {e : Event} (h : f e = false) (s : State) : (taken e s).flight.any f = s.flight.any f := by
  rw [Bool.eq_iff_iff, List.any_eq_true, List.any_eq_true]
  constructor
  · rintro ⟨x, hx, hfx⟩
    exact ⟨x, List.mem_of_mem_erase hx, hfx⟩
  · rintro ⟨x, hx, hfx⟩
    have other : x ≠ e := fun he => absurd ((he ▸ hfx).symm.trans h) (by decide)
    exact ⟨x, (List.mem_erase_of_ne other).mpr hx, hfx⟩

theorem execMailboxWrite_eq (s : State) (fn off : Nat) (b : List Byte) :
    exec (.mailboxWrite fn off b) s = .next (if owns s fn 0 ∧ off + b.length ≤ 4096 then
      { taken (.mailboxWrite fn off b) s with sram := memPut s.sram (0x3F000 + off) b } else taken (.mailboxWrite fn off b) s) := rfl

theorem execFwupdWrite_eq (s : State) (fn : Nat) (v : BitVec 64) :
    exec (.fwupdWrite fn v) s = .next (if owns s fn 3 ∧ s.nolorn.fuse ≠ 7 then
      { taken (.fwupdWrite fn v) s with mgmt := { s.mgmt with fwupd := v.toNat } } else taken (.fwupdWrite fn v) s) := rfl

theorem execNmboxDoorbell_of_owner (ho : owns s fn 0 = true) :
    exec (.nmboxDoorbell fn 1) s =
      if (residentOf (core s nolornCore)).isNone || !inboxRoom s nolornCore (residentSide s nolornCore) then
        .next (send (.nmboxDoorbell (64 + fn % 64) 1) (taken (.nmboxDoorbell fn 1) s))
      else .next (notify nolornCore (residentSide s nolornCore) (.msg 0 0) (taken (.nmboxDoorbell fn 1) s)) := by
  have owner : owns (taken (.nmboxDoorbell fn 1) s) fn 0 = true := ho
  show execNmboxDoorbell fn 1 s = _
  unfold execNmboxDoorbell
  refine (if_neg ?_).trans rfl
  rw [owner]
  simp

theorem execNmboxDoorbell_of_other {w : BitVec 32} (ho : owns s fn 0 = false) (hf : fn < 64) :
    exec (.nmboxDoorbell fn w) s = .next (taken (.nmboxDoorbell fn w) s) := by
  have other : owns (taken (.nmboxDoorbell fn w) s) fn 0 = false := ho
  show execNmboxDoorbell fn w s = _
  unfold execNmboxDoorbell
  refine if_pos (.inl ?_)
  rw [other, decide_eq_false (Nat.not_le.mpr hf)]
  exact ⟨rfl, rfl⟩

/-- A register of a function's own window (R375, R376). -/
theorem exec_registerWrite_of_window {off : Nat} {v : BitVec 64} (hf : fn < 64) (ho : off < 0x100000) (s : State) :
    exec (.registerWrite fn off v) s = .next (writeFunction fn off v (taken (.registerWrite fn off v) s)) :=
  (if_neg (Nat.not_le.mpr hf)).trans (if_neg fun h => absurd h.1 (Nat.not_le.mpr ho))

theorem lt_two_of_owns {i : Nat} (h : owns s fn i = true) : fn < 2 := of_decide_eq_true (Bool.and_eq_true_iff.mp h).1

end

/-- Settles O53: each step takes the branch of its event that its premises select. -/
theorem hostSteps : Obligations.HostSteps := by
  intro s fn i n c addr off link en w v u b x q k e
  refine ⟨fun hi hf ho => ?_, fun hi ho => ?_, fun hi => ⟨fun ho => ?_, fun ho => ?_⟩, fun hf => exec_functionLevelReset hf s, fun hf hn => ?_, fun hf hn => ?_,
    fun hc hf ha hr hp ht => ⟨fun hl => ?_, fun hl => ?_⟩, fun hf => ⟨fun hm ha => ?_, fun ha => ?_⟩,
    fun hf hl => ⟨fun ho => ?_, fun hn => ?_, fun ho hn => ?_⟩, fun ho hb => ?_, fun ho hr hi => ?_, fun ho => ?_, fun ho hw => ?_,
    execNmboxDoorbell_of_other, fun ho hu => ?_, fun ho hu => ?_,
    fun hf => ⟨exec_registerWrite_of_window hf (by decide) s, exec_registerWrite_of_window hf (by decide) s⟩⟩
  · exact (exec_semAcquire hi s fn).trans (congrArg Host.Outcome.next (if_pos ⟨hf, ho⟩))
  · exact (exec_semAcquire hi s fn).trans (congrArg Host.Outcome.next (if_neg fun h => ho h.2))
  · exact (exec_semRelease hi s fn).trans (congrArg Host.Outcome.next (if_pos ho))
  · exact (exec_semRelease hi s fn).trans (congrArg Host.Outcome.next (if_neg (by rw [ho]; decide)))
  · exact (exec_numvfsWrite hf n en s).trans (congrArg Host.Outcome.next (if_neg (Nat.not_lt.mpr hn)))
  · exact (exec_numvfsWrite hf n en s).trans (congrArg Host.Outcome.next (if_pos hn))
  · exact (execIstoreHostWrite_of_turn hc hf ha hr hp ht).trans (congrArg Host.Outcome.next (if_neg (Nat.not_le.mpr hl)))
  · exact (execIstoreHostWrite_of_turn hc hf ha hr hp ht).trans (congrArg Host.Outcome.next (if_pos hl))
  · exact (exec_capgenWrite hf u s).trans (if_neg (by rw [hm, ha]; decide))
  · exact (exec_capgenWrite hf u s).trans (if_pos (.inr ha))
  · refine (exec_bqcfgWrite hl u s).trans (congrArg Host.Outcome.next (if_pos (.inr (.inl ?_))))
    rw [Bool.not_eq_true', List.isEmpty_eq_false_iff]
    exact ho
  · exact (exec_bqcfgWrite hl u s).trans (congrArg Host.Outcome.next (if_pos (.inr (.inr ((any_flight_taken rfl s).trans hn)))))
  · refine (exec_bqcfgWrite hl u s).trans (congrArg Host.Outcome.next (if_neg ?_))
    have closed : (tget s.mgmt.bq link {} : Bq).open_ = [] := ho
    rw [any_flight_taken rfl, hn, closed]
    simpa using hf
  · exact (execMailboxWrite_eq ..).trans (congrArg Host.Outcome.next (if_pos ⟨ho, hb⟩))
  · refine (execNmboxDoorbell_of_owner ho).trans (if_neg ?_)
    rw [hi, Option.isNone_eq_false_iff.mpr hr]
    decide
  · exact (execMailboxWrite_eq ..).trans (congrArg Host.Outcome.next (if_neg fun h => absurd (h.1.symm.trans ho) (by decide)))
  · refine (execNmboxDoorbell_of_owner ho).trans ((if_pos ?_).trans ?_)
    · rcases hw with hr | hi
      · rw [hr]
        rfl
      · rw [hi]
        exact Bool.or_true _
    · rw [Nat.mod_eq_of_lt (Nat.lt_of_lt_of_le (lt_two_of_owns ho) (by decide))]
  · exact (execFwupdWrite_eq ..).trans (congrArg Host.Outcome.next (if_pos ⟨ho, hu⟩))
  · exact (execFwupdWrite_eq ..).trans (congrArg Host.Outcome.next (if_neg fun h => h.2 hu))

/-! ## Errors, losses and retirement (R121, R215, R220, R318, R354, R355, R381 to R384) -/

section
variable {s : State} {c ix : Nat}

theorem exec_eccCorrected {cls : Nat} (h : cls < 4) (s : State) (ix : Nat) :
    exec (.eccCorrected cls ix) s = .next { taken (.eccCorrected cls ix) s with mgmt := { s.mgmt with
      cecnt := tset s.mgmt.cecnt (cls * 2 ^ 32 + ix) (s.elapsed / 2 ^ 30 * 2 ^ 32 + Nat.min (2 ^ 32 - 1) (errorCount s cls ix + 1)) } } :=
  if_neg (Nat.not_le.mpr h)

theorem exec_bankLineLoss {gb line : Nat} (hg : gb < 32768) (hl : line < 256) (s : State) :
    exec (.bankLineLoss gb line) s = .next (bankLoss gb line { taken (.bankLineLoss gb line) s with
      bankMem := memPut s.bankMem (bankPlace gb (128 * line)) (List.replicate 128 0) }) :=
  if_neg (not_or.mpr ⟨Nat.not_le.mpr hg, Nat.not_le.mpr hl⟩)

theorem exec_istoreWordLoss {addr : Nat} (hc : c ≤ 4208) (ha : addr % 4 = 0) (hr : addr < 65536) (s : State) :
    exec (.istoreWordLoss c addr) s = .next (lossRecord c false 1 addr { taken (.istoreWordLoss c addr) s with
      istore := memWrite s.istore (istoreAt c addr) 4 0 }) := by
  refine if_neg ?_
  rw [isCore_of_le hc, not_or, not_or]
  exact ⟨by decide, fun h => h ha, Nat.not_le.mpr hr⟩

theorem exec_homeLineLoss {addr kind : Nat} (h2 : 2 ≤ kind) (h4 : kind ≤ 4) (hp : physOk s addr = true) (key : Nat) :
    exec (.homeLineLoss addr kind key) s = (let y := homeWrite (taken (.homeLineLoss addr kind key) s) (addr / 128 * 128) (List.replicate 128 0)
      .next (if isCore (key / 2) then lossRecord (key / 2) (key % 2 == 1) kind (addr / 128 * 128) y
        else countLoss kind (mgmtLog (record 0x60 false 0 0 0 0 0xFFFF (elapsedOn y (homeDie y (addr / 128 * 128))) (lossVal kind (addr / 128 * 128))) y))) := by
  have legal : physOk (taken (.homeLineLoss addr kind key) s) addr = true := hp
  refine if_neg ?_
  rw [legal, not_or, not_or]
  exact ⟨Nat.not_lt.mpr h2, Nat.not_lt.mpr h4, by decide⟩

theorem exec_deviceStateLoss_register (hc : c ≤ 4208) (s : State) (u : Nat) :
    exec (.deviceStateLoss c 7 u) s = .next (lossRecord c (residentSide s c) 7 u (setCtxOf (taken (.deviceStateLoss c 7 u) s) c (residentSide s c)
      { ctxOf s c (residentSide s c) with regs := tdel (ctxOf s c (residentSide s c)).regs (u % 64) })) := by
  refine (if_neg ?_).trans rfl
  rw [isCore_of_le hc]
  decide

/-! ### Marks, and what is taken out of service -/

theorem exec_retirementMark_core (hc : c ≤ 4208) (h : overThreshold s 0 c = true) :
    exec (.retirementMark 0 c) s = .next (send (.resourceRetire 0 c) (setCore (taken (.retirementMark 0 c) s) c { core s c with marked := true })) := by
  have over_ : overThreshold (taken (.retirementMark 0 c) s) 0 c = true := h
  show execRetirementMark 0 c s = _
  unfold execRetirementMark
  refine (if_neg (by decide)).trans ((if_neg ?_).trans (if_pos (isCore_of_le hc)))
  rw [over_]
  decide

theorem exec_retirementMark_bank (hb : ix < 32768) (h : overThreshold s 1 ix = true) :
    exec (.retirementMark 1 ix) s = .next (send (.resourceRetire 1 ix) (setBank (taken (.retirementMark 1 ix) s) ix { bankAt s ix with marked := true })) := by
  have over_ : overThreshold (taken (.retirementMark 1 ix) s) 1 ix = true := h
  show execRetirementMark 1 ix s = _
  unfold execRetirementMark
  refine (if_neg (by decide)).trans ((if_neg ?_).trans (if_pos hb))
  rw [over_]
  decide

/-- Whether a bank's identifier may be taken out of service now. -/
def bankRetires (s : State) (ix : Nat) : Bool :=
  (((bankAt s ix).cond == .free && !isCommon s (ix / 512) (ix % 512)) || (bankAt s ix).cond == .out)

theorem exec_resourceRetire_bank (hb : ix < 32768) (hm : (bankAt s ix).marked = true) :
    exec (.resourceRetire 1 ix) s = if bankRetires s ix then .next (retireBank ix (taken (.resourceRetire 1 ix) s))
      else .next (send (.resourceRetire 1 ix) (taken (.resourceRetire 1 ix) s)) := by
  have marked : (bankAt (taken (.resourceRetire 1 ix) s) ix).marked = true := hm
  show execResourceRetire 1 ix s = _
  unfold execResourceRetire
  refine (if_neg (Nat.not_le.mpr hb)).trans ((if_neg ?_).trans rfl)
  rw [marked]
  decide

theorem exec_resourceRetire_core (hc : c ≤ 4208) (hm : (core s c).marked = true) (hr : residentOf (core s c) = none) (hs : (core s c).start = none)
    (hv : reservedCore s c = false) (ha : s.areas.any (fun p => p.2.1 == c) = false) :
    exec (.resourceRetire 0 c) s = .next (retireCore c (taken (.resourceRetire 0 c) s)) := by
  have kept : core (taken (.resourceRetire 0 c) s) c = core s c := rfl
  have free : reservedCore (taken (.resourceRetire 0 c) s) c = false := hv
  have unsaved : ((taken (.resourceRetire 0 c) s).areas.any fun p => p.2.1 == c) = false := ha
  show execResourceRetire 0 c s = _
  unfold execResourceRetire
  dsimp only
  rw [isCore_of_le hc, if_neg (by decide), kept, hm, if_neg (by decide), hr, hs, free, unsaved]
  rfl

theorem exec_channelRetire {d : Nat} (hd : d < 4) (hx : ix < 48) (hm : (die s d).markedCh.contains ix = true) (hr : (die s d).retiredCh.contains ix = false)
    (hf : 16 * ((die s d).retiredCh.length + 1) ≤ 48 - ((die s d).retiredCh.length + 1)) :
    exec (.channelRetire d ix) s = .next (replaceChannel d ix (logRetirement 2 (48 * d + ix)
      ((unreadable (taken (.channelRetire d ix) s) d ix).foldl loseLine (taken (.channelRetire d ix) s)))) := by
  have kept : die (taken (.channelRetire d ix) s) d = die s d := rfl
  have fits : channelFits (die s d) ix = true := by
    rw [channelFits, hr, decide_eq_true hf]
    rfl
  show execChannelRetire d ix s = _
  unfold execChannelRetire
  refine (if_neg (not_or.mpr ⟨Nat.not_le.mpr hd, Nat.not_le.mpr hx⟩)).trans (congrArg Host.Outcome.next (if_pos ?_))
  rw [kept, hm, fits]
  rfl

theorem replaceChannel_eq (d ch : Nat) (s : State) :
    replaceChannel d ch s =
      (let n := (die s d).retiredCh.length + 2
       let t := setDie s d { die s d with retiredCh := (die s d).retiredCh ++ [ch], markedCh := sortedDel (die s d).markedCh ch }
       if 48 - n < 16 * n then setReplace t else t) := by
  unfold replaceChannel Die.noSpare
  dsimp only
  rw [die_setDie_same, List.length_append]
  exact if_congr decide_eq_true_iff rfl rfl

/-! ### Links, CXL and routing -/

theorem exec_laneSpareSwap {l lane : Nat} (hl : l < 16) (hn : lane < 8) (hs : (link s l).spare = true) :
    exec (.laneSpareSwap l lane) s = .next (send (.laneRetrainDone l) (setReplace (logRetirement 3 (16 * l + lane)
      (setLink (taken (.laneSpareSwap l lane) s) l { link s l with spare := false, retraining := true })))) := by
  have spare : (link (taken (.laneSpareSwap l lane) s) l).spare = true := hs
  show execLaneSpareSwap l lane s = _
  unfold execLaneSpareSwap
  refine (if_neg (not_or.mpr ⟨Nat.not_le.mpr hl, Nat.not_le.mpr hn⟩)).trans ((if_neg ?_).trans rfl)
  rw [spare]
  decide

theorem exec_laneLost {l lane : Nat} (hl : l < 16) (hn : lane < 8) (hs : (link s l).spare = false) :
    exec (.laneLost l lane) s = .next (logRetirement 3 (16 * l + lane) (setLink (taken (.laneLost l lane) s) l { link s l with lanes := 7 })) := by
  have spent : (link (taken (.laneLost l lane) s) l).spare = false := hs
  show execLaneLost l lane s = _
  unfold execLaneLost
  refine (if_neg (not_or.mpr ⟨Nat.not_le.mpr hl, Nat.not_le.mpr hn⟩)).trans ((if_neg ?_).trans rfl)
  rw [spent]
  decide

theorem exec_laneRetrainDone {l : Nat} (hl : l < 16) (s : State) :
    exec (.laneRetrainDone l) s = .next (setLink (taken (.laneRetrainDone l) s) l { link s l with retraining := false }) := if_neg (Nat.not_le.mpr hl)

theorem exec_cxlLinkDown {port : Nat} (hp : port < 2) (s : State) :
    exec (.cxlLinkDown port) s = .next { taken (.cxlLinkDown port) s with mgmt := { s.mgmt with cxlDown := sortedAdd s.mgmt.cxlDown port } } :=
  if_neg (Nat.not_le.mpr hp)

theorem exec_cxlLinkRetrain {port : Nat} (hp : port < 2) (s : State) :
    exec (.cxlLinkRetrain port) s = .next { taken (.cxlLinkRetrain port) s with mgmt := { s.mgmt with cxlDown := sortedDel s.mgmt.cxlDown port } } :=
  if_neg (Nat.not_le.mpr hp)

theorem exec_twoPhaseRoutingWindow {d : Nat} (hd : d < 4) (ns : List Nat) (s : State) :
    exec (.twoPhaseRoutingWindow d ns) s = .next (setDie (taken (.twoPhaseRoutingWindow d ns) s) d { die s d with
      twoPhase := (die s d).netEn && ns.any fun n => decide (ns.sum + (die s d).netThr * ns.length ≤ n * ns.length ∧ ns.sum < n * ns.length) }) := by
  have both : ∀ n, decide ((decide (ns.sum + (die s d).netThr * ns.length ≤ n * ns.length) && decide (ns.sum < n * ns.length)) = true) =
      decide (ns.sum + (die s d).netThr * ns.length ≤ n * ns.length ∧ ns.sum < n * ns.length) := by
    intro n
    rw [Bool.decide_and, Bool.decide_eq_true]
  exact (if_neg (Nat.not_le.mpr hd)).trans (congrArg (fun f => Host.Outcome.next (setDie (taken (.twoPhaseRoutingWindow d ns) s) d
    { die s d with twoPhase := (die s d).netEn && ns.any f })) (funext both))

end

/-- Settles O54: each step takes the branch of its event that its premises select. -/
theorem errorSteps : Obligations.ErrorSteps := by
  intro s c d cls ix gb line addr kind l lane port u ns hc hd n b k x k' lk
  refine ⟨fun h => exec_eccCorrected h s ix, fun hg hl => exec_bankLineLoss hg hl s, fun ha hr => exec_istoreWordLoss hc ha hr s,
    fun h2 h4 hp key sup => And.intro (fun hk => ?_) (fun hk => ?_), exec_deviceStateLoss_register hc s u, exec_retirementMark_core hc,
    fun h hg => exec_retirementMark_bank hg h, fun hb hm ho => ?_, fun hb hm ho => ?_, fun hx hm hr hf => ?_, exec_resourceRetire_core hc,
    fun hl hn => ⟨exec_laneSpareSwap hl hn, exec_laneLost hl hn, exec_laneRetrainDone hl s⟩, fun hp => ⟨exec_cxlLinkDown hp s, exec_cxlLinkRetrain hp s⟩,
    exec_twoPhaseRoutingWindow hd ns s⟩
  · have half : key / 2 = c := by subst hk; split <;> omega
    have side : (key % 2 == 1) = sup := by
      subst hk
      cases sup <;> simp
    refine (exec_homeLineLoss h2 h4 hp key).trans (congrArg Host.Outcome.next ?_)
    rw [half, side]
    exact if_pos (isCore_of_le hc)
  · refine (exec_homeLineLoss h2 h4 hp key).trans (congrArg Host.Outcome.next (if_neg ?_))
    intro h
    have le : key / 2 ≤ 4208 := of_decide_eq_true h
    omega
  · refine (exec_resourceRetire_bank hb hm).trans (if_pos ?_)
    rw [bankRetires]
    rcases ho with ho | ⟨ho, hn⟩
    · rw [show (bankAt s ix).cond = .out from ho]
      rfl
    · rw [show (bankAt s ix).cond = .free from ho, hn]
      rfl
  · refine (exec_resourceRetire_bank hb hm).trans (if_neg ?_)
    rw [bankRetires]
    rcases ho with ho | ⟨ho, hn⟩
    · rw [show (bankAt s ix).cond = .attached from ho]
      exact Bool.false_ne_true
    · rw [show (bankAt s ix).cond = .free from ho, hn]
      decide
  · exact (exec_channelRetire hd hx hm hr hf).trans (congrArg Host.Outcome.next (replaceChannel_eq ..))

/-! ## Two equal writes of %dbgopen under way (R387) -/

/-- The supervisor of the Nolorn core, its LCS ready to be unlocked, with one write of 1 to %dbgopen under way twice. -/
def twiceOpened : State :=
  { cores := [(nolornCore, { supOn := true })], cur := nolornCore, nolorn := { fuse := 3, wiped := true, ext := true }
    flight := [.dbgopenWrite 1, .dbgopenWrite 1] }

/-- The same state once %dbgopen has been written, with the events that are then under way. -/
def debugOpened (l : List Event) : State := { twiceOpened with flight := l, nolorn := { twiceOpened.nolorn with unlk := true } }

theorem taken_twiceOpened : taken (.dbgopenWrite 1) twiceOpened = { twiceOpened with flight := [.dbgopenWrite 1] } := by
  rw [taken, show twiceOpened.flight = [.dbgopenWrite 1, .dbgopenWrite 1] from rfl, List.erase_cons_head]

/-- The row that writes the register takes its event, and so does the rule that it shares with the other writes. -/
theorem exec_dbgopenWrite_twiceOpened : exec (.dbgopenWrite 1) twiceOpened = .next (debugOpened []) := by
  have again : taken (.dbgopenWrite 1) { twiceOpened with flight := [.dbgopenWrite 1] } = { twiceOpened with flight := [] } := by
    rw [taken, List.erase_cons_head]
  have written : specialWrite 0x310 (1 : Word).toNat { twiceOpened with flight := [] } = some (debugOpened []) := rfl
  show onNolorn (taken (.dbgopenWrite 1) twiceOpened) (fun s => writeEvent (.dbgopenWrite 1) 0x310 1 s) = _
  rw [taken_twiceOpened]
  show writeEvent (.dbgopenWrite 1) 0x310 1 { twiceOpened with flight := [.dbgopenWrite 1] } = _
  unfold writeEvent
  rw [again]
  dsimp only
  rw [written]
  rfl

/-- Refutes O55: where two equal writes of %dbgopen are under way, the step of one takes both, as its row and the rule of a write of a special
register each take the event; the state as stated still has the other. -/
theorem not_debugSteps : ¬ Obligations.DebugSteps := by
  intro h
  obtain ⟨-, -, -, -, -, -, -, -, opens, -⟩ := h twiceOpened 0 0 [] 0 1 0 0 [] (debugOpened [.dbgopenWrite 1]) 0 0 []
  have written : specialWrite 0x310 (1 : Word).toNat (taken (.dbgopenWrite 1) twiceOpened) = some (debugOpened [.dbgopenWrite 1]) := by
    rw [taken_twiceOpened]
    rfl
  have stated : exec (.dbgopenWrite 1) twiceOpened = .next (debugOpened [.dbgopenWrite 1]) := (opens rfl rfl).1 written
  have same := Host.Outcome.next.inj (exec_dbgopenWrite_twiceOpened.symm.trans stated)
  exact absurd (congrArg (·.flight.length) same) (by decide)

end Sys2Proof.Machine
end

section
/-! SUPPORT. Every step keeps the memories canonical (O60): what a state's lemmas say, and the functions as far as the copy engine. -/

namespace Sys2Proof.Machine

open Sys2Proof.Claims

/-! ## Every operation keeps the memories canonical

`Canonical s` says that the memories of `s` are in their canonical form. For every function of the model that answers a state there is one lemma,
`Canonical.f`, that says that `f` keeps them so; its proof follows the branches of `f` and cites the lemmas of what `f` calls. Only the few
functions that write a memory turn to the laws of `memPut` and of filtering. -/

/-- The memories of a state are in their canonical form. -/
def Canonical (s : State) : Prop := memoriesWf s = true

/-- Where an outcome is a next state, that is canonical. -/
def CanonicalOut (o : Out) : Prop := ∀ t, o = .next t → Canonical t

/-- Where there is a state, it is canonical. -/
def CanonicalOpt (o : Option State) : Prop := ∀ t, o = some t → Canonical t

/-- Where a vector group has run, the state that it leaves is canonical. -/
def CanonicalGroup (g : Group) : Prop := ∀ t n, g = .next t n → Canonical t

/-- Where a ring stream has been located, the state that it leaves is canonical. -/
def CanonicalLocated (r : Located) : Prop := ∀ l t s, r = .ok l t s → Canonical s

/-! The state that a result carries, whichever way it came out. -/

def Xlate.state : Xlate → State
  | .ok _ s => s
  | .trap _ _ s => s
  | .wait s => s

def PartRes.state : PartRes → State
  | .ok _ _ s => s
  | .page _ s => s
  | .bad _ s => s

def Took.state : Took → State
  | .wait _ s => s
  | .fill _ s => s
  | .done s => s

def Prep.state : Prep → State
  | .done t => t
  | .run _ t => t

def ActRes.state : ActRes → State
  | .done _ s => s
  | .wait _ s => s

def TxRes.state : TxRes → State
  | .commit _ s => s
  | .refuse _ _ s => s
  | .wait _ _ s => s

section
variable {s t : State}

/-- A state with the memories of a canonical one is canonical. -/
theorem Canonical.same (h : Canonical s) (hm : t.mem = s.mem) (hb : t.bankMem = s.bankMem) (hi : t.istore = s.istore) (hs : t.sram = s.sram) :
    Canonical t := (memoriesWf_congr hm hb hi hs).trans h

theorem Canonical.of_eq {α : Type} {π : α → State} {r r' : α} (h : Canonical (π r)) (e : r = r') : Canonical (π r') := e ▸ h

theorem Canonical.ite {p : Prop} [Decidable p] (hs : Canonical s) (ht : Canonical t) : Canonical (if p then s else t) := by
  split
  · exact hs
  · exact ht

theorem CanonicalOut.ite {p : Prop} [Decidable p] {o q : Out} (ho : CanonicalOut o) (hq : CanonicalOut q) : CanonicalOut (if p then o else q) := by
  split
  · exact ho
  · exact hq

theorem CanonicalOpt.ite {p : Prop} [Decidable p] {o q : Option State} (ho : CanonicalOpt o) (hq : CanonicalOpt q) :
    CanonicalOpt (if p then o else q) := by
  split
  · exact ho
  · exact hq

theorem CanonicalLocated.ite {p : Prop} [Decidable p] {o q : Located} (ho : CanonicalLocated o) (hq : CanonicalLocated q) :
    CanonicalLocated (if p then o else q) := by
  split
  · exact ho
  · exact hq

theorem CanonicalGroup.ite {p : Prop} [Decidable p] {o q : Group} (ho : CanonicalGroup o) (hq : CanonicalGroup q) :
    CanonicalGroup (if p then o else q) := by
  split
  · exact ho
  · exact hq

theorem Canonical.next (h : Canonical s) : CanonicalOut (.next s) := fun _ e => Host.Outcome.next.inj e ▸ h

theorem Canonical.some (h : Canonical s) : CanonicalOpt (.some s) := fun _ e => Option.some.inj e ▸ h

end

theorem Canonical.nextGroup {s : State} {n : Cycles} (h : Canonical s) : CanonicalGroup (.next s n) := fun _ _ e => (Group.next.inj e).1 ▸ h

theorem Canonical.located {l : List ELoc} {x : Stream} {s : State} (h : Canonical s) : CanonicalLocated (.ok l x s) :=
  fun _ _ _ e => (Located.ok.inj e).2.2 ▸ h

theorem CanonicalLocated.bad {n : Nat} : CanonicalLocated (.bad n) := fun _ _ _ e => nomatch e

theorem CanonicalLocated.wait : CanonicalLocated .wait := fun _ _ _ e => nomatch e

theorem Canonical.getD {o : Option State} {s : State} (ho : CanonicalOpt o) (h : Canonical s) : Canonical (o.getD s) := by
  cases o with
  | none => exact h
  | some t => exact ho t rfl

theorem CanonicalOpt.bind {α : Type} {o : Option α} {f : α → Option State} (hf : ∀ a, CanonicalOpt (f a)) : CanonicalOpt (o.bind f) := by
  cases o with
  | none => exact nofun
  | some a => exact hf a

theorem Canonical.foldl {α : Type} {f : State → α → State} {l : List α} {s : State} (h : Canonical s)
    (hf : ∀ t a, Canonical t → Canonical (f t a)) : Canonical (l.foldl f s) := by
  induction l generalizing s with
  | nil => exact h
  | cons a l ih => exact ih (hf s a h)

theorem Canonical.foldl_fst {α β : Type} {f : State × β → α → State × β} {l : List α} {p : State × β} (h : Canonical p.1)
    (hf : ∀ q a, Canonical q.1 → Canonical (f q a).1) : Canonical (l.foldl f p).1 := by
  induction l generalizing p with
  | nil => exact h
  | cons a l ih => exact ih (hf p a h)

theorem Canonical.filterIstore {s : State} (h : Canonical s) (f : Host.Cell → Bool) : Canonical { s with istore := s.istore.filter f } := by
  obtain ⟨hm, hb, hi, hs⟩ := (memoriesWf_iff s).mp h
  exact (memoriesWf_iff _).mpr ⟨hm, hb, filter_wf f _ hi, hs⟩

theorem Canonical.writeIstore {s : State} {a n v : Nat} (h : Canonical s) : Canonical { s with istore := memWrite s.istore a n v } := by
  obtain ⟨hm, hb, hi, hs⟩ := (memoriesWf_iff s).mp h
  exact (memoriesWf_iff _).mpr ⟨hm, hb, memWrite_wf _ _ _ _ hi, hs⟩

/-! ### Contexts, module memory, logs and traps -/

protected theorem Canonical.setCore {s c k} (h : Canonical s) : Canonical (setCore s c k) :=
  h.same rfl rfl rfl rfl

protected theorem Canonical.setCtxOf {s c sup x} (h : Canonical s) : Canonical (setCtxOf s c sup x) :=
  h.setCore

protected theorem Canonical.setCx {s x} (h : Canonical s) : Canonical (setCx s x) :=
  h.setCtxOf

protected theorem Canonical.putReg {d r s} (h : Canonical s) : Canonical (putReg d r s) :=
  h.setCx

protected theorem Canonical.putWord {d v s} (h : Canonical s) : Canonical (putWord d v s) :=
  h.putReg

protected theorem Canonical.putNat {d v s} (h : Canonical s) : Canonical (putNat d v s) :=
  h.putWord

protected theorem Canonical.setDie {s d x} (h : Canonical s) : Canonical (setDie s d x) :=
  h.same rfl rfl rfl rfl

protected theorem Canonical.setFunc {s f x} (h : Canonical s) : Canonical (setFunc s f x) :=
  h.same rfl rfl rfl rfl

protected theorem Canonical.send {e s} (h : Canonical s) : Canonical (send e s) :=
  h.same rfl rfl rfl rfl

protected theorem Canonical.taken {e s} (h : Canonical s) : Canonical (taken e s) :=
  h.same rfl rfl rfl rfl

protected theorem Canonical.spendFor {c n q v m s} (h : Canonical s) : Canonical (spendFor c n q v m s) :=
  .setCore (h.same rfl rfl rfl rfl)

protected theorem Canonical.spendOn {c q v m s} (h : Canonical s) : Canonical (spendOn c q v m s) :=
  h.spendFor

protected theorem Canonical.elapse {s} (h : Canonical s) : Canonical (elapse s) :=
  .same (h.same rfl rfl rfl rfl) rfl rfl rfl rfl

protected theorem Canonical.spend {cause s} (h : Canonical s) : Canonical (spend cause s) :=
  h.spendOn

protected theorem Canonical.settle {c s} (h : Canonical s) : Canonical (settle c s) :=
  .ite h h.setCore

protected theorem Canonical.markIssued {s} (h : Canonical s) : Canonical (markIssued s) :=
  h.setCore

protected theorem Canonical.finish {s} (h : Canonical s) : Canonical (finish s) :=
  h.spend.setCx.markIssued

protected theorem Canonical.finishWith {f s} (h : Canonical s) (hf : ∀ t, Canonical t → Canonical (f t)) : Canonical (finishWith f s) :=
  .markIssued (.setCx (hf _ h.spend))

protected theorem Canonical.jump {target s} (h : Canonical s) : Canonical (jump target s) :=
  h.spend.setCx.markIssued.setCore

protected theorem Canonical.wait {cause s} (h : Canonical s) : Canonical (wait cause s) :=
  h.spend

protected theorem Canonical.waitIn {cause w s} (h : Canonical s) : Canonical (waitIn cause w s) :=
  h.setCx.wait

protected theorem Canonical.pendReg {d cause s} (h : Canonical s) : Canonical (pendReg d cause s) :=
  .ite h h.setCx

protected theorem Canonical.learnAll {n v l s} (h : Canonical s) : Canonical (learnAll n v l s) := by
  induction l generalizing s with
  | nil => exact h
  | cons f t ih => exact ih h.setCore

protected theorem Canonical.deliver {c sup n v s} (h : Canonical s) : Canonical (deliver c sup n v s) := by
  unfold deliver
  extract_lets
  split
  · exact h.setCtxOf.learnAll
  · exact h.setCtxOf

protected theorem Canonical.onSaved {a f s} (h : Canonical s) (hf : ∀ t, Canonical t → Canonical (f t)) : Canonical (onSaved a f s) := by
  unfold onSaved
  split
  · exact h
  · exact .same (hf _ h.setCtxOf) rfl rfl rfl rfl

protected theorem Canonical.onHome {home f s} (h : Canonical s) (hf : ∀ t, Canonical t → Canonical (f t)) : Canonical (onHome home f s) :=
  .ite (hf _ h) (h.onSaved (fun _ h => hf _ h))

protected theorem Canonical.homeWrite {s pa b} (h : Canonical s) : Canonical (homeWrite s pa b) := homeWrite_memoriesWf s pa b h

protected theorem Canonical.homeWriteNat {s pa n v} (h : Canonical s) : Canonical (homeWriteNat s pa n v) :=
  h.homeWrite

protected theorem Canonical.setTag {s pa t} (h : Canonical s) : Canonical (setTag s pa t) :=
  .ite (h.same rfl rfl rfl rfl) h

protected theorem Canonical.homeWriteTagged {s pa v t} (h : Canonical s) : Canonical (homeWriteTagged s pa v t) :=
  .ite h.homeWrite.setTag h.homeWrite

protected theorem Canonical.homeAdd64 {s pa n} (h : Canonical s) : Canonical (homeAdd64 s pa n) :=
  .ite h h.homeWriteNat

protected theorem Canonical.logRecord {base pages rec_ s} (h : Canonical s) : Canonical (logRecord base pages rec_ s) :=
  .ite h (.ite h.homeWriteNat.homeWriteNat h.homeWriteNat)

protected theorem Canonical.mgmtLog {rec_ s} (h : Canonical s) : Canonical (mgmtLog rec_ s) :=
  h.logRecord.same rfl rfl rfl rfl

protected theorem Canonical.countLoss {unit s} (h : Canonical s) : Canonical (countLoss unit s) :=
  h.same rfl rfl rfl rfl

protected theorem Canonical.lostToMgmt {pa n s} (h : Canonical s) : Canonical (lostToMgmt pa n s) :=
  .ite h.mgmtLog.countLoss h

protected theorem Canonical.domainLog {d snap rec_ s} (h : Canonical s) : Canonical (domainLog d snap rec_ s) :=
  .ite h.lostToMgmt.logRecord.setDie h.lostToMgmt.logRecord.setDie.send

protected theorem Canonical.logFor {c x cause imp pc val s} (h : Canonical s) : Canonical (logFor c x cause imp pc val s) := by
  unfold logFor
  extract_lets
  split
  · exact h.domainLog
  · exact h.mgmtLog

protected theorem Canonical.lostToRegion {d g pa n s} (h : Canonical s) : Canonical (lostToRegion d g pa n s) :=
  .ite h.domainLog.countLoss h

protected theorem Canonical.lostToCtx {c x pa n s} (h : Canonical s) : Canonical (lostToCtx c x pa n s) :=
  .ite h.logFor.countLoss h

protected theorem Canonical.lossRecord {c sup unit ix s} (h : Canonical s) : Canonical (lossRecord c sup unit ix s) :=
  .ite h.countLoss.logFor h.countLoss.mgmtLog

protected theorem Canonical.addCycles {c x n l s} (h : Canonical s) : Canonical (addCycles c x n l s) := by
  induction l generalizing s with
  | nil => exact h
  | cons p up ih => exact ih (.ite (.ite h.homeWriteNat.lostToCtx.mgmtLog h.homeWriteNat.lostToCtx.domainLog) h.homeWriteNat.lostToCtx)

protected theorem Canonical.addAccounts {acct l s} (h : Canonical s) : Canonical (addAccounts acct l s) := by
  induction l generalizing s with
  | nil => exact h
  | cons p t ih => exact ih h.homeAdd64

protected theorem Canonical.commitAccounts {c sup row3 s} (h : Canonical s) : Canonical (commitAccounts c sup row3 s) := by
  unfold commitAccounts
  extract_lets
  split
  · exact h.settle.setCore
  · refine .addCycles (.ite h.settle.setCtxOf ?_)
    extract_lets
    split
    · exact h.settle.setCtxOf.addAccounts.lostToCtx.homeAdd64
    · exact h.settle.setCtxOf.addAccounts.lostToCtx

protected theorem Canonical.commitSup {c s} (h : Canonical s) : Canonical (commitSup c s) :=
  .ite h.commitAccounts h.settle

protected theorem Canonical.beginKill {c cause imp pc val s} (h : Canonical s) : Canonical (beginKill c cause imp pc val s) :=
  .ite h h.setCore.send

protected theorem Canonical.markIdle {c s} (h : Canonical s) : Canonical (markIdle c s) :=
  .ite h h.setCore

protected theorem Canonical.userTrap {c cause imp val s} (h : Canonical s) : Canonical (userTrap c cause imp val s) :=
  .ite h.settle.setCore.beginKill h.settle.setCore

protected theorem Canonical.doubleTrap {c cause pc s} (h : Canonical s) : Canonical (doubleTrap c cause pc s) :=
  h.mgmtLog.settle.setCore.markIdle.beginKill

protected theorem Canonical.supTrap {c cause imp val s} (h : Canonical s) : Canonical (supTrap c cause imp val s) :=
  .ite h.doubleTrap h.setCore

protected theorem Canonical.takeTrap {c cause imp val s} (h : Canonical s) : Canonical (takeTrap c cause imp val s) :=
  .ite h.supTrap h.userTrap

protected theorem Canonical.trapVal {cause val s} (h : Canonical s) : Canonical (trapVal cause val s) :=
  h.spend.takeTrap

protected theorem Canonical.trapWord {cause s} (h : Canonical s) : Canonical (trapWord cause s) :=
  h.trapVal

protected theorem Canonical.trapAt {cause addr s} (h : Canonical s) : Canonical (trapAt cause addr s) :=
  h.trapVal

protected theorem Canonical.trapLocal {cause va s} (h : Canonical s) : Canonical (trapLocal cause va s) :=
  .ite h.trapWord h.trapAt

protected theorem Canonical.trapCmd {cause s} (h : Canonical s) : Canonical (trapCmd cause s) :=
  h.trapAt

protected theorem Canonical.returnUser {c s} (h : Canonical s) : Canonical (returnUser c s) :=
  h.settle.setCore

protected theorem Canonical.returnSup {c s} (h : Canonical s) : Canonical (returnSup c s) :=
  h.setCore

protected theorem Canonical.raiseImprecise {c sup cause val s} (h : Canonical s) : Canonical (raiseImprecise c sup cause val s) :=
  .ite h h.setCtxOf

protected theorem Canonical.doneStatus {d code bank s} (h : Canonical s) : Canonical (doneStatus d code bank s) :=
  h.putNat.finish

/-! ### Fetching, waiting and the boundary -/

protected theorem Canonical.writeStore {c a w s} (h : Canonical s) : Canonical (writeStore c a w s) := writeStore_memoriesWf c a w s h

protected theorem Canonical.haltUser {c reason idx s} (h : Canonical s) : Canonical (haltUser c reason idx s) :=
  h.settle.setCore

/-! ### Control words -/

protected theorem Canonical.branch {taken off s} (h : Canonical s) : Canonical (branch taken off s) :=
  .ite h.jump h.finish

protected theorem Canonical.execBeq {a b o s} (h : Canonical s) : CanonicalOut (execBeq a b o s) :=
  h.branch.next

protected theorem Canonical.execBne {a b o s} (h : Canonical s) : CanonicalOut (execBne a b o s) :=
  h.branch.next

protected theorem Canonical.execBlt {a b o s} (h : Canonical s) : CanonicalOut (execBlt a b o s) :=
  h.branch.next

protected theorem Canonical.execBge {a b o s} (h : Canonical s) : CanonicalOut (execBge a b o s) :=
  h.branch.next

protected theorem Canonical.execBltu {a b o s} (h : Canonical s) : CanonicalOut (execBltu a b o s) :=
  h.branch.next

protected theorem Canonical.execBgeu {a b o s} (h : Canonical s) : CanonicalOut (execBgeu a b o s) :=
  h.branch.next

protected theorem Canonical.setBank {s gb b} (h : Canonical s) : Canonical (setBank s gb b) :=
  h.same rfl rfl rfl rfl

protected theorem Canonical.execBc {c e o s} (h : Canonical s) : CanonicalOut (execBc c e o s) :=
  h.branch.next

protected theorem Canonical.execBnc {c e o s} (h : Canonical s) : CanonicalOut (execBnc c e o s) :=
  h.branch.next

protected theorem Canonical.execJ {o s} (h : Canonical s) : CanonicalOut (execJ o s) :=
  h.jump.next

protected theorem Canonical.execJal {o s} (h : Canonical s) : CanonicalOut (execJal o s) :=
  h.putNat.jump.next

protected theorem Canonical.execJr {d a s} (h : Canonical s) : CanonicalOut (execJr d a s) :=
  .ite h.trapWord.next h.putNat.jump.next

protected theorem Canonical.execRep {d c t n s} (h : Canonical s) : CanonicalOut (execRep d c t n s) := by
  unfold execRep
  extract_lets
  split
  · exact h.finish.next
  · exact .ite h.trapWord.next (.ite h.spend.setCx.markIssued.next h.spend.setCx.markIssued.next)

protected theorem Canonical.execNop {s} (h : Canonical s) : CanonicalOut (execNop s) :=
  h.finish.next

protected theorem Canonical.execGclr {d s} (h : Canonical s) : CanonicalOut (execGclr d s) :=
  h.setCx.finish.next

protected theorem Canonical.execGwait {d s} (h : Canonical s) : CanonicalOut (execGwait d s) :=
  .ite h.wait.next h.setCx.finish.next

protected theorem Canonical.joinAll {y l s} (h : Canonical s) : Canonical (joinAll y l s) := by
  induction l generalizing s with
  | nil => exact h
  | cons f t ih =>
    unfold joinAll
    extract_lets k
    split
    · exact .ite (ih h.setCore) (ih h.setCore.userTrap)
    · exact ih h

protected theorem Canonical.execJoin {s} (h : Canonical s) : CanonicalOut (execJoin s) := by
  unfold execJoin
  refine .ite h.finish.next ?_
  split
  · exact h.finish.next
  · exact h.finish.next
  · exact h.wait.next
  · exact h.spend.setCx.next
  · exact .ite h.wait.next h.joinAll.finish.next

protected theorem Canonical.execExit {s} (h : Canonical s) : CanonicalOut (execExit s) := by
  unfold execExit
  refine .ite h.trapWord.next (.ite (.ite h.wait.next h.spend.commitAccounts.setCore.markIdle.next) ?_)
  split
  · exact h.trapWord.next
  · exact h.wait.next
  · exact .ite h.wait.next h.finish.next
  · exact .ite h.wait.next h.spend.beginKill.next
  · exact .ite h.wait.next (.ite h.wait.next h.joinAll.spend.beginKill.next)

protected theorem Canonical.execIfence {s} (h : Canonical s) : CanonicalOut (execIfence s) :=
  .next (.finish (.setCx (.ite h.setCore h)))

protected theorem Canonical.execLblpush {i s} (h : Canonical s) : CanonicalOut (execLblpush i s) :=
  h.finish.setCx.next

protected theorem Canonical.execLblpop {s} (h : Canonical s) : CanonicalOut (execLblpop s) :=
  h.finish.setCx.next

protected theorem Canonical.execBrk {s} (h : Canonical s) : CanonicalOut (execBrk s) :=
  .ite h.spend.haltUser.next h.trapAt.next

/-! ### Local accesses -/

protected theorem Canonical.mergeClock {d clk s} (h : Canonical s) : Canonical (mergeClock d clk s) :=
  h.setDie

protected theorem Canonical.setLocationClock {pa n clk s} (h : Canonical s) : Canonical (setLocationClock pa n clk s) :=
  .ite h (h.foldl fun _ _ h => h.same rfl rfl rfl rfl)

protected theorem Canonical.readClock {c p n s} (h : Canonical s) : Canonical (readClock c p n s) :=
  .ite h h.mergeClock

protected theorem Canonical.noteWriteBy {d src kind p n s} (h : Canonical s) : Canonical (noteWriteBy d src kind p n s) := by
  unfold noteWriteBy
  extract_lets
  split
  · exact .ite h.setLocationClock.setBank h.setLocationClock
  · exact h.setLocationClock

protected theorem Canonical.noteWrite {c kind p n s} (h : Canonical s) : Canonical (noteWrite c kind p n s) :=
  h.noteWriteBy

protected theorem Canonical.putPlace {p b s} (h : Canonical s) : Canonical (putPlace p b s) := putPlace_memoriesWf p b s h

protected theorem Canonical.writePlace {c kind p b s} (h : Canonical s) : Canonical (writePlace c kind p b s) :=
  h.putPlace.noteWrite

protected theorem Canonical.watched {space kind a n f s} (h : Canonical s) (hf : ∀ t, Canonical t → CanonicalOut (f t)) :
    CanonicalOut (watched space kind a n f s) := by
  unfold watched
  split
  · exact hf _ h
  · exact .ite h.spend.haltUser.next h.trapAt.next

protected theorem Canonical.localAccess {va n need f s} (h : Canonical s) (hf : ∀ a t, Canonical t → CanonicalOut (f a t)) :
    CanonicalOut (localAccess va n need f s) := by
  unfold localAccess
  refine .ite h.trapAt.next ?_
  split
  · exact h.trapLocal.next
  · exact h.wait.next
  · exact h.watched (fun _ h => hf _ _ h)

protected theorem Canonical.awaitDatum {s} (h : Canonical s) : Canonical (awaitDatum s) :=
  h.setCore

protected theorem Canonical.loadLocal {d va n sg s} (h : Canonical s) : CanonicalOut (loadLocal d va n sg s) :=
  h.localAccess (fun _ _ h => h.readClock.putWord.finish.awaitDatum.next)

protected theorem Canonical.storeLocal {d va n s} (h : Canonical s) : CanonicalOut (storeLocal d va n s) :=
  h.localAccess (fun _ _ h => h.writePlace.finish.next)

protected theorem Canonical.execLdBS {d a i s} (h : Canonical s) : CanonicalOut (execLdBS d a i s) :=
  h.loadLocal

protected theorem Canonical.execLdBZ {d a i s} (h : Canonical s) : CanonicalOut (execLdBZ d a i s) :=
  h.loadLocal

protected theorem Canonical.execLdHS {d a i s} (h : Canonical s) : CanonicalOut (execLdHS d a i s) :=
  h.loadLocal

protected theorem Canonical.execLdHZ {d a i s} (h : Canonical s) : CanonicalOut (execLdHZ d a i s) :=
  h.loadLocal

protected theorem Canonical.execLdWS {d a i s} (h : Canonical s) : CanonicalOut (execLdWS d a i s) :=
  h.loadLocal

protected theorem Canonical.execLdWZ {d a i s} (h : Canonical s) : CanonicalOut (execLdWZ d a i s) :=
  h.loadLocal

protected theorem Canonical.execLdDS {d a i s} (h : Canonical s) : CanonicalOut (execLdDS d a i s) :=
  h.loadLocal

protected theorem Canonical.execLdDZ {d a i s} (h : Canonical s) : CanonicalOut (execLdDZ d a i s) :=
  h.loadLocal

protected theorem Canonical.execLdQ {d a i s} (h : Canonical s) : CanonicalOut (execLdQ d a i s) :=
  h.loadLocal

protected theorem Canonical.execStB {d a i s} (h : Canonical s) : CanonicalOut (execStB d a i s) :=
  h.storeLocal

protected theorem Canonical.execStH {d a i s} (h : Canonical s) : CanonicalOut (execStH d a i s) :=
  h.storeLocal

protected theorem Canonical.execStW {d a i s} (h : Canonical s) : CanonicalOut (execStW d a i s) :=
  h.storeLocal

protected theorem Canonical.execStD {d a i s} (h : Canonical s) : CanonicalOut (execStD d a i s) :=
  h.storeLocal

protected theorem Canonical.execStQ {d a i s} (h : Canonical s) : CanonicalOut (execStQ d a i s) :=
  h.storeLocal

protected theorem Canonical.execLdIndexed {d a b n s} (h : Canonical s) : CanonicalOut (execLdIndexed d a b n s) :=
  h.loadLocal

protected theorem Canonical.execStIndexed {d a b n s} (h : Canonical s) : CanonicalOut (execStIndexed d a b n s) :=
  h.storeLocal

/-! ### Power gating and waking -/

protected theorem Canonical.setCluster {s cl k} (h : Canonical s) : Canonical (setCluster s cl k) :=
  h.same rfl rfl rfl rfl

protected theorem Canonical.wakeCluster {cl s} (h : Canonical s) : Canonical (wakeCluster cl s) :=
  .ite h.setCluster.send h.setCluster

protected theorem Canonical.wakeCore {c s} (h : Canonical s) : Canonical (wakeCore c s) := by
  unfold wakeCore
  refine .ite (.send (.setCore (.settle ?_))) (.setCore (.settle ?_))
  · split
    · exact h.wakeCluster
    · exact h
  · split
    · exact h.wakeCluster
    · exact h

protected theorem Canonical.execCoreGatingStart {c s} (h : Canonical s) : CanonicalOut (execCoreGatingStart c s) :=
  .ite h.taken.settle.next (.ite h.taken.settle.setCore.send.next h.taken.settle.next)

protected theorem Canonical.execCoreGatingCommit {c s} (h : Canonical s) : CanonicalOut (execCoreGatingCommit c s) := by
  unfold execCoreGatingCommit
  refine .ite h.taken.next ?_
  extract_lets
  split
  · exact .ite h.taken.setCore.send.next h.taken.send.next
  · exact h.taken.next

protected theorem Canonical.execCorePowerOff {c s} (h : Canonical s) : CanonicalOut (execCorePowerOff c s) := by
  unfold execCorePowerOff
  refine .ite h.taken.next ?_
  extract_lets
  split
  · exact .ite (.next (.ite h.taken.setCore.send h.taken.setCore)) h.taken.send.next
  · exact h.taken.next

protected theorem Canonical.execClusterGatingStart {cl s} (h : Canonical s) : CanonicalOut (execClusterGatingStart cl s) := by
  unfold execClusterGatingStart
  refine .ite h.taken.next ?_
  extract_lets
  split
  · exact .ite h.taken.setCluster.send.next h.taken.next
  · exact h.taken.next

protected theorem Canonical.execClusterGatingCommit {cl s} (h : Canonical s) : CanonicalOut (execClusterGatingCommit cl s) := by
  unfold execClusterGatingCommit
  refine .ite h.taken.next ?_
  extract_lets
  split
  · exact .ite h.taken.setCluster.send.next h.taken.send.next
  · exact h.taken.next

protected theorem Canonical.execClusterPowerOff {cl s} (h : Canonical s) : CanonicalOut (execClusterPowerOff cl s) := by
  unfold execClusterPowerOff
  refine .ite h.taken.next ?_
  extract_lets
  split
  · exact .ite (.next (.ite (.send (h.taken.setCluster.foldl fun _ _ h => h.setCore)) (h.taken.setCluster.foldl fun _ _ h => h.setCore))) h.taken.send.next
  · exact h.taken.next

protected theorem Canonical.execWake {isCluster ix s} (h : Canonical s) : CanonicalOut (execWake isCluster ix s) :=
  .ite (.ite h.taken.next h.taken.wakeCluster.next) (.ite h.taken.wakeCore.next h.taken.next)

protected theorem Canonical.execPowerUpDone {isCluster ix s} (h : Canonical s) : CanonicalOut (execPowerUpDone isCluster ix s) := by
  unfold execPowerUpDone
  extract_lets
  split
  · refine .ite h.taken.next ?_
    extract_lets
    split
    · exact (h.taken.filterIstore fun p => p.1 / 2 ^ 22 != ix).setCluster.next
    · exact h.taken.next
  · refine .ite h.taken.next ?_
    extract_lets
    split
    · split
      · exact h.taken.settle.setCore.next
      · exact h.taken.settle.setCore.next
      · exact h.taken.settle.send.next
    · exact h.taken.settle.next

/-! ### The generator, accesses under way, floats and capabilities -/

protected theorem Canonical.putNum {c sup n s} (h : Canonical s) : Canonical (putNum c sup n s) :=
  h.setCtxOf.setCore

protected theorem Canonical.rounding {f s} (h : Canonical s) (hf : ∀ t, Canonical t → CanonicalOut (f t)) : CanonicalOut (rounding f s) :=
  .ite h.wait.next (hf _ h)

protected theorem Canonical.numDone {d p n s} (h : Canonical s) : Canonical (numDone d p n s) :=
  h.putNum.putNat.finish

protected theorem Canonical.moveAccess {a s} (h : Canonical s) : Canonical (moveAccess a s) :=
  h.same rfl rfl rfl rfl

protected theorem Canonical.putAccess {a s} (h : Canonical s) : Canonical (putAccess a s) :=
  h.same rfl rfl rfl rfl

protected theorem Canonical.dropAccess {id s} (h : Canonical s) : Canonical (dropAccess id s) :=
  h.same rfl rfl rfl rfl

protected theorem Canonical.post {a s} (h : Canonical s) : Canonical (post a s) := by
  unfold post
  extract_lets
  split
  · exact .wakeCore (.same (.ite h.setDie h) rfl rfl rfl rfl)
  · exact .wakeCore (.same (.ite h.setDie h) rfl rfl rfl rfl)
  · exact .same (.ite h.setDie h) rfl rfl rfl rfl

protected theorem Canonical.onCopy {c sup id f s} (h : Canonical s) : Canonical (onCopy c sup id f s) :=
  h.setCtxOf

protected theorem Canonical.ringLine {gb r off n s} (h : Canonical s) : Canonical (ringLine gb r off n s) :=
  .ite h h.setBank

protected theorem Canonical.addBarrier {c sup bar n s} (h : Canonical s) : Canonical (addBarrier c sup bar n s) :=
  .ite h h.setCtxOf

protected theorem Canonical.onStore {c sup id f s} (h : Canonical s) : Canonical (onStore c sup id f s) :=
  h.setCtxOf

protected theorem Canonical.noteWritten {a s} (h : Canonical s) : Canonical (noteWritten a s) :=
  .ite h.onCopy h

protected theorem Canonical.noteFault {a status core s} (h : Canonical s) : Canonical (noteFault a status core s) :=
  .ite h.onCopy h.onStore

protected theorem Canonical.remoteStores {c own a b s} (h : Canonical s) : Canonical (remoteStores c own a b s) := by
  induction a, b, s using remoteStores.induct c own with
  | case1 a b0 b1 b2 b3 t s s' ih =>
    rw [Machine.remoteStores]
    exact ih (.ite h h.writeStore)
  | case2 a b s short =>
    rw [Machine.remoteStores]
    · exact h
    · exact short

protected theorem Canonical.performPort {a s} (h : Canonical s) : Canonical (performPort a s) := by
  unfold performPort
  split
  · exact h.dropAccess.remoteStores.noteWritten
  · exact h
  · split
    · exact h
    · exact h.dropAccess.noteFault
    · split
      · exact h.putAccess
      · refine .noteWritten (.addBarrier (.setLocationClock (.writePlace ?_)))
        split
        · exact h.dropAccess.ringLine
        · exact h.dropAccess

protected theorem Canonical.setTags {u l s} (h : Canonical s) : Canonical (setTags u l s) := by
  induction l generalizing u s with
  | nil => exact h
  | cons t r ih => exact ih (.ite h.setTag h)

protected theorem Canonical.applyAmo {a m pa s} (h : Canonical s) : Canonical (applyAmo a m pa s).1 :=
  .ite h (.ite h.homeWriteNat.setTag h.homeWriteNat)

protected theorem Canonical.performHome {a pa s} (h : Canonical s) : Canonical (performHome a pa s) := by
  unfold performHome
  split
  · exact h.dropAccess.homeWrite.setTags.setLocationClock.noteWritten
  · exact .ite h.applyAmo.setLocationClock.putAccess h.applyAmo.setLocationClock.dropAccess
  · exact h.putAccess

protected theorem Canonical.execHomeApply {id s} (h : Canonical s) : CanonicalOut (execHomeApply id s) := by
  unfold execHomeApply
  extract_lets
  split
  · split
    · exact .next (.ite (.performHome (.ite h.taken.lossRecord h.taken)) h.taken)
    · exact h.taken.next
  · exact h.taken.next

protected theorem Canonical.execAccessForward {id s} (h : Canonical s) : CanonicalOut (execAccessForward id s) := by
  unfold execAccessForward
  extract_lets
  split
  · exact .ite h.taken.moveAccess.next h.taken.next
  · exact h.taken.next

protected theorem Canonical.execAccessSend {id s} (h : Canonical s) : CanonicalOut (execAccessSend id s) := by
  unfold execAccessSend
  extract_lets
  split
  · exact .ite h.taken.moveAccess.next h.taken.next
  · exact h.taken.next

protected theorem Canonical.execLinkCross {id s} (h : Canonical s) : CanonicalOut (execLinkCross id s) := by
  unfold execLinkCross
  extract_lets
  split
  · exact .ite h.taken.moveAccess.next h.taken.next
  · exact h.taken.next

protected theorem Canonical.deliverReg {c sup n r s} (h : Canonical s) : Canonical (deliverReg c sup n r s) :=
  .ite h.deliver.setCtxOf h.deliver

protected theorem Canonical.returnToReg {a n s} (h : Canonical s) : Canonical (returnToReg a n s) :=
  h.deliverReg

protected theorem Canonical.floatDone {d f r s} (h : Canonical s) : Canonical (floatDone d f r s) :=
  h.numDone

protected theorem Canonical.execFadd {d a b f s} (h : Canonical s) : CanonicalOut (execFadd d a b f s) :=
  h.rounding (fun _ h => h.floatDone.next)

protected theorem Canonical.execFsub {d a b f s} (h : Canonical s) : CanonicalOut (execFsub d a b f s) :=
  h.rounding (fun _ h => h.floatDone.next)

protected theorem Canonical.execFmul {d a b f s} (h : Canonical s) : CanonicalOut (execFmul d a b f s) :=
  h.rounding (fun _ h => h.floatDone.next)

protected theorem Canonical.execFfma {d a b f s} (h : Canonical s) : CanonicalOut (execFfma d a b f s) :=
  h.rounding (fun _ h => h.floatDone.next)

protected theorem Canonical.pickDone {d f r s} (h : Canonical s) : Canonical (pickDone d f r s) :=
  h.numDone

protected theorem Canonical.execFmin {d a b f s} (h : Canonical s) : CanonicalOut (execFmin d a b f s) :=
  h.pickDone.next

protected theorem Canonical.execFmax {d a b f s} (h : Canonical s) : CanonicalOut (execFmax d a b f s) :=
  h.pickDone.next

protected theorem Canonical.cmpDone {d r s} (h : Canonical s) : Canonical (cmpDone d r s) :=
  h.setCx.putNat.finish

protected theorem Canonical.execFeq {d a b f s} (h : Canonical s) : CanonicalOut (execFeq d a b f s) :=
  h.cmpDone.next

protected theorem Canonical.execFlt {d a b f s} (h : Canonical s) : CanonicalOut (execFlt d a b f s) :=
  h.cmpDone.next

protected theorem Canonical.execFle {d a b f s} (h : Canonical s) : CanonicalOut (execFle d a b f s) :=
  h.cmpDone.next

protected theorem Canonical.execFcvt {d a sf tf s} (h : Canonical s) : CanonicalOut (execFcvt d a sf tf s) :=
  h.rounding (fun _ h => h.numDone.next)

protected theorem Canonical.execFclas {d a f s} (h : Canonical s) : CanonicalOut (execFclas d a f s) :=
  h.putNat.finish.next

protected theorem Canonical.execFsgnj {d a b v f s} (h : Canonical s) : CanonicalOut (execFsgnj d a b v f s) :=
  h.putNat.finish.next

protected theorem Canonical.capDone {d v t s} (h : Canonical s) : Canonical (capDone d v t s) :=
  h.putReg.finish

protected theorem Canonical.execCsetb {d a b x s} (h : Canonical s) : CanonicalOut (execCsetb d a b x s) :=
  h.capDone.next

protected theorem Canonical.execCperm {d a b s} (h : Canonical s) : CanonicalOut (execCperm d a b s) :=
  h.capDone.next

protected theorem Canonical.execCoff {d a b s} (h : Canonical s) : CanonicalOut (execCoff d a b s) :=
  h.capDone.next

protected theorem Canonical.execCseal {d a s} (h : Canonical s) : CanonicalOut (execCseal d a s) :=
  h.capDone.next

protected theorem Canonical.execCgadr {d a s} (h : Canonical s) : CanonicalOut (execCgadr d a s) :=
  h.capDone.next

protected theorem Canonical.execCgbas {d a s} (h : Canonical s) : CanonicalOut (execCgbas d a s) :=
  h.capDone.next

protected theorem Canonical.execCglen {d a s} (h : Canonical s) : CanonicalOut (execCglen d a s) :=
  h.capDone.next

protected theorem Canonical.execCgprm {d a s} (h : Canonical s) : CanonicalOut (execCgprm d a s) :=
  h.capDone.next

protected theorem Canonical.execCclrt {d a s} (h : Canonical s) : CanonicalOut (execCclrt d a s) :=
  h.capDone.next

protected theorem Canonical.execCapmv {d a s} (h : Canonical s) : CanonicalOut (execCapmv d a s) :=
  h.capDone.next

/-! ### Streams -/

protected theorem Canonical.locateRing {c x wide write n t s} (h : Canonical s) : CanonicalLocated (locateRing c x wide write n t s) := by
  induction n generalizing t s with
  | zero => exact h.located
  | succ n ih =>
    unfold locateRing
    extract_lets gb
    split
    · exact .bad
    · extract_lets cap
      refine .ite .bad ?_
      split
      · exact .wait
      · extract_lets base done r2 t2
        split
        next found => exact .located (ih h.setBank _ _ _ found)
        next => exact ih h.setBank

protected theorem Canonical.locate {c x t wide write k n s} (h : Canonical s) : CanonicalLocated (locate c x t wide write k n s) :=
  .ite h.locateRing h.located

protected theorem Canonical.writeRuns {c kind l b s} (h : Canonical s) : Canonical (writeRuns c kind l b s) := by
  induction l generalizing b s with
  | nil => exact h
  | cons p t ih => exact ih h.writePlace

protected theorem Canonical.WLoc_write {w raw s} (h : Canonical s) : Canonical (WLoc.write w raw s) :=
  h.putPlace

protected theorem Canonical.noteRuns {c kind l s} (h : Canonical s) : Canonical (noteRuns c kind l s) :=
  h.foldl fun _ _ h => h.noteWrite

protected theorem Canonical.writeElems {c kind l s} (h : Canonical s) : Canonical (writeElems c kind l s) :=
  .noteRuns (h.foldl fun _ _ h => h.WLoc_write)

protected theorem Canonical.writeBits {c l s} (h : Canonical s) : Canonical (writeBits c l s) :=
  .noteRuns (h.foldl fun _ _ h => h.putPlace)

protected theorem Canonical.execSbind {f d a b n s} (h : Canonical s) : CanonicalOut (execSbind f d a b n s) :=
  .ite h.wait.next (.ite h.trapAt.next h.setCx.finish.next)

protected theorem Canonical.execSqry {d a n s} (h : Canonical s) : CanonicalOut (execSqry d a n s) :=
  .ite h.wait.next h.putNat.finish.next

/-! ### Address translation -/

protected theorem Canonical.cacheWalk {l s} (h : Canonical s) : Canonical (cacheWalk l s) :=
  h.foldl fun _ _ h => h.same rfl rfl rfl rfl

protected theorem Canonical.pageRequest {fn st2 addr wr ws s} (h : Canonical s) : CanonicalOpt (pageRequest fn st2 addr wr ws s) :=
  .ite h.setFunc.some (.ite nofun h.setFunc.some)

protected theorem Canonical.startWalk {fn va rd wr s} (h : Canonical s) : Canonical (startWalk fn va rd wr s) :=
  .ite (h.same rfl rfl rfl rfl) (.ite h (h.same rfl rfl rfl rfl))

protected theorem Canonical.translate {va rd wr s} (h : Canonical s) : Canonical (translate va rd wr s).state := by
  unfold translate
  split
  · exact h
  · extract_lets
    split
    · exact h
    · split
      · split
        · exact h.setCore
        · exact h.setCore.startWalk
      · split
        · exact h
        · exact h.startWalk

protected theorem Canonical.translateEngine {c x eng va rd wr s} (h : Canonical s) : Canonical (translateEngine c x eng va rd wr s).2 := by
  unfold translateEngine
  split
  · exact h
  · split
    · exact h
    · split
      · exact h
      · split
        · exact h.cacheWalk.setCore
        · exact .getD h.lostToCtx.pageRequest h
        · exact h

protected theorem Canonical.walkLost {s d fn va wr f} (h : Canonical s) (hf : ∀ a t, Canonical t → Canonical (f a t)) :
    Canonical (walkLost s d fn va wr f) := by
  unfold walkLost
  split
  · exact hf _ _ h
  · exact h

protected theorem Canonical.logMalformed {c f s} (h : Canonical s) : Canonical (logMalformed c f s) := by
  unfold logMalformed
  split
  · exact h.mgmtLog
  · exact h

protected theorem Canonical.endMiss {w m s} (h : Canonical s) : Canonical (endMiss w m s).1 := by
  unfold endMiss
  split
  · exact h.cacheWalk.setCore
  · split
    next t found =>
      have ht : Canonical t := h.lostToCtx.pageRequest _ found
      exact ht
    · exact h
  · exact .ite h.setCore.logMalformed h.setCore

protected theorem Canonical.endWalk {w l left s} (h : Canonical s) : Canonical (endWalk w l left s) := by
  induction l generalizing left s with
  | nil => cases left with
    | nil => exact h
    | cons => exact h.same rfl rfl rfl rfl
  | cons m t ih => exact ih h.endMiss

protected theorem Canonical.dropEntries {fn kind st2 addr s} (h : Canonical s) : Canonical (dropEntries fn kind st2 addr s) :=
  h.same rfl rfl rfl rfl

protected theorem Canonical.invalidate {fn kind st2 addr s} (h : Canonical s) : Canonical (invalidate fn kind st2 addr s) :=
  .ite h.setFunc.send (.ite h.setFunc h.setFunc)

protected theorem Canonical.execInvalFunction {fn st2 s} (h : Canonical s) : CanonicalOut (execInvalFunction fn st2 s) :=
  h.taken.invalidate.next

protected theorem Canonical.execInvalPage {fn st2 addr s} (h : Canonical s) : CanonicalOut (execInvalPage fn st2 addr s) :=
  h.taken.invalidate.next

protected theorem Canonical.execInvalRegion {fn st2 addr s} (h : Canonical s) : CanonicalOut (execInvalRegion fn st2 addr s) :=
  h.taken.invalidate.next

protected theorem Canonical.execInvalComplete {fn s} (h : Canonical s) : CanonicalOut (execInvalComplete fn s) := by
  unfold execInvalComplete
  extract_lets
  split
  · exact h.taken.next
  · exact .next (.ite h.taken.setFunc.dropEntries h.taken.setFunc.dropEntries.send)

/-! ### The copy engine -/

protected theorem Canonical.resolvePart {c sup o r wr elem off n s} (h : Canonical s) : Canonical (resolvePart c sup o r wr elem off n s).state := by
  unfold resolvePart
  extract_lets
  split
  · exact h
  · split
    · extract_lets
      split
      · exact h
      · exact h
    · extract_lets
      split
      · exact h
      · exact h
    · extract_lets
      split
      · exact h
      · split
        · exact h
        · exact h
    · extract_lets
      split
      · exact h
      · split
        · exact h
        · split
          next _ t found =>
            have ht : Canonical t := h.translateEngine.of_eq found
            split
            · exact ht
            · exact ht
          next t found =>
            have ht : Canonical t := h.translateEngine.of_eq found
            exact ht
          next _ t found =>
            have ht : Canonical t := h.translateEngine.of_eq found
            exact ht.logMalformed

protected theorem Canonical.waitPage {c sup id k vpage s} (h : Canonical s) : Canonical (waitPage c sup id k vpage s) :=
  h.onCopy

protected theorem Canonical.startRead {c sup p i s} (h : Canonical s) : Canonical (startRead c sup p i s) := by
  unfold startRead
  extract_lets
  split
  next _ t found =>
    have ht : Canonical t := h.resolvePart.of_eq found
    exact ht.onCopy
  next _ t found =>
    have ht : Canonical t := h.resolvePart.of_eq found
    exact ht.waitPage
  next _ _ t found =>
    have ht : Canonical t := h.resolvePart.of_eq found
    exact ht.post

protected theorem Canonical.startReads {c sup p n i s} (h : Canonical s) : Canonical (startReads c sup p n i s) := by
  induction n generalizing i s with
  | zero => exact h
  | succ n ih => exact ih h.startRead

protected theorem Canonical.writePart {c sup p s i} (h : Canonical s) : Canonical (writePart c sup p s i) :=
  .foldl (.ite h h.onCopy) fun _ _ h => by
      split
      next _ t found =>
        have ht : Canonical t := h.resolvePart.of_eq found
        exact ht.onCopy
      next _ t found =>
        have ht : Canonical t := h.resolvePart.of_eq found
        exact ht.waitPage
      next _ _ t found =>
        have ht : Canonical t := h.resolvePart.of_eq found
        exact ht.post

end Sys2Proof.Machine
end

section
/-! SUPPORT. Every step keeps the memories canonical (O60): the copy engine, the vector engine, the matrix unit and the banks. -/

namespace Sys2Proof.Machine

open Sys2Proof.Claims

protected theorem Canonical.takeRead {c sup id i b tags s} (h : Canonical s) : Canonical (takeRead c sup id i b tags s) := by
  unfold takeRead
  extract_lets
  split
  · exact h.onCopy
  · exact h.onCopy.foldl fun _ _ h => h.writePart

protected theorem Canonical.execReadReturn {id s} (h : Canonical s) : CanonicalOut (execReadReturn id s) := by
  unfold execReadReturn
  extract_lets
  split
  · exact h.taken.next
  · refine .ite h.taken.next ?_
    extract_lets
    split
    · split
      · exact h.taken.dropAccess.mergeClock.next
      · exact .ite h.taken.next h.taken.dropAccess.mergeClock.takeRead.next
    · refine .next ?_
      split
      · exact h.taken.dropAccess.mergeClock.returnToReg
      · exact h.taken.dropAccess.mergeClock

protected theorem Canonical.execCopyStart {c s} (h : Canonical s) : CanonicalOut (execCopyStart c s) := by
  unfold execCopyStart
  refine .ite h.taken.next (.ite h.taken.next ?_)
  split
  · exact h.taken.next
  · split
    · exact h.taken.next
    · exact .next (.startReads (.setCtxOf (h.same rfl rfl rfl rfl)))

protected theorem Canonical.execCopyComplete {c id s} (h : Canonical s) : CanonicalOut (execCopyComplete c id s) := by
  unfold execCopyComplete
  refine .ite h.taken.next ?_
  extract_lets
  split
  · exact h.taken.next
  · exact .ite h.taken.setCtxOf.next h.taken.next

protected theorem Canonical.discardCopy {c s} (h : Canonical s) : Canonical (discardCopy c s) := by
  unfold discardCopy
  extract_lets
  split
  · exact .ite h.setCtxOf h
  · exact h

protected theorem Canonical.wakeCopies {c sup vpage wr f s} (h : Canonical s) (hf : ∀ a b t, Canonical t → Canonical (f a b t)) :
    Canonical (wakeCopies c sup vpage wr f s) :=
  h.foldl fun _ _ h => h.foldl fun _ _ h => hf _ _ _ h.onCopy

protected theorem Canonical.retryCopies {c sup vpage wr s} (h : Canonical s) : Canonical (retryCopies c sup vpage wr s) :=
  h.wakeCopies (fun _ _ _ h => .ite h.writePart h.startRead)

protected theorem Canonical.failCopies {c sup vpage wr s} (h : Canonical s) : Canonical (failCopies c sup vpage wr s) :=
  h.wakeCopies (fun _ _ _ h => h.onCopy)

protected theorem Canonical.issueCopy {op g x y z b p r q n s} (h : Canonical s) : CanonicalOut (issueCopy op g x y z b p r q n s) :=
  .ite h.wait.next (.ite h.trapWord.next h.setCx.finish.next)

protected theorem Canonical.execCpy {g x y z b p r q n s} (h : Canonical s) : CanonicalOut (execCpy g x y z b p r q n s) :=
  h.issueCopy

protected theorem Canonical.execCgth {g x y z p r q n s} (h : Canonical s) : CanonicalOut (execCgth g x y z p r q n s) :=
  h.issueCopy

protected theorem Canonical.execCsct {g x y z p r q n s} (h : Canonical s) : CanonicalOut (execCsct g x y z p r q n s) :=
  h.issueCopy

protected theorem Canonical.execCdst {g x y z b p r q n s} (h : Canonical s) : CanonicalOut (execCdst g x y z b p r q n s) :=
  h.issueCopy

protected theorem Canonical.execCmcst {g x y z b p r q n s} (h : Canonical s) : CanonicalOut (execCmcst g x y z b p r q n s) :=
  h.issueCopy

protected theorem Canonical.execCfnc {g p r q n s} (h : Canonical s) : CanonicalOut (execCfnc g p r q n s) :=
  h.issueCopy

protected theorem Canonical.execCwcnt {d a b s} (h : Canonical s) : CanonicalOut (execCwcnt d a b s) :=
  .ite (.ite h.putWord.finish.next h.wait.next) (.ite h.putNat.finish.next (.ite h.putNat.finish.next h.wait.next))

protected theorem Canonical.execCqry {d a s} (h : Canonical s) : CanonicalOut (execCqry d a s) := by
  unfold execCqry
  extract_lets
  split
  · exact h.putNat.finish.next
  · exact .ite h.putNat.finish.next (.next (.finish (.putNat (.ite h.setCx h))))
  · exact .next (.finish (.putWord (.ite h.setCx h)))
  · exact h.putNat.finish.next

/-! ### The vector engine -/

protected theorem Canonical.issueVector {v g s} (h : Canonical s) : CanonicalOut (issueVector v g s) := by
  unfold issueVector
  refine .ite h.wait.next ?_
  split
  · exact h.trapAt.next
  · exact .ite h.trapCmd.next (.ite h.trapWord.next h.finish.setCx.next)

protected theorem Canonical.execVadd {g x y z w s} (h : Canonical s) : CanonicalOut (execVadd g x y z w s) :=
  h.issueVector

protected theorem Canonical.execVsub {g x y z w s} (h : Canonical s) : CanonicalOut (execVsub g x y z w s) :=
  h.issueVector

protected theorem Canonical.execVmul {g x y z w s} (h : Canonical s) : CanonicalOut (execVmul g x y z w s) :=
  h.issueVector

protected theorem Canonical.execVfma {g x y z w s} (h : Canonical s) : CanonicalOut (execVfma g x y z w s) :=
  h.issueVector

protected theorem Canonical.execVmin {g x y z s} (h : Canonical s) : CanonicalOut (execVmin g x y z s) :=
  h.issueVector

protected theorem Canonical.execVmax {g x y z s} (h : Canonical s) : CanonicalOut (execVmax g x y z s) :=
  h.issueVector

protected theorem Canonical.execVabs {g x y w s} (h : Canonical s) : CanonicalOut (execVabs g x y w s) :=
  h.issueVector

protected theorem Canonical.execVneg {g x y w s} (h : Canonical s) : CanonicalOut (execVneg g x y w s) :=
  h.issueVector

protected theorem Canonical.execVcmp {g x y z k s} (h : Canonical s) : CanonicalOut (execVcmp g x y z k s) :=
  h.issueVector

protected theorem Canonical.execVsel {g x y z m s} (h : Canonical s) : CanonicalOut (execVsel g x y z m s) :=
  h.issueVector

protected theorem Canonical.execVand {g x y z s} (h : Canonical s) : CanonicalOut (execVand g x y z s) :=
  h.issueVector

protected theorem Canonical.execVor {g x y z s} (h : Canonical s) : CanonicalOut (execVor g x y z s) :=
  h.issueVector

protected theorem Canonical.execVxor {g x y z s} (h : Canonical s) : CanonicalOut (execVxor g x y z s) :=
  h.issueVector

protected theorem Canonical.execVsll {g x y z s} (h : Canonical s) : CanonicalOut (execVsll g x y z s) :=
  h.issueVector

protected theorem Canonical.execVsrl {g x y z s} (h : Canonical s) : CanonicalOut (execVsrl g x y z s) :=
  h.issueVector

protected theorem Canonical.execVsra {g x y z s} (h : Canonical s) : CanonicalOut (execVsra g x y z s) :=
  h.issueVector

protected theorem Canonical.execVcvt {g x y s} (h : Canonical s) : CanonicalOut (execVcvt g x y s) :=
  h.issueVector

protected theorem Canonical.execVqnt {g x y w f s} (h : Canonical s) : CanonicalOut (execVqnt g x y w f s) :=
  h.issueVector

protected theorem Canonical.execVdqnt {g x y z w u s} (h : Canonical s) : CanonicalOut (execVdqnt g x y z w u s) :=
  h.issueVector

protected theorem Canonical.execVred {g x y o f s} (h : Canonical s) : CanonicalOut (execVred g x y o f s) :=
  h.issueVector

protected theorem Canonical.execVscan {g x y o e s} (h : Canonical s) : CanonicalOut (execVscan g x y o e s) :=
  h.issueVector

protected theorem Canonical.execVperm {g x y z s} (h : Canonical s) : CanonicalOut (execVperm g x y z s) :=
  h.issueVector

protected theorem Canonical.execVbcst {g x y f s} (h : Canonical s) : CanonicalOut (execVbcst g x y f s) :=
  h.issueVector

protected theorem Canonical.execVmov {g x y s} (h : Canonical s) : CanonicalOut (execVmov g x y s) :=
  h.issueVector

protected theorem Canonical.execMand {g x y z s} (h : Canonical s) : CanonicalOut (execMand g x y z s) :=
  h.issueVector

protected theorem Canonical.execMor {g x y z s} (h : Canonical s) : CanonicalOut (execMor g x y z s) :=
  h.issueVector

protected theorem Canonical.execMxor {g x y z s} (h : Canonical s) : CanonicalOut (execMxor g x y z s) :=
  h.issueVector

protected theorem Canonical.execMnot {g x y s} (h : Canonical s) : CanonicalOut (execMnot g x y s) :=
  h.issueVector

protected theorem Canonical.execMset {g x y z s} (h : Canonical s) : CanonicalOut (execMset g x y z s) :=
  .ite h.trapAt.next h.issueVector

protected theorem Canonical.execMsetU {g x s} (h : Canonical s) : CanonicalOut (execMsetU g x s) :=
  h.issueVector

protected theorem Canonical.issueSpecial {k g x y z t s} (h : Canonical s) : CanonicalOut (issueSpecial k g x y z t s) :=
  h.issueVector

protected theorem Canonical.execVrcp {g x y z t s} (h : Canonical s) : CanonicalOut (execVrcp g x y z t s) :=
  h.issueSpecial

protected theorem Canonical.execVrsq {g x y z t s} (h : Canonical s) : CanonicalOut (execVrsq g x y z t s) :=
  h.issueSpecial

protected theorem Canonical.execVexp2 {g x y z t s} (h : Canonical s) : CanonicalOut (execVexp2 g x y z t s) :=
  h.issueSpecial

protected theorem Canonical.execVlog2 {g x y z t s} (h : Canonical s) : CanonicalOut (execVlog2 g x y z t s) :=
  h.issueSpecial

protected theorem Canonical.execVtanh {g x y z t s} (h : Canonical s) : CanonicalOut (execVtanh g x y z t s) :=
  h.issueSpecial

protected theorem Canonical.execVsigm {g x y z t s} (h : Canonical s) : CanonicalOut (execVsigm g x y z t s) :=
  h.issueSpecial

protected theorem Canonical.execVsin {g x y z t s} (h : Canonical s) : CanonicalOut (execVsin g x y z t s) :=
  h.issueSpecial

protected theorem Canonical.execVcos {g x y z t s} (h : Canonical s) : CanonicalOut (execVcos g x y z t s) :=
  h.issueSpecial

protected theorem Canonical.execBaddq {g x y z w f s} (h : Canonical s) : CanonicalOut (execBaddq g x y z w f s) :=
  h.issueVector

protected theorem Canonical.mergeLines {c l s} (h : Canonical s) : Canonical (mergeLines c l s) :=
  h.foldl fun _ _ h => h.readClock

protected theorem Canonical.execMcnt {d a s} (h : Canonical s) : CanonicalOut (execMcnt d a s) := by
  unfold execMcnt
  refine .ite h.wait.next ?_
  split
  · exact h.putNat.finish.next
  · split
    · exact .next (.finish (.putNat (.ite h h.mergeLines)))
    · exact h.trapLocal.next
    · exact h.wait.next

protected theorem Canonical.execVectorCommandTake {c s} (h : Canonical s) : CanonicalOut (execVectorCommandTake c s) := by
  unfold execVectorCommandTake
  extract_lets
  split
  · exact .ite h.taken.setCtxOf.spendOn.next h.taken.next
  · exact h.taken.next

protected theorem Canonical.groupDone {c sup x v r n num t s} (h : Canonical s) : CanonicalGroup (groupDone c sup x v r n num t s) :=
  h.setCtxOf.setCore.nextGroup

protected theorem Canonical.putRuns {c l s} (h : Canonical s) : Canonical (putRuns c l s) :=
  h.foldl fun _ _ h => h.writeRuns

protected theorem Canonical.readMaskClocks {c sup x v r s t} (ht : Canonical t) : Canonical (readMaskClocks c sup x v r s t) :=
  .ite ht ht.mergeLines

/-- What a part of a vector group comes to: where it ends the group early nothing has run; else what it has found satisfies `P`. -/
def GroupPart {α : Type} (P : α → Prop) : Except Group α → Prop
  | .ok a => P a
  | .error g => CanonicalGroup g

theorem GroupPart.bind {α β : Type} {P : α → Prop} {Q : β → Prop} {e : Except Group α} {f : α → Except Group β} (h : GroupPart P e)
    (hf : ∀ a, P a → GroupPart Q (f a)) : GroupPart Q (e >>= f) := by
  cases e with
  | ok a => exact hf a h
  | error g => exact h

/-- A part that ends a group early, as another part does that it stands for. -/
theorem GroupPart.of_error {α β : Type} {P : α → Prop} {Q : β → Prop} {e : Except Group α} {g : Group} (h : GroupPart P e) (he : e = .error g) :
    GroupPart Q (.error g : Except Group β) := by
  rw [he] at h
  exact h

protected theorem Canonical.readSources {c sup v k n l a} (h : Canonical a.s) : GroupPart (fun a => Canonical a.s) (readSources c sup v k n l a) := by
  induction l generalizing a with
  | nil => exact h
  | cons i t ih =>
    unfold readSources
    split
    · exact nofun
    · split
      · exact nofun
      · exact nofun
      next found =>
        have ht := h.locate _ _ _ found
        split
        · exact nofun
        · exact nofun
        · exact ih (.ite ht ht.mergeLines)

theorem groupPart_readMask {c sup k n a i} : GroupPart (fun _ => True) (readMask c sup k n a i) := by
  unfold readMask
  split
  · trivial
  · split
    · trivial
    · exact nofun
    · exact nofun

theorem groupPart_groupMasks {c sup v k n a} : GroupPart (fun _ => True) (groupMasks c sup v k n a) := by
  have operand : GroupPart (fun _ => True) (match v.env.mask with | some m => readMask c sup k n a m | none => .ok (List.replicate n true)) := by
    split
    · exact groupPart_readMask
    · trivial
  have selector : GroupPart (fun _ => True) (match v.op with | .sel m => readMask c sup k n a m | _ => .ok (List.replicate n true)) := by
    split
    · exact groupPart_readMask
    · trivial
  unfold groupMasks
  split
  next found => exact operand.of_error found
  next =>
    split
    next found => exact selector.of_error found
    next => trivial

protected theorem Canonical.destination {c sup v k n a} (h : Canonical a.s) : GroupPart (fun d => Canonical d.2.2.s) (destination c sup v k n a) := by
  unfold destination
  split
  · exact nofun
  · split
    · exact nofun
    · exact nofun
    next found =>
      split
      · exact nofun
      · exact nofun
      · exact h.locate _ _ _ found

theorem groupPart_maskDest {c sup v k n a} : GroupPart (fun _ => True) (maskDest c sup v k n a) := by
  unfold maskDest
  split
  · exact nofun
  · split
    · trivial
    · exact nofun
    · exact nofun

theorem groupPart_segRuns {s c sup x va l} : GroupPart (fun _ => True) (segRuns s c sup x va l) := by
  induction l generalizing va with
  | nil => trivial
  | cons b t ih =>
    unfold segRuns
    split
    · exact nofun
    · exact nofun
    · split
      next => trivial
      next found => exact ih.of_error found

protected theorem Canonical.segDest {c v k a} (h : Canonical a.s) : GroupPart (fun d => Canonical d.2.s) (segDest c v k a) := by
  unfold segDest
  split
  · exact nofun
  · split
    · exact nofun
    · exact nofun
    next found => exact h.locate _ _ _ found
    · exact nofun

protected theorem Canonical.elementGroup {c sup x v r s} (h : Canonical s) : GroupPart CanonicalGroup (elementGroup c sup x v r s) := by
  unfold elementGroup
  refine .bind h.readSources fun a ha => .bind groupPart_groupMasks fun m _ => .bind ha.destination fun d hd => ?_
  exact hd.writeElems.groupDone

protected theorem Canonical.reduceGroup {c sup x v r op s} (h : Canonical s) : GroupPart CanonicalGroup (reduceGroup c sup x v r op s) := by
  unfold reduceGroup
  exact .bind h.readSources fun a ha => .bind groupPart_groupMasks fun m _ => ha.groupDone

protected theorem Canonical.compareGroup {c sup x v r cond s} (h : Canonical s) : GroupPart CanonicalGroup (compareGroup c sup x v r cond s) := by
  unfold compareGroup
  exact .bind h.readSources fun a ha => .bind groupPart_groupMasks fun m _ => .bind groupPart_maskDest fun d _ => ha.writeBits.groupDone

protected theorem Canonical.maskGroup {c sup x v r k s} (h : Canonical s) : GroupPart CanonicalGroup (maskGroup c sup x v r k s) := by
  unfold maskGroup
  refine .bind groupPart_readMask fun y _ => ?_
  extract_lets rest
  have stored : ∀ z, GroupPart CanonicalGroup (rest z) := fun _ => .bind groupPart_maskDest fun _ _ => h.writeBits.groupDone
  split
  · exact stored []
  · exact .bind groupPart_readMask fun _ _ => stored _

protected theorem Canonical.quantGroup {c sup x v r fix wide s} (h : Canonical s) : GroupPart CanonicalGroup (quantGroup c sup x v r fix wide s) := by
  unfold quantGroup
  exact .bind h.readSources fun a ha => .bind ha.segDest fun d hd => .bind groupPart_segRuns fun l _ => hd.putRuns.groupDone

protected theorem Canonical.baddGroup {c sup x v r fix wide s} (h : Canonical s) : GroupPart CanonicalGroup (baddGroup c sup x v r fix wide s) := by
  unfold baddGroup
  refine .bind h.readSources fun a ha => ?_
  split
  · exact .bind ha.destination fun d hd => hd.writeElems.groupDone
  · exact .bind ha.segDest fun d hd => .bind groupPart_segRuns fun l _ => hd.putRuns.groupDone

theorem GroupPart.group {e : Except Group Group} (h : GroupPart CanonicalGroup e) : CanonicalGroup (Except.group e) := by
  cases e with
  | ok g => exact h
  | error g => exact h

protected theorem Canonical.runGroup {c sup x v r s} (h : Canonical s) : CanonicalGroup (runGroup c sup x v r s) := by
  have runs : GroupPart CanonicalGroup (match v.op with
      | .red op _ => reduceGroup c sup x v r op s
      | .cmp cond => compareGroup c sup x v r cond s
      | .mlogic k => maskGroup c sup x v r k s
      | .qnt fix wide => quantGroup c sup x v r fix wide s
      | .baddq fix wide => baddGroup c sup x v r fix wide s
      | _ => elementGroup c sup x v r s) := by
    split
    · exact h.reduceGroup
    · exact h.compareGroup
    · exact h.maskGroup
    · exact h.quantGroup
    · exact h.baddGroup
    · exact h.elementGroup
  unfold runGroup
  split
  next found => exact (runs.group _ _ found).readMaskClocks.nextGroup
  next => exact runs.group

protected theorem Canonical.spendGroup {c t s} (h : Canonical s) : Canonical (spendGroup c t s) :=
  .ite (.ite (.ite h h.spendFor) (.spendFor (.ite h h.spendFor))) (.spendFor (.ite (.ite h h.spendFor) (.spendFor (.ite h h.spendFor))))

protected theorem Canonical.execVectorGroup {c s} (h : Canonical s) : CanonicalOut (execVectorGroup c s) := by
  unfold execVectorGroup
  extract_lets
  split
  · split
    · exact h.taken.next
    · refine .ite h.taken.next ?_
      split
      next t _ found =>
        have ht : Canonical t := h.taken.runGroup _ _ found
        exact ht.spendGroup.next
      · exact h.taken.spendOn.next
      · exact h.taken.setCtxOf.spendOn.next
  · exact h.taken.next

protected theorem Canonical.execVectorCommandComplete {c s} (h : Canonical s) : CanonicalOut (execVectorCommandComplete c s) := by
  unfold execVectorCommandComplete
  extract_lets
  split
  · split
    · exact h.taken.next
    · refine .ite h.taken.next ?_
      extract_lets
      split
      · exact h.taken.setCtxOf.raiseImprecise.next
      · split
        · exact h.taken.setCtxOf.putNum.deliver.setCtxOf.next
        · exact h.taken.setCtxOf.putNum.next
  · exact h.taken.next

protected theorem Canonical.discardVector {c s} (h : Canonical s) : Canonical (discardVector c s) := by
  unfold discardVector
  extract_lets
  split
  · exact .ite h.spendOn.setCtxOf h
  · exact h

/-! ### The matrix unit -/

protected theorem Canonical.keepFault {c sup pc status elem s} (h : Canonical s) : Canonical (keepFault c sup pc status elem s) :=
  .ite h.setCtxOf h

protected theorem Canonical.matrixFault {c sup pc status elem s} (h : Canonical s) : Canonical (matrixFault c sup pc status elem s) := by
  unfold matrixFault
  extract_lets
  split
  · exact h.keepFault.raiseImprecise
  · exact h.keepFault

protected theorem Canonical.logErr {c sup recAddr pc e s} (h : Canonical s) : Canonical (logErr c sup recAddr pc e s) := by
  unfold logErr
  split
  · exact h.logMalformed
  · exact h.logFor
  · exact h

protected theorem Canonical.failMld {c sup m status elem s} (h : Canonical s) : Canonical (failMld c sup m status elem s) :=
  h.setCtxOf.matrixFault

protected theorem Canonical.matrixPage {c x st2 addr vpage wr s} (h : Canonical s) : Canonical (matrixPage c x st2 addr vpage wr s) := by
  unfold matrixPage
  split
  · exact .getD (.pageRequest (h.walkLost (fun _ _ h => h.lostToCtx))) (h.walkLost (fun _ _ h => h.lostToCtx))
  · exact h

protected theorem Canonical.noteRead {c sup s va} (h : Canonical s) : Canonical (noteRead c sup s va) := by
  unfold noteRead
  split
  · exact .ite h.mergeClock.lossRecord h.mergeClock
  · exact h

protected theorem Canonical.postPieces {c sup id m cap elem l s} (h : Canonical s) : Canonical (postPieces c sup id m cap elem l s) := by
  refine h.foldl fun t p ht => ?_
  split
  · exact ht
  · exact Canonical.foldl_fst ht fun _ _ h => h.post

protected theorem Canonical.stallMatrix {c cause datum s} (h : Canonical s) : Canonical (stallMatrix c cause datum s) :=
  h.settle.setCore

protected theorem Canonical.stallFill {c sup m s} (h : Canonical s) : Canonical (stallFill c sup m s) := by
  unfold stallFill
  split
  · refine .ite h.stallMatrix ?_
    split
    · exact .ite h.stallMatrix h.stallMatrix
    · exact h.stallMatrix
  · exact h.stallMatrix

protected theorem Canonical.popMatrix {c sup s} (h : Canonical s) : Canonical (popMatrix c sup s) :=
  h.setCtxOf

protected theorem Canonical.badHead {c sup m status elem s} (h : Canonical s) : Canonical (badHead c sup m status elem s).state :=
  h.popMatrix.matrixFault

protected theorem Canonical.matrixCycles {c n s} (h : Canonical s) : Canonical (matrixCycles c n s) :=
  h.spendFor

protected theorem Canonical.takeMclm {c sup m span s} (h : Canonical s) : Canonical (takeMclm c sup m span s).state := by
  unfold takeMclm
  extract_lets
  split
  · exact h.matrixCycles.badHead
  · split
    · exact h
    · exact h.matrixCycles.popMatrix.setCtxOf

protected theorem Canonical.takeMrel {c sup m s} (h : Canonical s) : Canonical (takeMrel c sup m s).state := by
  unfold takeMrel
  extract_lets
  split
  · exact h.matrixCycles.badHead
  · exact h.matrixCycles.popMatrix.setCtxOf

protected theorem Canonical.takeMld {c sup m o s} (h : Canonical s) : Canonical (takeMld c sup m o s).state := by
  unfold takeMld
  extract_lets
  split
  · exact h
  · split
    · exact h
    · split
      · exact h.matrixCycles.badHead
      · split
        · exact h.matrixCycles.popMatrix.logErr.failMld
        · extract_lets u s1 x1 x2 paged datum s2
          have queued : Canonical s2 := Canonical.setCtxOf (Canonical.popMatrix (Canonical.matrixCycles (.ite h.noteRead h)))
          clear_value s2
          split
          · exact queued.matrixPage
          · exact queued

protected theorem Canonical.takeMma {c sup m init decay rmk cmk int s} (h : Canonical s) :
    Canonical (takeMma c sup m init decay rmk cmk int s).state := by
  unfold takeMma
  extract_lets
  split
  · exact h
  · split
    · exact h
    · split
      · exact h.matrixCycles.badHead
      · split
        · exact h.matrixCycles.badHead
        · exact h.matrixCycles.popMatrix.setCtxOf

protected theorem Canonical.drainOne {c sup id m fl o u d} (h : Canonical d.s) : Canonical (drainOne c sup id m fl o u d).s := by
  unfold drainOne
  extract_lets
  split
  · exact h
  · split
    · exact h.setCtxOf.foldl fun _ _ h => h.postPieces
    · split
      · exact h
      · exact h.setCore.foldl fun _ _ h => h.postPieces

protected theorem Canonical.drainAll {c sup id m fl l d} (h : Canonical d.s) : Canonical (drainAll c sup id m fl l d).s := by
  induction l generalizing d with
  | nil => exact h
  | cons p t ih => exact ih h.drainOne

protected theorem Canonical.takeMdrn {c sup m t int o fl tl s} (h : Canonical s) : Canonical (takeMdrn c sup m t int o fl tl s).state := by
  unfold takeMdrn
  extract_lets
  split
  · exact h
  · split
    · exact h
    · split
      · exact h.matrixCycles.badHead
      · split
        · exact h.matrixPage
        · exact h
        · exact h
        · exact h.matrixCycles.logErr.badHead
        · split
          · exact h
          · extract_lets
            split
            · exact h.matrixCycles.badHead
            · exact .setCtxOf (.drainAll (.same (h.foldl fun _ _ h => h.noteRead) rfl rfl rfl rfl))

protected theorem Canonical.takeMspl {c sup m o s} (h : Canonical s) : Canonical (takeMspl c sup m o s).state := by
  unfold takeMspl
  extract_lets
  split
  · exact h
  · split
    · exact h
    · split
      · exact h.matrixCycles.badHead
      · exact .setCtxOf (.foldl (h.same rfl rfl rfl rfl) fun _ _ h => h.post)

protected theorem Canonical.takeMrst {c sup m o s} (h : Canonical s) : Canonical (takeMrst c sup m o s).state := by
  unfold takeMrst
  extract_lets
  split
  · exact h
  · split
    · exact h
    · split
      · exact h
      · split
        · exact h.matrixCycles.badHead
        · split
          · exact h.stallMatrix.matrixCycles.badHead
          · exact h
          · exact h.stallMatrix.matrixCycles.popMatrix.setCtxOf

protected theorem Canonical.takeMsnd {c sup m s} (h : Canonical s) : Canonical (takeMsnd c sup m s).state := by
  unfold takeMsnd
  extract_lets
  split
  · exact h.matrixCycles.badHead
  · split
    · exact h.matrixCycles.badHead
    · exact h.matrixCycles.popMatrix.setCtxOf.send.wakeCore

protected theorem Canonical.takeMzacc {c sup m s} (h : Canonical s) : Canonical (takeMzacc c sup m s).state :=
  h.matrixCycles.popMatrix.setCtxOf

protected theorem Canonical.takeMmov {c sup m k s} (h : Canonical s) : Canonical (takeMmov c sup m k s).state := by
  unfold takeMmov
  extract_lets
  split
  · exact h.matrixCycles.popMatrix.setCtxOf
  · split
    · exact h
    · exact h.matrixCycles.popMatrix.setCtxOf

protected theorem Canonical.takeHead {c sup m s} (h : Canonical s) : Canonical (takeHead c sup m s).state := by
  unfold takeHead
  split
  · exact h.takeMclm
  · exact h.takeMrel
  · exact h.takeMld
  · exact h.takeMma
  · exact h.takeMdrn
  · exact h.takeMspl
  · exact h.takeMrst
  · exact h.takeMsnd
  · exact h.takeMzacc
  · exact h.takeMmov

protected theorem Canonical.advanceQueue {c sup n s} (h : Canonical s) : Canonical (advanceQueue c sup n s) := by
  induction n generalizing s with
  | zero => exact h
  | succ n ih =>
    unfold advanceQueue
    refine .ite h ?_
    split
    · exact h
    · refine .ite h ?_
      split
      next found => exact (h.takeHead.of_eq found).stallMatrix
      next found => exact (h.takeHead.of_eq found).stallFill
      next found => exact ih (h.takeHead.of_eq found)

protected theorem Canonical.advanceMatrix {c s} (h : Canonical s) : Canonical (advanceMatrix c s) :=
  h.advanceQueue.advanceQueue

protected theorem Canonical.execBankPerform {id s} (h : Canonical s) : CanonicalOut (execBankPerform id s) := by
  unfold execBankPerform
  extract_lets
  split
  · exact .next (.ite h.taken.performPort h.taken)
  · exact h.taken.next

protected theorem Canonical.dropFill {c sup slot s} (h : Canonical s) : Canonical (dropFill c sup slot s) :=
  h.setCtxOf

protected theorem Canonical.fillDone {c sup m u rows s} (h : Canonical s) : Canonical (fillDone c sup m u rows s) :=
  h.setCtxOf

protected theorem Canonical.fillReads {s c sup u d} (h : Canonical s) : Canonical (fillReads s c sup u d) :=
  h.foldl fun _ _ h => h.noteRead

protected theorem Canonical.completeFill {c sup f s} (h : Canonical s) : Canonical (completeFill c sup f s) := by
  unfold completeFill
  refine .ite h.dropFill.failMld ?_
  extract_lets use note bad
  have noted : ∀ p u, Canonical (note p u) := fun _ _ => h.setCtxOf
  have failed : ∀ e i u, Canonical (bad e i u) := by
    intro e i u
    cases e with
    | page => exact (noted _ _).matrixPage
    | walk => exact noted _ _
    | held => exact noted _ _
    | bad => exact h.dropFill.logErr.failMld
  clear_value use
  split
  · exact failed _ _ _
  · refine .ite (noted _ _) ?_
    split
    · exact failed _ _ _
    · exact Canonical.fillDone (Canonical.dropFill (Canonical.fillReads (.ite h.noteRead h)))

protected theorem Canonical.execMldFillComplete {c slot s} (h : Canonical s) : CanonicalOut (execMldFillComplete c slot s) := by
  unfold execMldFillComplete
  refine .ite h.taken.next ?_
  extract_lets
  split
  · exact h.taken.next
  · exact h.taken.completeFill.advanceMatrix.next

protected theorem Canonical.execAccumulatorWriteback {c ac s} (h : Canonical s) : CanonicalOut (execAccumulatorWriteback c ac s) :=
  .ite h.taken.next (.ite h.taken.setCtxOf.advanceMatrix.next h.taken.next)

protected theorem Canonical.execMatrixStoreComplete {c s} (h : Canonical s) : CanonicalOut (execMatrixStoreComplete c s) := by
  unfold execMatrixStoreComplete
  refine .ite h.taken.next ?_
  extract_lets
  split
  · exact h.taken.next
  · exact .next (.advanceMatrix (.ite h.taken.setCtxOf h.taken.setCtxOf.matrixFault))

protected theorem Canonical.msndAnswer {r ok s} (h : Canonical s) : Canonical (msndAnswer r ok s) :=
  .ite h (h.onHome (fun _ h => .ite h.setCtxOf h.setCtxOf.matrixFault))

protected theorem Canonical.execMsndAccept {r s} (h : Canonical s) : CanonicalOut (execMsndAccept r s) := by
  unfold execMsndAccept
  refine .ite h.next (.ite h.next (.ite h.wakeCore.next (.ite h.taken.msndAnswer.next (.ite h.next ?_))))
  extract_lets
  split
  · exact h.taken.msndAnswer.next
  · exact h.taken.mergeClock.setCtxOf.msndAnswer.advanceMatrix.next

protected theorem Canonical.refuseMsnds {c s} (h : Canonical s) : Canonical (refuseMsnds c s) :=
  h.foldl fun _ _ h => by
      split
      · exact .ite h.taken.msndAnswer h
      · exact h

protected theorem Canonical.discardMatrix {c s} (h : Canonical s) : Canonical (discardMatrix c s) := by
  unfold discardMatrix
  extract_lets
  split
  · exact .ite h.spendFor.popMatrix.advanceMatrix h
  · exact h

protected theorem Canonical.execGuardFalseDiscard {c eng s} (h : Canonical s) : CanonicalOut (execGuardFalseDiscard c eng s) :=
  .ite h.taken.next (.next (.ite h.taken.discardVector (.ite h.taken.discardMatrix (.ite h.taken.discardCopy h.taken))))

protected theorem Canonical.retryMatrix {c s} (h : Canonical s) : Canonical (retryMatrix c s) :=
  h.advanceMatrix

protected theorem Canonical.failMatrix {c vpage wr s} (h : Canonical s) : Canonical (failMatrix c vpage wr s) := by
  unfold failMatrix
  extract_lets
  split
  · split
    · split
      · refine .ite ?_ h.setCtxOf
        split
        next t found =>
          have ht : Canonical t := h.setCtxOf.badHead.of_eq found
          exact ht.advanceMatrix
        · exact h.setCtxOf
      · exact h.setCtxOf
    · exact h.setCtxOf
  · exact h.setCtxOf

protected theorem Canonical.issueMatrix {i g k1 k2 k3 k4 s} (h : Canonical s) : CanonicalOut (issueMatrix i g k1 k2 k3 k4 s) := by
  unfold issueMatrix
  refine .ite h.wait.next ?_
  split
  · exact h.next
  · exact .ite h.trapWord.next h.finish.setCx.next

protected theorem Canonical.execMclm {g x p s} (h : Canonical s) : CanonicalOut (execMclm g x p s) :=
  h.issueMatrix

protected theorem Canonical.execMrel {g x s} (h : Canonical s) : CanonicalOut (execMrel g x s) :=
  h.issueMatrix

protected theorem Canonical.execMld {g x y z p r q s} (h : Canonical s) : CanonicalOut (execMld g x y z p r q s) :=
  h.issueMatrix

protected theorem Canonical.execMma {g x y z i c r e n s} (h : Canonical s) : CanonicalOut (execMma g x y z i c r e n s) :=
  h.issueMatrix

protected theorem Canonical.execMdrn {g x y z l f p r q i t s} (h : Canonical s) : CanonicalOut (execMdrn g x y z l f p r q i t s) :=
  h.issueMatrix

protected theorem Canonical.execMspl {g x y p r q s} (h : Canonical s) : CanonicalOut (execMspl g x y p r q s) :=
  h.issueMatrix

protected theorem Canonical.execMrst {g x y p r q s} (h : Canonical s) : CanonicalOut (execMrst g x y p r q s) :=
  h.issueMatrix

protected theorem Canonical.execMsnd {g x y z s} (h : Canonical s) : CanonicalOut (execMsnd g x y z s) :=
  h.issueMatrix

protected theorem Canonical.execMzacc {g x s} (h : Canonical s) : CanonicalOut (execMzacc g x s) :=
  h.issueMatrix

protected theorem Canonical.execMmov {g x y s} (h : Canonical s) : CanonicalOut (execMmov g x y s) :=
  h.issueMatrix

protected theorem Canonical.execMmovG {g x z s} (h : Canonical s) : CanonicalOut (execMmovG g x z s) :=
  h.issueMatrix

protected theorem Canonical.execMmovT {g x y s} (h : Canonical s) : CanonicalOut (execMmovT g x y s) :=
  h.issueMatrix

protected theorem Canonical.execGset {d a s} (h : Canonical s) : CanonicalOut (execGset d a s) :=
  h.finish.setCx.next

protected theorem Canonical.execMqry {d a s} (h : Canonical s) : CanonicalOut (execMqry d a s) := by
  unfold execMqry
  extract_lets
  split
  · exact h.putNat.finish.next
  · exact h.putNat.finish.next
  · exact h.putWord.finish.next
  · exact h.setCx.putWord.finish.next
  · exact h.putNat.finish.next
  · exact h.putNat.finish.next
  · exact h.putNat.finish.next

protected theorem Canonical.execMwait {d s} (h : Canonical s) : CanonicalOut (execMwait d s) :=
  .ite h.wait.next h.putWord.finish.next

/-! ### Banks -/

protected theorem Canonical.holdBy {gb key rcb s} (h : Canonical s) : Canonical (holdBy gb key rcb s) :=
  h.setBank

protected theorem Canonical.dropHolder {gb key s} (h : Canonical s) : Canonical (dropHolder gb key s) :=
  h.setBank

protected theorem Canonical.putEntry {c sup slot e s} (h : Canonical s) : Canonical (putEntry c sup slot e s) :=
  h.setCtxOf

protected theorem Canonical.loseReservations {c s} (h : Canonical s) : Canonical (loseReservations c s) :=
  h.same rfl rfl rfl rfl

protected theorem Canonical.stageAct {d kind status bank s} (h : Canonical s) : Canonical (stageAct d kind status bank s) := by
  unfold stageAct
  extract_lets
  split
  · exact h.setCx.putNat.finish
  · exact h

protected theorem Canonical.txBlocked {d t s} (h : Canonical s) : CanonicalOpt (txBlocked d t s) :=
  .ite h.putNat.finish.some (.ite h.trapWord.some nofun)

protected theorem Canonical.touchCluster {cl s} (h : Canonical s) : Canonical (touchCluster cl s) := by
  unfold touchCluster
  extract_lets
  split
  · exact h.setCluster
  · exact h

protected theorem Canonical.returnBank {gb s} (h : Canonical s) : Canonical (returnBank gb s) :=
  h.touchCluster.setBank.send

protected theorem Canonical.notify {c sup n s} (h : Canonical s) : Canonical (notify c sup n s) :=
  h.setCtxOf

protected theorem Canonical.revokeSaved {cl bank cause src srcSlot s p} (h : Canonical s) :
    Canonical (revokeSaved cl bank cause src srcSlot s p) := by
  unfold revokeSaved
  split
  · exact .ite h (.same (h.foldl fun _ _ h => .ite h.homeWriteNat h) rfl rfl rfl rfl)

protected theorem Canonical.revokeNotices {cl bank cause src srcSlot but s} (h : Canonical s) :
    Canonical (revokeNotices cl bank cause src srcSlot but s) :=
  .foldl (h.foldl fun _ _ h => .ite (.ite h h.setCtxOf) (.setCtxOf (.ite h h.setCtxOf))) fun _ _ h => h.revokeSaved

protected theorem Canonical.attApply {c sup a r s} (h : Canonical s) : Canonical (attApply c sup a r s) :=
  .ite h.putEntry.holdBy h.putEntry

protected theorem Canonical.execAtt {d a b s} (h : Canonical s) : CanonicalOut (execAtt d a b s) := by
  unfold execAtt
  extract_lets
  split
  · split
    next t found =>
      have ht : Canonical t := h.txBlocked _ found
      exact ht.next
    · exact h.stageAct.next
  · exact .next (.doneStatus (.ite h.attApply h))

end Sys2Proof.Machine
end

section
/-! SUPPORT. Every step keeps the memories canonical (O60): banks, launches, the sequencer, messages and tasks. -/

namespace Sys2Proof.Machine

open Sys2Proof.Claims

protected theorem Canonical.endAttachment {c sup slot cause s} (h : Canonical s) : Canonical (endAttachment c sup slot cause s) :=
  .ite h.putEntry.dropHolder.returnBank.revokeNotices h.putEntry.dropHolder

protected theorem Canonical.execDet {d a s} (h : Canonical s) : CanonicalOut (execDet d a s) := by
  unfold execDet
  extract_lets
  split
  next t found =>
    have ht : Canonical t := CanonicalOpt.bind (fun _ => h.txBlocked) _ found
    exact ht.next
  · exact .ite h.wait.next (.ite h.trapWord.next (.ite h.wait.next (.ite h.stageAct.next (.ite h.doneStatus.next (.next (.doneStatus (.ite h.endAttachment h.putEntry)))))))

protected theorem Canonical.handAccept {r s} (h : Canonical s) : Canonical (handAccept r s) := by
  unfold handAccept
  refine .notify (.putEntry (.holdBy (.setBank ?_)))
  split
  · exact h.setCore
  · exact h
  · exact h.putEntry
  · exact h.putEntry

protected theorem Canonical.execHand {d a b s} (h : Canonical s) : CanonicalOut (execHand d a b s) := by
  unfold execHand
  extract_lets
  split
  next t found =>
    have ht : Canonical t := CanonicalOpt.bind (fun _ => h.txBlocked) _ found
    exact ht.next
  · exact .ite (.next (.ite h.stageAct h.doneStatus)) (.ite h.trapWord.next (.ite h.wait.next (.ite h.stageAct.next h.putEntry.pendReg.finish.send.next)))

protected theorem Canonical.execHandoverRequest {r s} (h : Canonical s) : CanonicalOut (execHandoverRequest r s) :=
  .ite h.next (.ite h.next (.next (.send (.ite h.taken.handAccept h.taken))))

protected theorem Canonical.holdBank {c gb slot cls perm rcb s} (h : Canonical s) : Canonical (holdBank c gb slot cls perm rcb s).1 := by
  unfold holdBank
  extract_lets
  split
  · exact h.returnBank
  · exact h.setBank.setCore.touchCluster

protected theorem Canonical.revokeRecord {c alt refusal policy slot bank s} (h : Canonical s) :
    Canonical (revokeRecord c alt refusal policy slot bank s) :=
  h.logFor

protected theorem Canonical.settleBank {c slot hold refusal cause rec_ s} (h : Canonical s) :
    Canonical (settleBank c slot hold refusal cause rec_ s) := by
  unfold settleBank
  refine .ite (.revokeRecord (.revokeNotices ?_)) (.revokeNotices ?_)
  · split
    · exact h.putEntry.dropHolder
    · split
      · exact h.putEntry.dropHolder.holdBank
      · exact h.putEntry.dropHolder.returnBank
  · split
    · exact h.putEntry.dropHolder
    · split
      · exact h.putEntry.dropHolder.holdBank
      · exact h.putEntry.dropHolder.returnBank

protected theorem Canonical.dealEntry {c slot s} (h : Canonical s) : Canonical (dealEntry c slot s) :=
  .ite h.putEntry (.ite h.putEntry.send h.settleBank)

protected theorem Canonical.dealFrom {c n slot s} (h : Canonical s) : Canonical (dealFrom c n slot s) := by
  induction n generalizing slot s with
  | zero => exact h
  | succ n ih => exact ih h.dealEntry

protected theorem Canonical.dealTable {c s} (h : Canonical s) : Canonical (dealTable c s) :=
  .ite h h.dealFrom

protected theorem Canonical.execHandoverAnswer {a s} (h : Canonical s) : CanonicalOut (execHandoverAnswer a s) := by
  unfold execHandoverAnswer
  refine .ite h.next ?_
  extract_lets
  split
  · exact .ite (.next (.dealTable (.ite h.taken.putEntry h.taken))) (.next (.deliver (.ite h.taken.putEntry h.taken)))
  · exact .ite h.taken.revokeNotices.revokeRecord.next h.taken.settleBank.next
  · exact .next (.deliver (.ite (.dealTable (.ite h.taken.revokeNotices.revokeRecord (.ite h.taken.putEntry h.taken))) (.ite h.taken.revokeNotices.revokeRecord (.ite h.taken.putEntry h.taken))))
  · exact h.taken.deliver.next

protected theorem Canonical.revkSlot {d slot act tcore tslot s} (h : Canonical s) : Canonical (revkSlot d slot act tcore tslot s) := by
  unfold revkSlot
  refine .ite h.doneStatus (.ite h.wait ?_)
  split
  · exact h.settleBank.doneStatus
  · exact h.putEntry.pendReg.finish.send
  · exact .ite h.doneStatus h.putEntry.dropHolder.holdBy.putEntry.revokeNotices.revokeRecord.doneStatus
  · exact h.doneStatus

protected theorem Canonical.revkHold {d i act tcore tslot s} (h : Canonical s) : Canonical (revkHold d i act tcore tslot s) := by
  unfold revkHold
  extract_lets
  split
  · exact h.doneStatus
  · refine .ite h.wait ?_
    split
    · exact h.setCore.returnBank.doneStatus
    · exact h.pendReg.finish.send
    · exact .ite h.doneStatus h.setCore.holdBy.putEntry.doneStatus
    · exact h.doneStatus

protected theorem Canonical.execRevk {d a b s} (h : Canonical s) : CanonicalOut (execRevk d a b s) :=
  .ite h.trapWord.next (.ite h.revkHold.next h.revkSlot.next)

protected theorem Canonical.execBqry {d a s} (h : Canonical s) : CanonicalOut (execBqry d a s) :=
  .ite h.trapWord.next h.putNat.finish.next

protected theorem Canonical.execRing {d a b s} (h : Canonical s) : CanonicalOut (execRing d a b s) :=
  .ite h.trapWord.next (.ite h.doneStatus.next (.ite h.doneStatus.next (.ite h.doneStatus.next (.ite h.doneStatus.next (.ite h.wait.next (.ite h.wait.next (.ite h.setBank.putEntry.doneStatus.next (.ite h.setBank.putEntry.doneStatus.next h.doneStatus.next))))))))

protected theorem Canonical.zeroBank {gb s} (h : Canonical s) : Canonical (zeroBank gb s) := zeroBank_memoriesWf gb s h

protected theorem Canonical.execBankScrubDone {bank s} (h : Canonical s) : CanonicalOut (execBankScrubDone bank s) := by
  unfold execBankScrubDone
  refine .ite h.taken.next ?_
  extract_lets
  split
  · exact h.taken.setBank.zeroBank.next
  · exact h.taken.next

protected theorem Canonical.scrubNow {s gb} (h : Canonical s) : Canonical (scrubNow s gb) := by
  unfold scrubNow
  extract_lets
  split
  · exact h.taken.setBank.zeroBank
  · exact h

protected theorem Canonical.execCpoolWrite {cl v s} (h : Canonical s) : CanonicalOut (execCpoolWrite cl v s) := by
  have moved : ∀ k (l m : List Nat), Canonical (m.foldl (fun t b => zeroBank (512 * cl + b) t)
      (l.foldl (fun t b => scrubNow t (512 * cl + b)) (setCluster (taken (.cpoolWrite cl v) s) cl k))) :=
    fun _ _ _ => (h.taken.setCluster.foldl fun _ _ h => h.scrubNow).foldl fun _ _ h => h.zeroBank
  exact .ite h.taken.next (.ite h.taken.setCluster.next (.ite (.next (.ite (moved _ _ _).touchCluster (moved _ _ _))) h.taken.setCluster.next))

/-! ### Regions, launches and their instances -/

protected theorem Canonical.onInst {r f s} (h : Canonical s) : Canonical (onInst r f s) :=
  h.setDie

protected theorem Canonical.onLaunch {d id f s} (h : Canonical s) : Canonical (onLaunch d id f s) :=
  h.setDie

protected theorem Canonical.complete {fn r s} (h : Canonical s) : Canonical (complete fn r s) :=
  h.setFunc

protected theorem Canonical.execCompletionRecordWrite {fn s} (h : Canonical s) : CanonicalOut (execCompletionRecordWrite fn s) := by
  unfold execCompletionRecordWrite
  extract_lets
  split
  · exact .next (.ite h.taken.setFunc h.taken)
  · exact h.taken.next

protected theorem Canonical.noteRegion {d g fuel va n s} (h : Canonical s) : Canonical (noteRegion d g fuel va n s) := by
  induction fuel generalizing va n s with
  | zero => exact h
  | succ fuel ih =>
    unfold noteRegion
    refine .ite h (ih ?_)
    split
    · exact h.lostToRegion
    · exact h

protected theorem Canonical.noteExtent {d g va n s} (h : Canonical s) : Canonical (noteExtent d g va n s) :=
  h.noteRegion

protected theorem Canonical.saffronPage {d g st2 addr vpage wr s} (h : Canonical s) : Canonical (saffronPage d g st2 addr vpage wr s) :=
  .ite h (.getD (.pageRequest (h.walkLost (fun _ _ h => h.lostToRegion))) (h.walkLost (fun _ _ h => h.lostToRegion)))

protected theorem Canonical.noteLoad {d g addr s} (h : Canonical s) : Canonical (noteLoad d g addr s) := by
  unfold noteLoad
  split
  · exact h
  · exact .ite h.noteExtent h.noteExtent.noteExtent.noteExtent.noteExtent

protected theorem Canonical.storeTemplate {d t s} (h : Canonical s) : Canonical (storeTemplate d t s) :=
  .ite h h.setDie

protected theorem Canonical.writeDemand {l i s} (h : Canonical s) : Canonical (writeDemand l i s).1 := by
  unfold writeDemand
  split
  · exact h.homeWriteNat.lostToRegion
  · exact h.saffronPage
  · exact h

protected theorem Canonical.writeDemands {l is s} (h : Canonical s) : Canonical (writeDemands l is s) := by
  induction is generalizing s with
  | nil => exact h
  | cons i t ih => exact ih (.ite h.writeDemand.onInst h.writeDemand)

protected theorem Canonical.execDemandSweep {d id s} (h : Canonical s) : CanonicalOut (execDemandSweep d id s) := by
  unfold execDemandSweep
  extract_lets
  split
  · exact h.taken.next
  · exact .next (.ite h.taken.writeDemands h.taken.writeDemands.send)

protected theorem Canonical.endLaunch {d id s} (h : Canonical s) : Canonical (endLaunch d id s) := by
  unfold endLaunch
  split
  · exact h
  · exact .ite h.setDie.complete h

protected theorem Canonical.decrement {target byNode early c pc s} (h : Canonical s) : Canonical (decrement target byNode early c pc s).1 := by
  unfold decrement
  split
  · split
    · exact h.domainLog
    · exact h.onInst
  · exact h

protected theorem Canonical.admitLaunch {d l is s} (h : Canonical s) : Canonical (admitLaunch d l is s) :=
  h.storeTemplate.setDie.send

protected theorem Canonical.spawnLoads {d r region s} (h : Canonical s) : Canonical (spawnLoads d r region s) := by
  unfold spawnLoads
  split
  · exact h
  · extract_lets
    split
    · exact h.noteLoad.noteExtent.storeTemplate
    · exact h.noteLoad

protected theorem Canonical.forgetPage {d g vpage s} (h : Canonical s) : Canonical (forgetPage d g vpage s) :=
  h.setDie

/-! ### The turn of a sequencer -/

protected theorem Canonical.turn {s} (h : Canonical s) : Canonical (turn s) := by
  unfold turn
  split
  · exact h
  · exact h.same rfl rfl rfl rfl

protected theorem Canonical.idleTurn {cause s} (h : Canonical s) : Canonical (idleTurn cause s) :=
  h.spendOn

protected theorem Canonical.commitResident {s} (h : Canonical s) : Canonical (commitResident s) := by
  unfold commitResident
  split
  · exact h.commitAccounts
  · exact h

protected theorem Canonical.takeImprecise {s} (h : Canonical s) : Canonical (takeImprecise s) := by
  unfold takeImprecise
  extract_lets
  split
  · exact h.setCx.spend.takeTrap
  · exact h

protected theorem Canonical.takeResult {f s} (h : Canonical s) : Canonical (takeResult f s) := by
  unfold takeResult
  split
  · exact h.wait
  · split
    · exact h.putNat.finish
    · exact h.finish

protected theorem Canonical.fetchDecode {s} (h : Canonical s) : Canonical (fetchDecode s).state := by
  unfold fetchDecode
  extract_lets k x raw nolorn fwd x1 eff w word s1
  have fetched : Canonical s1 := h.setCore.setCx
  clear_value s1 word w eff x1 fwd
  split
  · exact fetched.trapWord
  · split
    · exact fetched.trapWord
    · exact fetched.trapWord
    · exact fetched.trapWord
    · exact fetched.trapWord
    · split
      · exact fetched.wait
      · split
        · split
          · exact fetched.takeResult
          · exact fetched
        · split
          · split
            · exact fetched.trapWord
            · exact fetched
          · exact fetched

protected theorem Canonical.takeBreakpoint {act idx addr s} (h : Canonical s) : Canonical (takeBreakpoint act idx addr s) :=
  .ite h.spend.haltUser h.trapAt

protected theorem Canonical.boundary {s} (h : Canonical s) : Canonical (boundary s).state := by
  unfold boundary
  extract_lets
  split
  · exact h.fetchDecode
  · split
    · exact h.takeImprecise
    · split
      · exact h.takeBreakpoint
      · exact h.wait
      · exact h.fetchDecode

protected theorem Canonical.userTurn {s} (h : Canonical s) : Canonical (userTurn s).state := by
  unfold userTurn
  extract_lets
  split
  · exact h.boundary
  · exact h.boundary
  · exact .ite h.wait h.takeImprecise
  · split
    · exact h.wait
    · exact h.boundary
  · split
    · exact h.boundary
    · split
      · exact .ite h.takeImprecise h.wait
      · exact h.setCore.boundary

protected theorem Canonical.prepare {s} (h : Canonical s) : Canonical (prepare s).state := by
  unfold prepare
  extract_lets
  split
  · exact h.turn
  · split
    · split
      · split
        · exact h.turn.idleTurn
        · split
          · exact h.turn.commitResident
          · exact h.turn.setCore.boundary
      · split
        · split
          · exact h.turn.commitResident
          · exact h.turn.setCore.userTurn
        · exact .ite h.turn.commitResident h.turn.idleTurn
    · exact h.turn.idleTurn

protected theorem Canonical.forwardTo {s0 l cs s} (h : Canonical s) : Canonical (forwardTo s0 l cs s) := by
  induction cs generalizing s with
  | nil => exact h
  | cons c t ih =>
    unfold forwardTo
    split
    · exact ih h.setCore
    · exact ih h

protected theorem Canonical.forward {s0 t c fs} (ht : Canonical t) : Canonical (forward s0 t c fs) :=
  .ite ht.setCore.forwardTo ht.setCore

protected theorem Canonical.afterUser {s0 t c} (ht : Canonical t) : Canonical (afterUser s0 t c) := by
  unfold afterUser
  refine .ite (.haltUser ?_) ?_
  · split
    · exact ht.forward
    · split
      · exact .ite ht.setCtxOf ht
      · exact ht
    · exact ht
  · split
    · exact ht.forward
    · split
      · exact .ite ht.setCtxOf ht
      · exact ht
    · exact ht

protected theorem Canonical.afterIssue {s0 t} (ht : Canonical t) : Canonical (afterIssue s0 t) :=
  .ite ht (.ite ht.setCtxOf ht.setCtxOf.afterUser)

/-! ### Messages, barriers and chains -/

protected theorem Canonical.releasing {scope f s} (h : Canonical s) (hf : ∀ t, Canonical t → CanonicalOut (f t)) :
    CanonicalOut (releasing scope f s) :=
  .ite (hf _ h) h.wait.next

protected theorem Canonical.execFence {n s} (h : Canonical s) : CanonicalOut (execFence n s) :=
  h.releasing (fun _ h => h.finish.next)

protected theorem Canonical.completeWord {c sup f s} (h : Canonical s) : Canonical (completeWord c sup f s) := by
  unfold completeWord
  extract_lets s1 s2 k s3
  have set : Canonical s1 := h.setCtxOf
  have here : Canonical s2 := set.same rfl rfl rfl rfl
  have finished : Canonical (finish s3) := here.setCore.finish
  split
  · exact finished.afterIssue.same rfl rfl rfl rfl
  · exact .ite set.setCtxOf (Canonical.afterUser set.setCtxOf)

protected theorem Canonical.answerSend {m st s} (h : Canonical s) : Canonical (answerSend m st s) := by
  unfold answerSend
  split
  · exact h
  · exact h.onHome (fun _ h => h.setCtxOf.deliver)

protected theorem Canonical.acceptMsg {m s} (h : Canonical s) : Canonical (acceptMsg m s) :=
  h.notify.answerSend

protected theorem Canonical.admitAll {c l s} (h : Canonical s) : Canonical (admitAll c l s) := by
  induction l generalizing s with
  | nil => exact h.setCore
  | cons m t ih => exact .ite (ih h.answerSend) (.ite (ih h.acceptMsg) h.setCore)

protected theorem Canonical.letIn {c s} (h : Canonical s) : Canonical (letIn c s) :=
  .ite h h.admitAll

protected theorem Canonical.letInAll {s} (h : Canonical s) : Canonical (letInAll s) :=
  h.foldl fun _ _ h => h.letIn

protected theorem Canonical.execSend {d a b n s} (h : Canonical s) : CanonicalOut (execSend d a b n s) := by
  unfold execSend
  extract_lets m tagged
  clear_value m
  split
  · split
    next t found => exact Canonical.next (h.txBlocked _ found)
    · split
      · exact h.stageAct.next
      · exact h.stageAct.next
  · refine h.releasing fun t ht => .ite ht.wait.next ?_
    split
    · exact ht.putNat.finish.next
    · exact .ite ht.putNat.finish.next ht.pendReg.send.wakeCore.setCx.finish.next

protected theorem Canonical.execMessageArrival {m s} (h : Canonical s) : CanonicalOut (execMessageArrival m s) :=
  .ite h.next (.ite h.next (.ite h.wakeCore.next h.taken.mergeClock.admitAll.next))

protected theorem Canonical.completeRecv {c sup p payload src tag clk s} (h : Canonical s) :
    Canonical (completeRecv c sup p payload src tag clk s) := by
  unfold completeRecv
  refine .setCtxOf ?_
  split
  · exact h.writePlace.setLocationClock
  · exact h

protected theorem Canonical.takeTagged {m s} (h : Canonical s) : Canonical (takeTagged m s) := by
  unfold takeTagged
  refine .ite h.answerSend ?_
  extract_lets
  split
  · exact h.completeRecv.answerSend
  · exact .ite h.setCtxOf.answerSend h.logFor.raiseImprecise.answerSend

protected theorem Canonical.execTaggedMessageArrival {m s} (h : Canonical s) : CanonicalOut (execTaggedMessageArrival m s) :=
  .ite h.next (.ite h.next (.ite h.wakeCore.next h.taken.mergeClock.takeTagged.next))

protected theorem Canonical.execPrecv {d a b s} (h : Canonical s) : CanonicalOut (execPrecv d a b s) := by
  unfold execPrecv
  extract_lets
  split
  · exact h.putNat.finish.next
  · refine .ite h.putNat.finish.next (.ite h.putNat.finish.next (.next (.finish (.putNat ?_))))
    split
    · exact h.setCx.completeRecv
    · exact h.setCx

protected theorem Canonical.probeOf {d a incomplete s} (h : Canonical s) (hincomplete : ∀ a t, Canonical t → CanonicalOut (incomplete a t)) :
    CanonicalOut (probeOf d a incomplete s) := by
  unfold probeOf
  extract_lets
  split
  · exact h.putNat.finish.next
  · split
    · exact h.setCx.putNat.finish.next
    · exact hincomplete _ _ h

protected theorem Canonical.execProbeT {d a s} (h : Canonical s) : CanonicalOut (execProbeT d a s) :=
  h.probeOf (fun _ _ h => h.putNat.finish.next)

protected theorem Canonical.execProbe {d a b s} (h : Canonical s) : CanonicalOut (execProbe d a b s) :=
  h.probeOf (fun _ _ h => by
      split
      · exact h.wait.next
      · exact h.waitIn.next)

protected theorem Canonical.execProbeTimeout {c s} (h : Canonical s) : CanonicalOut (execProbeTimeout c s) := by
  unfold execProbeTimeout
  refine .ite h.taken.next ?_
  extract_lets one
  have kept : ∀ sup t, Canonical t → Canonical (one sup t) := by
    intro sup t ht
    unfold one
    extract_lets
    split
    · exact .ite ht.completeWord ht
    · exact ht
  exact (kept _ _ (kept _ _ h.taken)).next

protected theorem Canonical.takeBlock {c payload s} (h : Canonical s) : Canonical (takeBlock c payload s) :=
  h.same rfl rfl rfl rfl

protected theorem Canonical.takeItem {c sup i s} (h : Canonical s) : Canonical (takeItem c sup i s) := by
  unfold takeItem
  split
  · exact h
  · exact h.takeBlock
  · exact .ite h.putEntry h

protected theorem Canonical.recvItem {d m empty s} (h : Canonical s) (hempty : ∀ t, Canonical t → CanonicalOut (empty t)) :
    CanonicalOut (recvItem d m empty s) := by
  unfold recvItem
  extract_lets
  split
  · exact hempty _ h
  · exact h.setCx.takeItem.letIn.putWord.putNat.finish.next

protected theorem Canonical.execRecv {d a b s} (h : Canonical s) : CanonicalOut (execRecv d a b s) :=
  h.recvItem (fun _ h => by
      split
      · exact h.wait.next
      · exact h.waitIn.next)

protected theorem Canonical.execRecvT {d a s} (h : Canonical s) : CanonicalOut (execRecvT d a s) :=
  h.recvItem (fun _ h => h.putWord.putNat.finish.next)

protected theorem Canonical.execRecvTimeout {c s} (h : Canonical s) : CanonicalOut (execRecvTimeout c s) := by
  unfold execRecvTimeout
  refine .ite h.taken.next ?_
  extract_lets one
  have kept : ∀ sup t, Canonical t → Canonical (one sup t) := by
    intro sup t ht
    unfold one
    extract_lets
    split
    · exact .ite ht.completeWord ht
    · exact ht
  exact (kept _ _ (kept _ _ h.taken)).next

protected theorem Canonical.execIdle {s} (h : Canonical s) : CanonicalOut (execIdle s) :=
  .ite h.trapWord.next (.ite h.wait.next h.finish.next)

protected theorem Canonical.portWait {port s} (h : Canonical s) : Canonical (portWait port s) := by
  unfold portWait
  split
  · exact h.wait
  · split
    · exact h.waitIn
    · exact h.waitIn

protected theorem Canonical.portSend {port w s} (h : Canonical s) : Canonical (portSend port w s) := by
  unfold portSend
  split
  · exact h.send
  · exact h

protected theorem Canonical.execSendPort {a b s} (h : Canonical s) : CanonicalOut (execSendPort a b s) :=
  .ite h.trapWord.next (.ite h.portSend.finish.next h.portWait.next)

protected theorem Canonical.popPort {port f s} (h : Canonical s) (hf : ∀ a t, Canonical t → CanonicalOut (f a t)) :
    CanonicalOut (popPort port f s) := by
  unfold popPort
  extract_lets
  split
  · exact h.portWait.next
  · exact hf _ _ h.setCx

protected theorem Canonical.execRecvPort {d b s} (h : Canonical s) : CanonicalOut (execRecvPort d b s) :=
  h.popPort (fun _ _ h => h.putWord.finish.next)

protected theorem Canonical.execRecvF {d a b s} (h : Canonical s) : CanonicalOut (execRecvF d a b s) :=
  .ite h.portWait.next (h.popPort (fun _ _ h => h.portSend.putWord.finish.next))

protected theorem Canonical.execPortWordArrival {c port w s} (h : Canonical s) : CanonicalOut (execPortWordArrival c port w s) := by
  unfold execPortWordArrival
  refine .ite h.next (.ite h.next ?_)
  extract_lets
  split
  · exact h.taken.next
  · exact h.taken.setCtxOf.next

protected theorem Canonical.execWaitForProbe {c s} (h : Canonical s) : CanonicalOut (execWaitForProbe c s) := by
  unfold execWaitForProbe
  refine .ite h.taken.next ?_
  split
  · exact .next (.ite h.taken h.taken.send)
  · exact h.taken.next

protected theorem Canonical.markReported {s c} (h : Canonical s) : Canonical (markReported s c) :=
  h.setCtxOf

protected theorem Canonical.execReceiveCycle {cores s} (h : Canonical s) : CanonicalOut (execReceiveCycle cores s) := by
  unfold execReceiveCycle
  extract_lets
  split
  · exact h.taken.next
  · exact .ite h.taken.next (.ite h.taken.next (.next (.logFor (h.taken.foldl fun _ _ h => h.markReported))))

protected theorem Canonical.arriveAt {d key n s} (h : Canonical s) : Canonical (arriveAt d key n s) := by
  unfold arriveAt
  extract_lets
  split
  · exact .waitIn (.ite (.send (h.same rfl rfl rfl rfl)) (h.same rfl rfl rfl rfl))
  · exact .ite h.wait (.ite h.putNat.finish (.waitIn (.ite (.send (h.same rfl rfl rfl rfl)) (h.same rfl rfl rfl rfl))))

protected theorem Canonical.execBar {d a s} (h : Canonical s) : CanonicalOut (execBar d a s) := by
  unfold execBar
  refine .ite h.trapWord.next ?_
  split
  · exact h.wait.next
  · exact .ite h.putNat.finish.next (h.releasing (fun _ h => h.arriveAt.next))

protected theorem Canonical.leaveAll {key i l s} (h : Canonical s) : Canonical (leaveAll key i l s) := by
  induction l generalizing i s with
  | nil => exact h
  | cons p t ih =>
    unfold leaveAll
    refine ih ?_
    split
    · exact .ite h.completeWord h
    · exact h

protected theorem Canonical.execBarrierLeave {key s} (h : Canonical s) : CanonicalOut (execBarrierLeave key s) := by
  unfold execBarrierLeave
  extract_lets
  split
  · exact .ite (.next (.leaveAll (h.same rfl rfl rfl rfl))) h.taken.next
  · exact h.taken.next

protected theorem Canonical.withdraw {c sup s} (h : Canonical s) : Canonical (withdraw c sup s) := by
  unfold withdraw
  split
  · split
    · exact .ite h (h.same rfl rfl rfl rfl)
    · exact h
  · exact h

protected theorem Canonical.execFollow {d a b s} (h : Canonical s) : CanonicalOut (execFollow d a b s) :=
  .ite h.trapWord.next (.ite h.putNat.finish.next (.ite h.putNat.finish.next h.setCx.putNat.finish.next))

protected theorem Canonical.execLead {d a b s} (h : Canonical s) : CanonicalOut (execLead d a b s) := by
  unfold execLead
  refine .ite h.trapWord.next (.ite h.putNat.finish.next (.ite h.trapAt.next ?_))
  split
  · exact h.trapLocal.next
  · exact h.wait.next
  · refine .ite h.putNat.finish.next (.ite h.putNat.finish.next ?_)
    split
    · exact h.trapLocal.next
    · exact h.wait.next
    · exact h.releasing (fun _ h => .next (.finish (.pendReg (h.same rfl rfl rfl rfl))))

protected theorem Canonical.passLine {l ok s} (h : Canonical s) : Canonical (passLine l ok s) := by
  unfold passLine
  extract_lets
  split
  · exact .ite h.deliver h
  · exact h.send

protected theorem Canonical.performLine {l c sup r rest s} (h : Canonical s) : Canonical (performLine l c sup r rest s) := by
  unfold performLine
  refine .ite h.setCtxOf.passLine ?_
  split
  · exact .passLine (.ite h.writeRuns.addBarrier.setCtxOf h.writeRuns.addBarrier.setCtxOf)
  · exact h.setCtxOf.passLine

protected theorem Canonical.execChainLineArrival {l s} (h : Canonical s) : CanonicalOut (execChainLineArrival l s) := by
  unfold execChainLineArrival
  refine .ite h.next (.ite h.next ?_)
  split
  · exact h.taken.next
  · extract_lets
    split
    · exact h.taken.passLine.next
    · refine .ite h.taken.passLine.next ?_
      split
      · exact h.taken.performLine.next
      · exact .next (.ite h h.taken.passLine)

protected theorem Canonical.execForwardedWordIssue {c s} (h : Canonical s) : CanonicalOut (execForwardedWordIssue c s) := by
  unfold execForwardedWordIssue
  refine .ite h.taken.next ?_
  extract_lets
  split
  · exact .ite (.next (h.same rfl rfl rfl rfl)) h.taken.next
  · exact h.taken.next

protected theorem Canonical.execBlockNoticeArrival {b s} (h : Canonical s) : CanonicalOut (execBlockNoticeArrival b s) := by
  unfold execBlockNoticeArrival
  refine .ite h.next (.ite h.taken.next (.ite (.next (.ite h h.send)) (.ite (.next (.ite h h.send)) ?_)))
  extract_lets size addr s1 s2 g s3
  have stored : Canonical s2 := by
    unfold s2
    split
    · exact h.taken.writeRuns
    · exact h.taken
  have moved : Canonical s3 := stored.same rfl rfl rfl rfl
  exact moved.notify.next

/-! ### Tasks -/

protected theorem Canonical.execTdem {d a b n s} (h : Canonical s) : CanonicalOut (execTdem d a b n s) :=
  h.putNat.finish.next

protected theorem Canonical.execTerr {d a b n s} (h : Canonical s) : CanonicalOut (execTerr d a b n s) :=
  h.putNat.finish.next

protected theorem Canonical.execTqry {d a w s} (h : Canonical s) : CanonicalOut (execTqry d a w s) := by
  unfold execTqry
  refine .ite h.trapAt.next ?_
  split
  · exact h.trapLocal.next
  · exact h.wait.next
  · exact h.watched (fun _ h => h.watched (fun _ h => by
      extract_lets
      split
      · exact h.trapCmd.next
      · exact h.putNat.finish.next))

protected theorem Canonical.releaseEntry {l s r} (h : Canonical s) : Canonical (releaseEntry l s r) :=
  .ite h.onInst h

protected theorem Canonical.releasePreds {l r s} (h : Canonical s) : Canonical (releasePreds l r s) :=
  h.foldl fun _ _ h => h.releaseEntry

protected theorem Canonical.answerTred {r rank st s} (h : Canonical s) : Canonical (answerTred r rank st s) :=
  h.onInst

protected theorem Canonical.answerAll {r st l s} (h : Canonical s) : Canonical (answerAll r st l s) := by
  induction l generalizing s with
  | nil => exact h
  | cons p t ih => exact ih h.answerTred

protected theorem Canonical.execRedemand {r s} (h : Canonical s) : CanonicalOut (execRedemand r s) := by
  unfold execRedemand
  extract_lets
  split
  · exact h.taken.next
  · split
    · exact h.taken.answerTred.next
    · refine .ite h.taken.answerTred.next ?_
      split
      · exact .ite h.writeDemand.taken.onInst.next h.writeDemand.taken.send.next
      · exact h.taken.answerTred.next

protected theorem Canonical.endTred {d i c st upol s} (h : Canonical s) : Canonical (endTred d i c st upol s) :=
  .ite h.trapAt h.setCx.putNat.finish

protected theorem Canonical.execTred {d a b s} (h : Canonical s) : CanonicalOut (execTred d a b s) := by
  unfold execTred
  refine .ite h.trapWord.next ?_
  split
  · exact h.endTred.next
  · refine .ite h.endTred.next ?_
    split
    · exact h.send.answerTred.wait.next
    · exact h.wait.next
    · exact h.onInst.endTred.next

protected theorem Canonical.execTdec {d a s} (h : Canonical s) : CanonicalOut (execTdec d a s) := by
  unfold execTdec
  extract_lets
  split
  · split
    next t found =>
      have ht : Canonical t := h.txBlocked _ found
      exact ht.next
    · exact h.stageAct.next
  · exact h.releasing (fun _ h => by
      split
      · exact h.onInst.send.pendReg.finish.next
      · exact h.putNat.finish.next)

protected theorem Canonical.execDependenceDecrement {r s} (h : Canonical s) : CanonicalOut (execDependenceDecrement r s) := by
  unfold execDependenceDecrement
  refine .ite h.next ?_
  extract_lets
  split
  · exact h.taken.decrement.deliver.next
  · exact h.taken.decrement.next

protected theorem Canonical.expandSpawn {r s} (h : Canonical s) : Canonical (expandSpawn r s).1 := by
  unfold expandSpawn
  extract_lets
  split
  · exact h.forgetPage
  · split
    · exact h.spawnLoads
    · exact h.spawnLoads.admitLaunch
    · split
      · exact h.spawnLoads.forgetPage.saffronPage
      · exact h.spawnLoads

protected theorem Canonical.execTspawnExpansion {r s} (h : Canonical s) : CanonicalOut (execTspawnExpansion r s) := by
  unfold execTspawnExpansion
  refine .ite h.next ?_
  extract_lets
  split
  next t _ found =>
    have ht : Canonical t := h.taken.expandSpawn.of_eq found
    exact ht.deliver.next
  next t _ found =>
    have ht : Canonical t := h.taken.expandSpawn.of_eq found
    exact ht.send.next

protected theorem Canonical.execTspawn {d a b s} (h : Canonical s) : CanonicalOut (execTspawn d a b s) := by
  unfold execTspawn
  split
  · split
    next t found =>
      have ht : Canonical t := h.txBlocked _ found
      exact ht.next
    · exact h.stageAct.next
  · exact h.releasing (fun _ h => h.send.pendReg.finish.next)

protected theorem Canonical.rehomeAll {src dst s} (h : Canonical s) : Canonical (rehomeAll src dst s) :=
  h.same rfl rfl rfl rfl

protected theorem Canonical.detachUser {c s} (h : Canonical s) : Canonical (detachUser c s) :=
  .loseReservations (.withdraw (h.same rfl rfl rfl rfl))

protected theorem Canonical.dropWaits {c s} (h : Canonical s) : Canonical (dropWaits c s) :=
  h.same rfl rfl rfl rfl

protected theorem Canonical.writeTrace {buf r s} (h : Canonical s) : Canonical (writeTrace buf r s).1 := by
  unfold writeTrace
  extract_lets
  split
  · exact h
  · split
    · exact h.homeWriteNat.homeWriteNat
    · exact h.homeWriteNat

protected theorem Canonical.flushTrace {c sup s} (h : Canonical s) : Canonical (flushTrace c sup s) := by
  unfold flushTrace
  extract_lets x d s1 r y
  have written : Canonical r.1 := Canonical.foldl_fst h.lostToCtx fun _ _ ht => ht.writeTrace
  exact written.setCtxOf

protected theorem Canonical.emptyUser {c s} (h : Canonical s) : Canonical (emptyUser c s) :=
  .markIdle (.letIn (.setCore (h.dropWaits.refuseMsnds.settle.same rfl rfl rfl rfl)))

protected theorem Canonical.clearUser {c s} (h : Canonical s) : Canonical (clearUser c s) :=
  h.flushTrace.detachUser.emptyUser

protected theorem Canonical.disposeNow {c slot s} (h : Canonical s) : Canonical (disposeNow c slot s) :=
  .ite h.putEntry (.ite (.ite h.handAccept.revokeNotices h.settleBank) h.settleBank)

protected theorem Canonical.disposeTable {c n slot s} (h : Canonical s) : Canonical (disposeTable c n slot s) := by
  induction n generalizing slot s with
  | zero => exact h
  | succ n ih => exact ih h.disposeNow

protected theorem Canonical.parkEntry {c mask slot i succs s} (h : Canonical s) : Canonical (parkEntry c mask slot i succs s) :=
  .ite h.disposeNow (.ite h.logFor.disposeNow h.setBank.putEntry)

protected theorem Canonical.parkTable {c mask i succs n slot s} (h : Canonical s) : Canonical (parkTable c mask i succs n slot s) := by
  induction n generalizing slot s with
  | zero => exact h
  | succ n ih => exact ih h.parkEntry

protected theorem Canonical.unpark {i s} (h : Canonical s) : Canonical (unpark i s) :=
  h.foldl fun _ _ h => by
      split
      · exact .ite h.returnBank h
      · exact h

protected theorem Canonical.setDeficit {rcb v s} (h : Canonical s) : Canonical (setDeficit rcb v s) :=
  h.homeWriteNat.lostToMgmt

protected theorem Canonical.settleDeficit {rcb resid s} (h : Canonical s) : Canonical (settleDeficit rcb resid s) :=
  h.setDeficit

protected theorem Canonical.decrementAll {i c j l s} (h : Canonical s) : Canonical (decrementAll i c j l s) := by
  induction l generalizing j s with
  | nil => exact h
  | cons n t ih => exact ih (.ite h h.decrement)

protected theorem Canonical.endRerun {i l s} (h : Canonical s) : Canonical (endRerun i l s) :=
  .ite h.answerAll.onInst.releaseEntry (.ite h.answerAll.writeDemand.onInst h.answerAll.writeDemand.onInst.send)

protected theorem Canonical.retire {i l n c s} (h : Canonical s) : Canonical (retire i l n c s) :=
  .ite h.settleDeficit.endRerun h.settleDeficit.decrementAll.onInst.onLaunch.releaseEntry.releasePreds

protected theorem Canonical.endFollower {s f} (h : Canonical s) : Canonical (endFollower s f) :=
  h.disposeTable.commitAccounts.clearUser

protected theorem Canonical.disposeSaved {c a x s slot} (h : Canonical s) : Canonical (disposeSaved c a x s slot) := by
  unfold disposeSaved
  refine .ite h ?_
  extract_lets gb rcb s1 last y r st heir q
  have left : Canonical s1 := h.dropHolder
  have disposed : Canonical q.1 := by
    unfold q
    split
    · exact left.handAccept
    · split
      · exact left
      · split
        · exact left.returnBank
        · exact left.holdBank
  exact disposed.revokeNotices.logFor

protected theorem Canonical.killSaved {cause val rerun d a s} (h : Canonical s) : Canonical (killSaved cause val rerun d a s) := by
  unfold killSaved
  extract_lets s1
  have cut : Canonical s1 := h.same rfl rfl rfl rfl
  split
  · exact cut
  · extract_lets s2 s3 s4 s5 y
    have disposed : Canonical s2 := cut.foldl fun _ _ ht => ht.disposeSaved
    have counted : Canonical s3 := by
      unfold s3
      split
      · exact .ite disposed disposed.homeAdd64
      · exact disposed
    have rehomed : Canonical s5 := .rehomeAll (.ite counted.logFor.logFor counted.logFor)
    exact .setDie (rehomed.same rfl rfl rfl rfl)

protected theorem Canonical.abandonCore {s c} (h : Canonical s) : Canonical (abandonCore s c) := by
  unfold abandonCore
  extract_lets
  split
  · split
    · exact .foldl (.setCore (h.same rfl rfl rfl rfl)) fun _ _ h => .ite h.dropHolder.returnBank h
    · exact .setCore (h.same rfl rfl rfl rfl)
  · exact h

protected theorem Canonical.countFault {i s} (h : Canonical s) : Canonical (countFault i s) :=
  .ite h h.onLaunch

protected theorem Canonical.faultInst {r s} (h : Canonical s) : Canonical (faultInst r s) := by
  unfold faultInst
  split
  · exact h
  · exact h.countFault.answerAll.onInst.unpark

protected theorem Canonical.discardInst {r s} (h : Canonical s) : Canonical (discardInst r s) := by
  unfold discardInst
  split
  · exact h
  · exact .ite h.faultInst h.onInst.onLaunch.unpark

protected theorem Canonical.killInst {cause i s} (h : Canonical s) : Canonical (killInst cause i s) := by
  unfold killInst
  split
  · exact h.beginKill
  · exact h

protected theorem Canonical.killSuspended {cause i s} (h : Canonical s) : Canonical (killSuspended cause i s) := by
  unfold killSuspended
  refine .faultInst ?_
  split
  · refine .settleDeficit ?_
    split
    · exact h.killSaved.foldl fun _ _ h => h.killSaved
    · exact h
  · split
    · exact h.killSaved.foldl fun _ _ h => h.killSaved
    · exact h

protected theorem Canonical.killResuming {i s} (h : Canonical s) : Canonical (killResuming i s) := by
  unfold killResuming
  split
  · exact h.killSuspended
  · exact .killInst (.onInst (h.foldl fun _ _ h => h.killSaved))

protected theorem Canonical.cancelInst {s i} (h : Canonical s) : Canonical (cancelInst s i) := by
  unfold cancelInst
  extract_lets
  split
  · exact h.onInst.discardInst
  · exact h.onInst.discardInst
  · exact .ite (.discardInst (h.onInst.foldl fun _ _ h => h.abandonCore)) h.onInst.killResuming
  · exact h.onInst.faultInst
  · exact h.onInst.killInst
  · exact h.onInst.killSuspended
  · exact h.onInst

protected theorem Canonical.cancelLaunch {d id s} (h : Canonical s) : Canonical (cancelLaunch d id s) :=
  .endLaunch (h.onLaunch.foldl fun _ _ h => h.cancelInst)

protected theorem Canonical.takeAction {rec_ s} (h : Canonical s) : Canonical (takeAction rec_ s) := by
  unfold takeAction
  extract_lets
  split
  · exact h
  · split
    · exact h.faultInst.endLaunch
    · exact h.onInst
    · exact h.killInst
    · exact h.killSuspended.endLaunch
    · exact h.cancelLaunch
    · exact h

protected theorem Canonical.takeActions {base slots n k s} (h : Canonical s) : Canonical (takeActions base slots n k s) := by
  induction n generalizing k s with
  | zero => exact h
  | succ n ih => exact ih h.takeAction

protected theorem Canonical.endHandler {d flog wr done s} (h : Canonical s) : Canonical (endHandler d flog wr done s) := by
  unfold endHandler
  extract_lets m
  clear_value m
  split
  · exact h
  · extract_lets s2 x m1 s3
    have updated : Canonical s3 := .setDie (.ite h.lostToMgmt.takeActions h.lostToMgmt)
    exact .ite updated.send updated

protected theorem Canonical.execTdone {a s} (h : Canonical s) : CanonicalOut (execTdone a s) := by
  unfold execTdone
  refine .ite h.trapWord.next (.ite (.ite h.wait.next h.spend.commitAccounts.setCore.markIdle.next) ?_)
  split
  · exact h.wait.next
  · extract_lets
    split
    · exact h.trapWord.next
    · exact h.wait.next
    · exact .ite h.finish.next h.wait.next
    · exact .ite h.wait.next (.ite h.joinAll.send.waitIn.next h.wait.next)
    · exact .ite h.send.waitIn.next h.wait.next

protected theorem Canonical.dropAreas {r s} (h : Canonical s) : Canonical (dropAreas r s) := by
  unfold dropAreas
  split
  · exact h.setDie.onInst
  · exact h

protected theorem Canonical.commitMember {c mask i l n s} (h : Canonical s) : Canonical (commitMember c mask i l n s) := by
  unfold commitMember
  extract_lets fs s1 s2 s3 last s4 s5 stopping s6
  have parked : Canonical s1 := .ite h.disposeTable h.parkTable
  have counted : Canonical s2 := parked.foldl fun _ _ ht => ht.onInst
  have released : Canonical s3 := counted.foldl fun _ _ ht => ht.endFollower
  have cleared : Canonical s6 := released.onInst.commitAccounts.clearUser
  split
  · exact .ite cleared.dropAreas.retire.endLaunch (.ite cleared.send cleared)
  · exact cleared

protected theorem Canonical.execTdoneCommit {c s} (h : Canonical s) : CanonicalOut (execTdoneCommit c s) := by
  unfold execTdoneCommit
  refine .ite h.taken.next ?_
  extract_lets
  split
  · refine .ite h.taken.next ?_
    extract_lets
    split
    · exact h.taken.spendOn.disposeTable.commitAccounts.clearUser.endHandler.next
    · split
      · exact h.taken.spendOn.commitMember.next
      · exact h.taken.spendOn.disposeTable.commitAccounts.clearUser.next
  · exact h.taken.next

end Sys2Proof.Machine
end

section
/-! SUPPORT. Every step keeps the memories canonical (O60): transactions, special registers, saved contexts, debugging and Saffron. -/

namespace Sys2Proof.Machine

open Sys2Proof.Claims

/-! ### Control transactions -/

protected theorem Canonical.execTxb {s} (h : Canonical s) : CanonicalOut (execTxb s) :=
  .ite h.trapWord.next h.setCx.finish.next

protected theorem Canonical.execTxa {s} (h : Canonical s) : CanonicalOut (execTxa s) :=
  .ite h.trapWord.next h.setCx.finish.next

protected theorem Canonical.execTxc {d n s} (h : Canonical s) : CanonicalOut (execTxc d n s) := by
  unfold execTxc
  extract_lets
  split
  · exact h.trapWord.next
  · exact h.wait.next
  · exact h.releasing (fun _ h => h.setCx.send.waitIn.next)

protected theorem Canonical.applyAtt {c sup req bank s} (h : Canonical s) : Canonical (applyAtt c sup req bank s).state := by
  unfold applyAtt
  extract_lets
  split
  · split
    · exact h
    · exact h.attApply
  · split
    · exact h.attApply
    · exact h

protected theorem Canonical.applyDet {c sup slot s} (h : Canonical s) : Canonical (applyDet c sup slot s).state := by
  unfold applyDet
  extract_lets
  split
  · exact h.endAttachment
  · split
    · exact h.putEntry
    · exact h

protected theorem Canonical.applyHand {r s} (h : Canonical s) : Canonical (applyHand r s).state :=
  .ite h.handAccept h

protected theorem Canonical.applySend {m tagged s} (h : Canonical s) : Canonical (applySend m tagged s).state := by
  unfold applySend
  extract_lets
  split
  · exact h
  · split
    · split
      · exact h.mergeClock.takeTagged
      · exact h
    · split
      · exact h.mergeClock.acceptMsg
      · exact h

protected theorem Canonical.applyTdec {c j pc s} (h : Canonical s) : Canonical (applyTdec c j pc s).state := by
  unfold applyTdec
  extract_lets
  split
  · exact h.onInst.decrement
  · exact h

protected theorem Canonical.applySpawn {r s} (h : Canonical s) : Canonical (applySpawn r s).state := by
  unfold applySpawn
  split
  next t _ found =>
    have ht : Canonical t := h.expandSpawn.of_eq found
    exact ht
  next t _ found =>
    have ht : Canonical t := h.expandSpawn.of_eq found
    exact ht

protected theorem Canonical.applyAct {c sup a s} (h : Canonical s) : Canonical (applyAct c sup a s).state := by
  unfold applyAct
  split
  · exact h.applyAtt
  · exact h.applyDet
  · exact h.applyHand
  · exact h.applySend
  · split
    · exact h
    · exact h.applyTdec
  · exact h.applySpawn

protected theorem Canonical.applyAll {c sup i l ws s} (h : Canonical s) : Canonical (applyAll c sup i l ws s).state := by
  induction l generalizing i ws s with
  | nil => exact h
  | cons a t ih =>
    unfold applyAll
    split
    next found => exact h.applyAct.of_eq found
    next found =>
      split
      · exact ih (h.applyAct.of_eq found)
      · exact h.applyAct.of_eq found

protected theorem Canonical.closeTx {c sup d t words own s} (h : Canonical s) : Canonical (closeTx c sup d t words own s) :=
  h.completeWord

protected theorem Canonical.saffronKept {c q s} (hs : Canonical s) : Canonical (saffronKept c q s) :=
  .setDie (hs.same rfl rfl rfl rfl)

protected theorem Canonical.holdTx {c sup t ix kind q s} (hs : Canonical s) : Canonical (holdTx c sup t ix kind q s) :=
  hs.saffronKept.setCtxOf.send

protected theorem Canonical.commitTx {c sup d t s} (h : Canonical s) : Canonical (commitTx c sup d t s) := by
  unfold commitTx
  refine .ite h.closeTx (.ite h.send ?_)
  split
  next _ _ t found =>
    have ht : Canonical t := h.setCtxOf.applyAll.of_eq found
    exact h.holdTx
  next _ _ t found =>
    have ht : Canonical t := h.setCtxOf.applyAll.of_eq found
    exact h.saffronKept.closeTx
  next _ t found =>
    have ht : Canonical t := h.setCtxOf.applyAll.of_eq found
    exact .closeTx (.ite ht.commitAccounts ht)

protected theorem Canonical.execTxCommit {c s} (h : Canonical s) : CanonicalOut (execTxCommit c s) := by
  unfold execTxCommit
  refine .ite h.taken.next ?_
  extract_lets
  split
  · exact h.taken.commitTx.next
  · exact h.taken.commitTx.next
  · exact h.taken.next

protected theorem Canonical.execTxTimeout {c s} (h : Canonical s) : CanonicalOut (execTxTimeout c s) :=
  .ite h.taken.next h.taken.setCore.next

/-! ### Special registers, TRAP and TRET -/

protected theorem Canonical.specialTake {m s} (h : Canonical s) : Canonical (specialTake m s) := by
  unfold specialTake
  refine .ite ?_ (.ite (h.same rfl rfl rfl rfl) h)
  split
  · exact h.setBank
  · exact h

protected theorem Canonical.within {v mask r} (h : Canonical r) : CanonicalOpt (within v mask r) :=
  .ite h.some nofun

protected theorem Canonical.onDebug {f s} (h : Canonical s) : Canonical (onDebug f s) :=
  h.setCx

protected theorem Canonical.writeFmt {v s} (h : Canonical s) : CanonicalOpt (writeFmt v s) :=
  .ite nofun h.setCx.within

protected theorem Canonical.writeAcsel {v s} (h : Canonical s) : CanonicalOpt (writeAcsel v s) :=
  .ite nofun h.setCx.within

protected theorem Canonical.writeDtctl {v s} (h : Canonical s) : CanonicalOpt (writeDtctl v s) :=
  h.setCore.within

protected theorem Canonical.writeDtent {v s} (h : Canonical s) : CanonicalOpt (writeDtent v s) :=
  .ite nofun h.setCore.some

protected theorem Canonical.writeTrap {m v s} (h : Canonical s) : CanonicalOpt (writeTrap m v s) := by
  unfold writeTrap
  extract_lets
  split
  · exact h.setCore.within
  · exact h.setCore.within
  · exact h.setCore.within
  · exact h.setCore.some
  · exact h.setCore.within
  · exact h.setCore.within
  · exact h.setCore.some
  · exact h.setCore.within
  · exact nofun

protected theorem Canonical.writeTrctl {v s} (h : Canonical s) : CanonicalOpt (writeTrctl v s) :=
  .ite nofun h.onDebug.within

protected theorem Canonical.writeTrigger {stop v s} (h : Canonical s) : CanonicalOpt (writeTrigger stop v s) :=
  .ite nofun h.onDebug.within

protected theorem Canonical.writeTrbuf {v s} (h : Canonical s) : CanonicalOpt (writeTrbuf v s) :=
  .ite nofun h.onDebug.within

protected theorem Canonical.writeBwtc {v s} (h : Canonical s) : CanonicalOpt (writeBwtc v s) := by
  unfold writeBwtc
  refine .ite nofun ?_
  split
  · exact h.onDebug.setBank.some
  · exact .ite nofun h.onDebug.some

protected theorem Canonical.writeLcs {v s} (h : Canonical s) : CanonicalOpt (writeLcs v s) :=
  .ite nofun (.within (.send (h.same rfl rfl rfl rfl)))

protected theorem Canonical.writeDbgopen {v s} (h : Canonical s) : CanonicalOpt (writeDbgopen v s) :=
  .ite (.some (h.same rfl rfl rfl rfl)) nofun

protected theorem Canonical.writeDebug {m v s} (h : Canonical s) : CanonicalOpt (writeDebug m v s) :=
  .ite h.onDebug.within (.ite h.onDebug.within (.ite (.ite nofun h.onDebug.within) (.ite (.ite nofun h.onDebug.within) (.ite h.onDebug.within (.ite h.writeTrctl (.ite h.writeTrigger (.ite h.writeTrigger (.ite h.onDebug.some (.ite h.writeTrbuf (.ite h.writeBwtc nofun))))))))))

protected theorem Canonical.specialWrite {m v s} (h : Canonical s) : CanonicalOpt (specialWrite m v s) :=
  .ite nofun (.ite h.setCx.within (.ite h.writeFmt (.ite h.setCx.within (.ite h.setCore.within (.ite h.writeAcsel (.ite h.writeDtctl (.ite h.setCore.within (.ite h.writeDtent (.ite h.writeTrap (.ite h.writeDebug (.ite h.writeLcs (.ite h.writeDbgopen nofun))))))))))))

protected theorem Canonical.execSrd {d m s} (h : Canonical s) : CanonicalOut (execSrd d m s) :=
  .ite h.trapWord.next (.ite h.wait.next h.specialTake.putNat.finish.next)

protected theorem Canonical.execSwr {d m s} (h : Canonical s) : CanonicalOut (execSwr d m s) := by
  unfold execSwr
  refine .ite h.trapWord.next (.ite h.wait.next ?_)
  split
  next t found =>
    have ht : Canonical t := h.specialWrite _ found
    exact .next (h.finishWith (fun _ h => .getD h.specialWrite h))
  · exact h.trapWord.next

protected theorem Canonical.writeEvent {e m v s} (h : Canonical s) : CanonicalOut (writeEvent e m v s) := by
  unfold writeEvent
  refine .ite h.taken.trapWord.next ?_
  split
  next t found =>
    have ht : Canonical t := h.taken.specialWrite _ found
    exact ht.next
  · exact h.taken.trapWord.next

protected theorem Canonical.execDtentWrite {v s} (h : Canonical s) : CanonicalOut (execDtentWrite v s) :=
  h.writeEvent

protected theorem Canonical.execRseedWrite {v s} (h : Canonical s) : CanonicalOut (execRseedWrite v s) :=
  .ite h.next h.writeEvent

protected theorem Canonical.execTrctlWrite {v s} (h : Canonical s) : CanonicalOut (execTrctlWrite v s) :=
  h.writeEvent

protected theorem Canonical.execBwtcWrite {v s} (h : Canonical s) : CanonicalOut (execBwtcWrite v s) :=
  h.writeEvent

protected theorem Canonical.execBwtrRead {d s} (h : Canonical s) : CanonicalOut (execBwtrRead d s) :=
  h.taken.specialTake.putNat.next

protected theorem Canonical.onNolorn {s f} (h : Canonical s) (hf : ∀ t, Canonical t → CanonicalOut (f t)) : CanonicalOut (onNolorn s f) :=
  .ite h.trapWord.next (.ite h.trapWord.next (hf _ h))

protected theorem Canonical.execNonceDraw {d s} (h : Canonical s) : CanonicalOut (execNonceDraw d s) :=
  h.taken.onNolorn (fun _ h => h.specialTake.putNat.next)

protected theorem Canonical.execDbgopenWrite {v s} (h : Canonical s) : CanonicalOut (execDbgopenWrite v s) :=
  h.taken.onNolorn (fun _ h => h.writeEvent)

protected theorem Canonical.execFuseWrite {v s} (h : Canonical s) : CanonicalOut (execFuseWrite v s) :=
  h.taken.onNolorn (fun _ h => h.writeEvent)

protected theorem Canonical.execFuseBlowDone {s} (h : Canonical s) : CanonicalOut (execFuseBlowDone s) := by
  unfold execFuseBlowDone
  split
  · exact h.taken.next
  · exact .ite h.next (.next (h.same rfl rfl rfl rfl))

protected theorem Canonical.execTrap {a i s} (h : Canonical s) : CanonicalOut (execTrap a i s) :=
  h.trapVal.next

protected theorem Canonical.execTret {s} (h : Canonical s) : CanonicalOut (execTret s) :=
  .ite h.trapWord.next h.finish.returnUser.next

protected theorem Canonical.execTretK {s} (h : Canonical s) : CanonicalOut (execTretK s) :=
  .ite h.trapWord.next h.finish.beginKill.settle.setCore.markIdle.next

protected theorem Canonical.execTretS {s} (h : Canonical s) : CanonicalOut (execTretS s) :=
  .ite h.trapWord.next h.finish.returnSup.next

/-! ### Contexts saved, loaded and killed -/

protected theorem Canonical.writeArea {a k x pc tpc s} (h : Canonical s) : Canonical (writeArea a k x pc tpc s) :=
  .homeWrite (.homeWrite (.homeWrite (.homeWrite (.homeWrite (.homeWrite (.homeWriteNat (h.homeWriteNat.homeWriteNat.foldl fun _ _ h => h.homeWriteTagged)))))))

protected theorem Canonical.moveBanks {c x old new rcb s} (h : Canonical s) : Canonical (moveBanks c x old new rcb s) :=
  h.foldl fun _ _ h => .ite h h.setBank

protected theorem Canonical.stopSupervisor {c s} (h : Canonical s) : Canonical (stopSupervisor c s) :=
  .ite h (.setCore (.withdraw (.settle (h.same rfl rfl rfl rfl))))

protected theorem Canonical.saveUser {c a s} (h : Canonical s) : Canonical (saveUser c a s) := by
  unfold saveUser
  extract_lets s1 k x pc s2 y s3 s4 s5 s6
  have withdrawn : Canonical s1 := h.flushTrace.commitAccounts.withdraw
  have told : Canonical s2 := by
    unfold s2
    split
    · exact withdrawn.onInst
    · exact withdrawn
  clear_value s2
  have cut : Canonical s3 := told.same rfl rfl rfl rfl
  have written : Canonical s4 := cut.writeArea.lostToCtx
  have moved : Canonical s5 := written.moveBanks
  clear_value s5
  have saved : Canonical s6 := .rehomeAll (moved.same rfl rfl rfl rfl)
  exact saved.loseReservations.emptyUser

protected theorem Canonical.setPreempt {v s c} (h : Canonical s) : Canonical (setPreempt v s c) :=
  h.settle.setCore

protected theorem Canonical.execCtxsv {d a s} (h : Canonical s) : CanonicalOut (execCtxsv d a s) :=
  .ite h.trapWord.next (.ite h.doneStatus.next (.ite h.doneStatus.next (.ite h.doneStatus.next (.ite h.setPreempt.wait.next h.setPreempt.saveUser.doneStatus.next))))

protected theorem Canonical.unparkAccess {old c s a} (h : Canonical s) : Canonical (unparkAccess old c s a) :=
  .ite (h.same rfl rfl rfl rfl) h.post

protected theorem Canonical.placeUser {c a x s} (h : Canonical s) : Canonical (placeUser c a x s) :=
  .advanceMatrix (.foldl (h.commitSup.setCore.rehomeAll.foldl fun _ _ h => h.unparkAccess) fun _ _ h => h.retryCopies)

protected theorem Canonical.takeBank {c a rcb s p} (h : Canonical s) : Canonical (takeBank c a rcb s p) := by
  unfold takeBank
  refine .ite h ?_
  extract_lets
  split
  · exact h.putEntry.dropHolder.holdBy
  · exact h.dropHolder.holdBy

protected theorem Canonical.freshBanks {c l s} (h : Canonical s) : Canonical (freshBanks c l s).2 := by
  induction l generalizing s with
  | nil => exact h
  | cons p t ih =>
    unfold freshBanks
    split
    · exact ih h
    · extract_lets r
      split
      · exact h
      · exact ih h.attApply

protected theorem Canonical.loaded {c a m s} (h : Canonical s) : Canonical (loaded c a m s) := by
  unfold loaded
  extract_lets
  split
  · exact h.same rfl rfl rfl rfl
  · exact h.setCore

protected theorem Canonical.loadArea {c a m s} (h : Canonical s) : Canonical (loadArea c a m s).2 := by
  unfold loadArea
  extract_lets
  split
  · split
    · exact h
    · exact h.placeUser.freshBanks.loaded
  · split
    · exact h
    · exact .loaded (.placeUser (h.foldl fun _ _ h => h.takeBank))

protected theorem Canonical.finishLoad {c s} (h : Canonical s) : Canonical (finishLoad c s) :=
  h.setPreempt.finish.setPreempt

protected theorem Canonical.execCtxld {d a s} (h : Canonical s) : CanonicalOut (execCtxld d a s) :=
  .ite h.trapWord.next (.ite h.lostToCtx.doneStatus.next (.ite h.lostToCtx.doneStatus.next (.ite h.lostToCtx.doneStatus.next (.next (.ite h.lostToCtx.loadArea.putNat.finishLoad h.lostToCtx.loadArea.doneStatus)))))

protected theorem Canonical.takeAreas {i s} (h : Canonical s) : CanonicalOpt (takeAreas i s) :=
  .ite h.setDie.onInst.some (.ite nofun h.setDie.onInst.some)

protected theorem Canonical.saveAll {l s} (h : Canonical s) : Canonical (saveAll l s) := by
  induction l generalizing s with
  | nil => exact h
  | cons p t ih => exact ih h.stopSupervisor.saveUser

protected theorem Canonical.execPreemption {c s} (h : Canonical s) : CanonicalOut (execPreemption c s) := by
  unfold execPreemption
  refine .ite h.taken.next ?_
  extract_lets
  split
  · exact h.taken.setPreempt.next
  · refine .ite h.taken.next (.ite (.next (.dropAreas (h.taken.foldl fun _ _ h => h.setPreempt))) ?_)
    split
    · exact .next (h.taken.foldl fun _ _ h => h.setPreempt)
    next t found =>
      have ht : Canonical t := h.taken.takeAreas _ found
      refine .ite ?_ (.next (.send (ht.foldl fun _ _ h => h.setPreempt)))
      split
      · exact .next (.onInst (.saveAll (ht.foldl fun _ _ h => h.setPreempt)))
      · exact .next (ht.foldl fun _ _ h => h.setPreempt)

protected theorem Canonical.resumeHandler {c s} (h : Canonical s) : Canonical (resumeHandler c s) :=
  .ite h.settle (.ite h.settle.setCore.beginKill h.settle.setCore)

protected theorem Canonical.restoreMember {c a i s} (h : Canonical s) : Canonical (restoreMember c a i s) :=
  .onInst (.setDie (.setCore (h.moveBanks.placeUser.same rfl rfl rfl rfl)))

protected theorem Canonical.execContextRestore {c area s} (h : Canonical s) : CanonicalOut (execContextRestore c area s) := by
  unfold execContextRestore
  refine .ite h.taken.next ?_
  split
  · exact h.taken.next
  · exact .ite h.taken.next (.ite h.taken.wakeCore.send.next (.ite (.next (.onInst (.foldl (h.taken.restoreMember.foldl fun _ _ h => h.setPreempt) fun _ _ h => h.resumeHandler))) h.taken.restoreMember.next))

protected theorem Canonical.killPeers {c i s} (h : Canonical s) : Canonical (killPeers c i s) :=
  h.foldl fun _ _ h => .ite h h.beginKill

protected theorem Canonical.leaveInst {c r resid s} (h : Canonical s) : Canonical (leaveInst c r resid s) := by
  unfold leaveInst
  extract_lets
  split
  · refine .ite (.faultInst (.dropAreas ?_)) h.onInst
    split
    · exact h.onInst.settleDeficit
    · exact h.onInst
  · exact h.onInst

protected theorem Canonical.endKill {c cause pc val s} (h : Canonical s) : Canonical (endKill c cause pc val s) := by
  unfold endKill
  extract_lets k x s1 s2 rerun s3 s4 s5 s6
  have logged : Canonical s3 := .ite h.commitAccounts.logFor.logFor h.commitAccounts.logFor
  have left : Canonical s4 := by
    unfold s4
    split
    · exact logged.leaveInst
    · exact logged
  have ended : Canonical s6 := by
    unfold s6
    split
    · exact left.clearUser.endHandler
    · exact left.clearUser
  clear_value s6
  split
  · exact ended.endLaunch
  · exact ended

protected theorem Canonical.execContextKill {c cause pc val s} (h : Canonical s) : CanonicalOut (execContextKill c cause pc val s) := by
  unfold execContextKill
  refine .ite h.taken.next (.ite h.taken.next ?_)
  extract_lets k s1 x s2 s3 s4 k4 s5 s6
  have killing : Canonical s1 := h.taken.setCore
  split
  · exact killing.send.next
  · have told : Canonical s2 := by
      unfold s2
      split
      · exact killing.killPeers
      · exact killing
    have withdrawn : Canonical s3 := told.withdraw
    have cut : Canonical s4 := withdrawn.same rfl rfl rfl rfl
    have dealt : Canonical s6 := cut.setCore.dealTable
    exact .ite dealt.endKill.next dealt.send.next

protected theorem Canonical.execTrapEntry {c cause pc val s} (h : Canonical s) : CanonicalOut (execTrapEntry c cause pc val s) :=
  .ite h.taken.next (.ite h.taken.next h.taken.setCore.userTrap.next)

protected theorem Canonical.execImpreciseTrapTake {c s} (h : Canonical s) : CanonicalOut (execImpreciseTrapTake c s) := by
  unfold execImpreciseTrapTake
  extract_lets s1 k
  have popped : Canonical { s1 with cur := c } := h.same rfl rfl rfl rfl
  exact .ite h.taken.next (.ite h.taken.next (.next (popped.takeImprecise.same rfl rfl rfl rfl)))

protected theorem Canonical.execSupervisorTrap {c cause pc val s} (h : Canonical s) : CanonicalOut (execSupervisorTrap c cause pc val s) :=
  .ite h.taken.next (.ite h.taken.next h.taken.setCore.supTrap.next)

protected theorem Canonical.execAccountCounterLimit {c s} (h : Canonical s) : CanonicalOut (execAccountCounterLimit c s) := by
  unfold execAccountCounterLimit
  refine .ite h.taken.next ?_
  split
  · exact .next (.ite h.taken.commitAccounts h.taken)
  · exact h.taken.next

/-! ### The debug port and the trace -/

protected theorem Canonical.debugAccess {c s} (h : Canonical s) : Canonical (debugAccess c s) :=
  .ite h.wakeCore h

protected theorem Canonical.execDebugHaltRequest {c s} (h : Canonical s) : CanonicalOut (execDebugHaltRequest c s) :=
  .ite h.taken.next (.ite h.taken.debugAccess.next (.ite h.taken.debugAccess.send.next h.taken.debugAccess.withdraw.haltUser.next))

protected theorem Canonical.releaseUser {c step s} (h : Canonical s) : CanonicalOut (releaseUser c step s) :=
  .ite h.next (.ite h.debugAccess.settle.setCore.next h.debugAccess.settle.next)

protected theorem Canonical.execDebugRelease {c s} (h : Canonical s) : CanonicalOut (execDebugRelease c s) :=
  h.taken.releaseUser

protected theorem Canonical.execDebugStep {c s} (h : Canonical s) : CanonicalOut (execDebugStep c s) :=
  h.taken.releaseUser

protected theorem Canonical.execDebugPatchWrite {cores addr w s} (h : Canonical s) : CanonicalOut (execDebugPatchWrite cores addr w s) := by
  unfold execDebugPatchWrite
  refine .ite h.taken.next (.ite h.taken.next ?_)
  split
  · exact .next (.ite h.taken.writeStore h.taken.wakeCore.send)
  · exact .next (h.taken.foldl fun _ _ h => h.send)

protected theorem Canonical.traceHead {c sup s} (h : Canonical s) : Canonical (traceHead c sup s) := by
  unfold traceHead
  extract_lets
  split
  · exact h
  · exact h.lostToCtx.writeTrace.setCtxOf

protected theorem Canonical.execTraceRecordWrite {c r s} (h : Canonical s) : CanonicalOut (execTraceRecordWrite c r s) :=
  .ite h.taken.next (.ite h.taken.traceHead.next (.ite h.taken.traceHead.next h.taken.next))

protected theorem Canonical.ringBytes {base cap off b s} (h : Canonical s) : Canonical (ringBytes base cap off b s) := by
  induction b generalizing off s with
  | nil => exact h
  | cons v t ih => exact ih h.homeWrite

protected theorem Canonical.duskWrite {b s} (h : Canonical s) : Canonical (duskWrite b s) :=
  .ite h (.ite h.lostToMgmt.ringBytes.homeWriteNat h.lostToMgmt.homeWriteNat)

protected theorem Canonical.duskCycle {s} (h : Canonical s) : Canonical (duskCycle s) :=
  .same (h.foldl fun _ _ h => h.settle) rfl rfl rfl rfl

protected theorem Canonical.pulse {s} (h : Canonical s) : Canonical (pulse s) :=
  .ite (.duskCycle (h.same rfl rfl rfl rfl)) (.duskCycle (h.duskWrite.same rfl rfl rfl rfl))

protected theorem Canonical.execDuskPulse {s} (h : Canonical s) : CanonicalOut (execDuskPulse s) :=
  h.taken.pulse.next

protected theorem Canonical.execDuskPeriodExpiry {s} (h : Canonical s) : CanonicalOut (execDuskPeriodExpiry s) :=
  .next (.ite h.taken (.ite h (.send (.pulse (h.same rfl rfl rfl rfl)))))

/-! ### Saffron -/

protected theorem Canonical.execActiveMessageEnqueue {d fn msg s} (h : Canonical s) : CanonicalOut (execActiveMessageEnqueue d fn msg s) :=
  .ite h.taken.next (.next (.ite h.taken.setDie h.taken.setFunc))

protected theorem Canonical.popMsg {d fn s} (h : Canonical s) : Canonical (popMsg d fn s) :=
  h.setDie

protected theorem Canonical.askPage {d fn g st2 addr vpage s} (h : Canonical s) : Canonical (askPage d fn g st2 addr vpage s) :=
  h.forgetPage.saffronPage.setDie

protected theorem Canonical.answerMsg {d fn kind status id msg s} (h : Canonical s) : Canonical (answerMsg d fn kind status id msg s) :=
  h.popMsg.complete

protected theorem Canonical.onMessage {e d fn msg types f s} (h : Canonical s) (hf : ∀ t, Canonical t → Canonical (f t)) :
    CanonicalOut (onMessage e d fn msg types f s) :=
  .ite h.taken.next (.next (.ite (hf _ h.taken) h.taken))

protected theorem Canonical.acceptLaunch {d fn msg l s} (h : Canonical s) : Canonical (acceptLaunch d fn msg l s) :=
  h.answerMsg.admitLaunch

protected theorem Canonical.doLaunch {d fn msg s} (h : Canonical s) : Canonical (doLaunch d fn msg s) := by
  unfold doLaunch
  refine .ite (.answerMsg (.ite h h.lostToMgmt)) (.ite (.answerMsg (.ite h h.lostToMgmt)) (.ite (.answerMsg (.ite h h.lostToMgmt)) ?_))
  extract_lets
  split
  · exact .answerMsg (.forgetPage (.noteLoad (.ite h h.lostToMgmt)))
  · exact .answerMsg (.noteLoad (.ite h h.lostToMgmt))
  · exact .askPage (.noteLoad (.ite h h.lostToMgmt))
  · extract_lets
    split
    · exact .answerMsg (.storeTemplate (.noteLoad (.ite h h.lostToMgmt)))
    · exact .acceptLaunch (.storeTemplate (.noteLoad (.ite h h.lostToMgmt)))

protected theorem Canonical.execLaunch {d fn msg s} (h : Canonical s) : CanonicalOut (execLaunch d fn msg s) :=
  h.onMessage (fun _ h => .ite h.doLaunch h.answerMsg)

protected theorem Canonical.doCorestart {d fn msg s} (h : Canonical s) : Canonical (doCorestart d fn msg s) := by
  unfold doCorestart
  refine .ite h.answerMsg (.ite h.answerMsg ?_)
  split
  · exact .ite h.answerMsg h
  · exact .ite h.answerMsg h.setCore.wakeCore.send.answerMsg

protected theorem Canonical.execCorestart {d fn msg s} (h : Canonical s) : CanonicalOut (execCorestart d fn msg s) :=
  h.onMessage (fun _ h => h.doCorestart)

protected theorem Canonical.doCancel {d fn msg s} (h : Canonical s) : Canonical (doCancel d fn msg s) := by
  unfold doCancel
  refine .ite h.answerMsg ?_
  split
  · exact h.answerMsg
  · exact .ite h.answerMsg h.answerMsg.cancelLaunch

protected theorem Canonical.execCancel {d fn msg s} (h : Canonical s) : CanonicalOut (execCancel d fn msg s) :=
  h.onMessage (fun _ h => h.doCancel)

protected theorem Canonical.noteImage {imgid a s} (h : Canonical s) : Canonical (noteImage imgid a s) :=
  .ite h.lostToMgmt h.lostToMgmt.lostToMgmt

protected theorem Canonical.dropImage {d fn imgid s} (h : Canonical s) : Canonical (dropImage d fn imgid s) :=
  h.setDie

protected theorem Canonical.doImgreg {d fn msg s} (h : Canonical s) : Canonical (doImgreg d fn msg s) := by
  unfold doImgreg
  refine .ite h.answerMsg ?_
  extract_lets s1 s2 x
  have noted : Canonical s1 := h.noteImage
  have dropped : Canonical s2 := noted.dropImage
  split
  · exact h.noteImage.answerMsg
  · exact .ite h.noteImage.answerMsg (.ite h.noteImage.answerMsg (.answerMsg (dropped.same rfl rfl rfl rfl)))

protected theorem Canonical.execImgreg {d fn msg s} (h : Canonical s) : CanonicalOut (execImgreg d fn msg s) :=
  h.onMessage (fun _ h => h.doImgreg)

protected theorem Canonical.doImgdrop {d fn msg s} (h : Canonical s) : Canonical (doImgdrop d fn msg s) :=
  .ite h.answerMsg (.ite h.answerMsg (.ite h.answerMsg h.dropImage.answerMsg))

protected theorem Canonical.execImgdrop {d fn msg s} (h : Canonical s) : CanonicalOut (execImgdrop d fn msg s) :=
  h.onMessage (fun _ h => h.doImgdrop)

protected theorem Canonical.execStarvation {r s} (h : Canonical s) : CanonicalOut (execStarvation r s) :=
  h.taken.onInst.next

protected theorem Canonical.execPriorityAging {r s} (h : Canonical s) : CanonicalOut (execPriorityAging r s) :=
  h.taken.onInst.next

protected theorem Canonical.refill {s rcb} (h : Canonical s) : Canonical (refill s rcb) :=
  h.setDeficit.homeWriteNat

protected theorem Canonical.choosePools {d hold all p s} (h : Canonical s) : Canonical (choosePools d hold all p s).1 := by
  induction p generalizing s with
  | zero => exact h
  | succ p ih =>
    unfold choosePools
    extract_lets l rs s1
    have refilled : Canonical s1 := .ite h (h.foldl fun _ _ ht => ht.refill)
    split
    · exact refilled.setDie
    · exact ih refilled

protected theorem Canonical.markFits {d s} (h : Canonical s) : Canonical (markFits d s) :=
  h.setDie

protected theorem Canonical.startEntry {c slot gb rcb e s} (h : Canonical s) : Canonical (startEntry c slot gb rcb e s) :=
  h.setCore.holdBy

protected theorem Canonical.takeParked {c rcb l s} (h : Canonical s) : Canonical (takeParked c rcb l s) := by
  induction l generalizing s with
  | nil => exact h
  | cons p t ih => exact ih h.startEntry

/-- The choice of a bank is left open: with it open the elaborator does not search the 512 banks of the cluster. -/
protected theorem Canonical.takeFresh {c rcb l s} (h : Canonical s) : Canonical (takeFresh c rcb l s) := by
  delta takeFresh takeFresh._f
  generalize freshBank = choose
  induction l generalizing s with
  | nil => exact h
  | cons slot t ih =>
    refine .ite (ih h) ?_
    generalize choose s c (c / 64) = o
    cases o with
    | none => exact ih h
    | some b => exact ih h.startEntry

protected theorem Canonical.reserve {l n i cores s} (h : Canonical s) : Canonical (reserve l n i cores s) :=
  .foldl (.takeParked (h.noteExtent.foldl fun _ _ h => h.setCore)) fun _ _ h => h.takeFresh

protected theorem Canonical.blockInst {l i j p s} (h : Canonical s) : Canonical (blockInst l i j p s) :=
  h.onInst.domainLog

protected theorem Canonical.toPlacing {l i cores s} (h : Canonical s) : Canonical (toPlacing l i cores s) :=
  h.onInst.send

protected theorem Canonical.dispatch {i cores s} (h : Canonical s) : Canonical (dispatch i cores s) := by
  unfold dispatch
  split
  · exact h
  · refine .ite h.toPlacing ?_
    split
    · exact h.setDeficit.blockInst
    · exact h.setDeficit.reserve.toPlacing

protected theorem Canonical.execTaskSelect {d s} (h : Canonical s) : CanonicalOut (execTaskSelect d s) := by
  unfold execTaskSelect
  refine .ite h.taken.next (.ite h.taken.next ?_)
  extract_lets +onlyGivenNames s1 all starved held hold
  generalize found : setDie s1 d _ = s2
  have marked : Canonical s2 := found ▸ h.taken.markFits.setDie
  extract_lets s3 oldest
  clear_value oldest hold
  split
  · exact marked.dispatch.next
  · have placed := marked.choosePools (d := d) (hold := hold) (all := all.filter fun i => !i.starved) (p := 8)
    generalize choosePools d hold (all.filter fun i => !i.starved) 8 s3 = q at placed ⊢
    obtain ⟨t, o⟩ := q
    cases o with
    | none => exact Canonical.next placed
    | some p => exact placed.dispatch.next

protected theorem Canonical.loadWords {c a b s} (h : Canonical s) : Canonical (loadWords c a b s) := by
  induction a, b, s using loadWords.induct c with
  | case1 a b0 b1 b2 b3 t s ih =>
    rw [Machine.loadWords]
    exact ih h.writeStore
  | case2 a b s short =>
    rw [Machine.loadWords]
    · exact h
    · exact short

protected theorem Canonical.loadImage {g i s c} (h : Canonical s) : Canonical (loadImage g i s c) :=
  .ite h h.lostToRegion.loadWords.setCore

protected theorem Canonical.bankdataRun {addr r l s} (h : Canonical s) : CanonicalOpt (bankdataRun addr r l s) := by
  induction l generalizing s with
  | nil => exact h.some
  | cons c t ih =>
    unfold bankdataRun
    exact .ite nofun (ih h.putPlace.noteWriteBy)

protected theorem Canonical.bankdataRuns {addr cores k l s} (h : Canonical s) : Canonical (bankdataRuns addr cores k l s).1 := by
  induction l generalizing k s with
  | nil => exact h
  | cons r t ih =>
    unfold bankdataRuns
    split
    next found => exact ih (h.bankdataRun _ found)
    next => exact h

protected theorem Canonical.noteBankdata {p g i s} (h : Canonical s) : Canonical (noteBankdata p g i s) :=
  h.lostToRegion.foldl fun _ _ h => h.lostToRegion

protected theorem Canonical.failStart {l i g k slot s} (h : Canonical s) : Canonical (failStart l i g k slot s) :=
  .endLaunch (.faultInst (h.domainLog.foldl fun _ _ h => h.abandonCore))

protected theorem Canonical.stampStart {d s c} (h : Canonical s) : Canonical (stampStart d s c) :=
  h.setCore

protected theorem Canonical.startPlaced {l g i s} (h : Canonical s) : Canonical (startPlaced l g i s) := by
  unfold startPlaced
  refine .ite (.foldl (h.foldl fun _ _ h => h.loadImage) fun _ _ h => h.send) ?_
  extract_lets
  split
  next t _ _ found =>
    have ht : Canonical t := Canonical.of_eq (.bankdataRuns (.noteBankdata (h.foldl fun _ _ h => h.loadImage))) found
    exact ht.failStart
  next t found =>
    have ht : Canonical t := Canonical.of_eq (.bankdataRuns (.noteBankdata (h.foldl fun _ _ h => h.loadImage))) found
    exact .send (ht.foldl fun _ _ h => h.stampStart)

protected theorem Canonical.execInstanceStart {r s} (h : Canonical s) : CanonicalOut (execInstanceStart r s) := by
  unfold execInstanceStart
  extract_lets
  split
  · exact h.taken.next
  · split
    · exact h.taken.next
    · exact .next (.ite h.taken (.ite h.taken.startPlaced (.send (h.taken.foldl fun _ _ h => h.wakeCore))))

end Sys2Proof.Machine
end

section
/-! SUPPORT. Every step keeps the memories canonical (O60): the starts of Saffron, the host, errors, the other words, and one step. -/

namespace Sys2Proof.Machine

open Sys2Proof.Claims

protected theorem Canonical.returnSupBanks {c s} (h : Canonical s) : Canonical (returnSupBanks c s) :=
  h.foldl fun _ _ h => .ite h.endAttachment h

protected theorem Canonical.startSup {c t s} (h : Canonical s) : Canonical (startSup c t s) := by
  unfold startSup
  extract_lets s1 s2
  have returned : Canonical s1 := h.flushTrace.commitAccounts.withdraw.returnSupBanks
  clear_value s1
  have cut : Canonical s2 := returned.same rfl rfl rfl rfl
  exact cut.setCore

protected theorem Canonical.loadHandler {c x s} (h : Canonical s) : Canonical (loadHandler c x s) := by
  unfold loadHandler
  split
  · split
    · exact h.loadImage
    · exact h
  · exact h

protected theorem Canonical.startUser {s c} (h : Canonical s) : Canonical (startUser s c) :=
  h.loadHandler.commitSup.mergeClock.setCore

protected theorem Canonical.execStartMessage {c s} (h : Canonical s) : CanonicalOut (execStartMessage c s) := by
  unfold execStartMessage
  refine .ite h.taken.next ?_
  split
  · exact h.taken.next
  · refine .ite (.ite h.taken.wakeCore.send.next (.ite h.taken.send.next h.taken.settle.mergeClock.startSup.next)) (.ite (.next (.send (h.taken.foldl fun _ _ h => h.wakeCore))) (.next ?_))
    split
    · exact .onInst (h.taken.foldl fun _ _ h => h.startUser)
    · exact h.taken.foldl fun _ _ h => h.startUser

protected theorem Canonical.execPreemptDecision {d s} (h : Canonical s) : CanonicalOut (execPreemptDecision d s) := by
  unfold execPreemptDecision
  refine .ite h.taken.next ?_
  split
  · exact h.taken.next
  · split
    · exact h.taken.next
    · exact .next (.send (.foldl (.onInst (.getD h.taken.takeAreas h.taken)) fun _ _ h => h.setPreempt))

protected theorem Canonical.execFaultHandlerStart {d flog s} (h : Canonical s) : CanonicalOut (execFaultHandlerStart d flog s) := by
  unfold execFaultHandlerStart
  refine .ite h.taken.next ?_
  split
  · exact h.taken.next
  · refine .ite h.taken.next ?_
    extract_lets
    split
    · exact h.taken.send.next
    · split
      · exact h.taken.setDie.wakeCore.setCore.send.next
      · exact h.taken.send.next

/-! ### The security instructions -/

protected theorem Canonical.sramPut {dst b s} (h : Canonical s) : Canonical (sramPut dst b s) := sramPut_memoriesWf s dst b h

protected theorem Canonical.secDone {d status cycles s} (h : Canonical s) : CanonicalOut (secDone d status cycles s) :=
  .next (.finish (.putNat (.ite h h.spendFor)))

protected theorem Canonical.execShash {d a b s} (h : Canonical s) : CanonicalOut (execShash d a b s) :=
  .ite h.secDone h.sramPut.secDone

protected theorem Canonical.execSverf {d a b s} (h : Canonical s) : CanonicalOut (execSverf d a b s) := by
  unfold execSverf
  refine .ite h.secDone ?_
  split
  · exact h.secDone
  · exact h.secDone

protected theorem Canonical.execSsign {d a b s} (h : Canonical s) : CanonicalOut (execSsign d a b s) := by
  unfold execSsign
  refine .ite h.secDone ?_
  split
  · exact h.secDone
  · exact h.sramPut.secDone

protected theorem Canonical.crypt {dec d a b s} (h : Canonical s) : CanonicalOut (crypt dec d a b s) := by
  unfold crypt
  refine .ite h.secDone ?_
  split
  · exact h.secDone
  · exact h.sramPut.secDone

protected theorem Canonical.execScryp {d a b s} (h : Canonical s) : CanonicalOut (execScryp d a b s) :=
  h.crypt

protected theorem Canonical.execScrypDec {d a b s} (h : Canonical s) : CanonicalOut (execScrypDec d a b s) :=
  h.crypt

protected theorem Canonical.execSkey {d a b s} (h : Canonical s) : CanonicalOut (execSkey d a b s) :=
  .ite h.secDone (.ite h.secDone (.secDone (h.same rfl rfl rfl rfl)))

protected theorem Canonical.execSkeyWipe {d _a b s} (h : Canonical s) : CanonicalOut (execSkeyWipe d _a b s) :=
  .ite h.secDone (.secDone (h.same rfl rfl rfl rfl))

protected theorem Canonical.execSmext {d a b s} (h : Canonical s) : CanonicalOut (execSmext d a b s) :=
  .ite h.secDone (.secDone (h.same rfl rfl rfl rfl))

/-! ### The host -/

protected theorem Canonical.retryEngines {s c} (h : Canonical s) : Canonical (retryEngines s c) := by
  unfold retryEngines
  extract_lets
  split
  · exact .ite (.retryMatrix (h.foldl fun _ _ h => h.retryCopies)) h
  · exact h

protected theorem Canonical.retryWhere {f s} (h : Canonical s) : Canonical (retryWhere f s) :=
  h.foldl fun _ _ h => h.retryEngines

protected theorem Canonical.execTranslationWalk {id s} (h : Canonical s) : CanonicalOut (execTranslationWalk id s) := by
  unfold execTranslationWalk
  extract_lets
  split
  · exact h.taken.next
  · exact .next (.retryWhere (.endWalk (h.same rfl rfl rfl rfl)))

protected theorem Canonical.failWaiter {fn q s w} (h : Canonical s) : Canonical (failWaiter fn q s w) :=
  .ite h.setCore (.ite h.failMatrix (.ite h.failCopies (.ite h h.setDie)))

protected theorem Canonical.answerPage {fn group ok s} (h : Canonical s) : Canonical (answerPage fn group ok s) := by
  unfold answerPage
  extract_lets
  split
  · exact h
  · exact .retryWhere (.ite h.setFunc (h.setFunc.foldl fun _ _ h => h.failWaiter))

protected theorem Canonical.execPageRequestResponse {fn group code s} (h : Canonical s) : CanonicalOut (execPageRequestResponse fn group code s) :=
  .next (.ite (.ite h h.send) h.taken.answerPage)

protected theorem Canonical.execPageRequestTimeout {fn group s} (h : Canonical s) : CanonicalOut (execPageRequestTimeout fn group s) := by
  unfold execPageRequestTimeout
  extract_lets
  split
  · exact .next (.ite h.taken.answerPage h.taken)
  · exact h.taken.next

protected theorem Canonical.setSem {s i x} (h : Canonical s) : Canonical (setSem s i x) :=
  h.same rfl rfl rfl rfl

protected theorem Canonical.execSemAcquire {fn i s} (h : Canonical s) : CanonicalOut (execSemAcquire fn i s) :=
  .ite h.taken.next (.next (.ite h.taken.setSem h.taken))

protected theorem Canonical.execSemRelease {fn i s} (h : Canonical s) : CanonicalOut (execSemRelease fn i s) :=
  .ite h.taken.next (.next (.ite h.taken.setSem h.taken))

protected theorem Canonical.clearFunction {fn s d} (h : Canonical s) : Canonical (clearFunction fn s d) :=
  .setDie (h.foldl fun _ _ h => h.cancelLaunch)

protected theorem Canonical.execFunctionLevelReset {fn s} (h : Canonical s) : CanonicalOut (execFunctionLevelReset fn s) :=
  .ite h.taken.next (.next (.foldl (h.taken.foldl fun _ _ h => h.clearFunction) fun _ _ h => .ite h.setSem h))

protected theorem Canonical.countDrop {fn s} (h : Canonical s) : Canonical (countDrop fn s) :=
  h.setFunc

protected theorem Canonical.execNumvfsWrite {fn n enable s} (h : Canonical s) : CanonicalOut (execNumvfsWrite fn n enable s) :=
  .ite h.taken.next (.next (.ite h.taken h.taken.setFunc))

protected theorem Canonical.writeFunction {fn off v s} (h : Canonical s) : Canonical (writeFunction fn off v s) := by
  unfold writeFunction
  extract_lets
  split
  · exact h.setFunc
  · exact h.setFunc
  · exact h.setFunc
  · exact h.setFunc
  · exact h.setFunc
  · exact h.setFunc
  · exact .ite h.countDrop h.invalidate
  · exact h

protected theorem Canonical.writeMgmt {fn off v s} (h : Canonical s) : Canonical (writeMgmt fn off v s) := by
  have noted : ∀ m, Canonical { s with mgmt := m } := fun _ => h.same rfl rfl rfl rfl
  unfold writeMgmt
  refine .ite (noted _) (.ite (noted _) (.ite h.setDie (.ite ?_ (.ite (noted _) (.ite (noted _) (.ite (noted _) (.ite ?_ h)))))))
  · have pulsed : ∀ b m, Canonical (if b = true then send .duskPulse { s with mgmt := m } else { s with mgmt := m }) :=
      fun _ m => .ite (noted m).send (noted m)
    exact .ite (.send (pulsed _ _)) (pulsed _ _)
  · exact .ite h (.ite h.setFunc (.ite h.setFunc h))

protected theorem Canonical.execRegisterWrite {fn off v s} (h : Canonical s) : CanonicalOut (execRegisterWrite fn off v s) :=
  .ite h.taken.next (.ite (.next (.ite h.taken.writeMgmt h.taken)) h.taken.writeFunction.next)

protected theorem Canonical.execCapgenWrite {fn v s} (h : Canonical s) : CanonicalOut (execCapgenWrite fn v s) :=
  .ite h.taken.next (.ite h.taken.countDrop.next h.taken.homeWriteTagged.next)

protected theorem Canonical.execBqcfgWrite {fn link v s} (h : Canonical s) : CanonicalOut (execBqcfgWrite fn link v s) :=
  .ite h.taken.next (.next (.ite h.taken (h.same rfl rfl rfl rfl)))

protected theorem Canonical.execIstoreHostWrite {fn c addr w s} (h : Canonical s) : CanonicalOut (execIstoreHostWrite fn c addr w s) :=
  .ite h.taken.next (.ite (.next (.ite h.taken h.taken.writeStore)) (.next (.wakeCore (.ite h h.send))))

protected theorem Canonical.execMailboxWrite {fn off b s} (h : Canonical s) : CanonicalOut (execMailboxWrite fn off b s) :=
  .next (.ite h.taken.sramPut h.taken)

protected theorem Canonical.execNmboxDoorbell {fn v s} (h : Canonical s) : CanonicalOut (execNmboxDoorbell fn v s) :=
  .ite h.taken.next (.ite h.taken.send.next h.taken.notify.next)

protected theorem Canonical.execFwupdWrite {fn v s} (h : Canonical s) : CanonicalOut (execFwupdWrite fn v s) :=
  .next (.ite (h.same rfl rfl rfl rfl) h.taken)

protected theorem Canonical.setReplace {s} (h : Canonical s) : Canonical (setReplace s) :=
  .ite h (.foldl (h.same rfl rfl rfl rfl) fun _ _ h => h.setFunc)

protected theorem Canonical.setLink {s l x} (h : Canonical s) : Canonical (setLink s l x) :=
  h.same rfl rfl rfl rfl

protected theorem Canonical.replaceCore {c fresh s} (h : Canonical s) : Canonical (replaceCore c fresh s) :=
  .ite h.setCore (.ite h.setCore.setReplace (.ite (.setReplace (.setCore (h.same rfl rfl rfl rfl))) (.setCore (h.same rfl rfl rfl rfl))))

protected theorem Canonical.replaceBank {gb s} (h : Canonical s) : Canonical (replaceBank gb s) :=
  .ite h.setBank.setReplace (.ite (.setReplace (.setBank (h.same rfl rfl rfl rfl))) (.setBank (h.same rfl rfl rfl rfl)))

protected theorem Canonical.replaceChannel {d ch s} (h : Canonical s) : Canonical (replaceChannel d ch s) :=
  .ite h.setDie.setReplace h.setDie

protected theorem Canonical.replaceLane {l s} (h : Canonical s) : Canonical (replaceLane l s) :=
  .ite h.setLink.setReplace h.setLink

protected theorem Canonical.selfTest {s d} (h : Canonical s) : Canonical (selfTest s d) :=
  .foldl (.foldl (.foldl (h.foldl fun _ _ h => .ite h.replaceChannel h) fun _ _ h => .ite h.replaceBank h) fun _ _ h => .ite h.replaceCore h) fun _ _ h => .ite h.replaceLane h

protected theorem Canonical.resetDie {d hold s} (h : Canonical s) : Canonical (resetDie d hold s) := resetDie_memoriesWf d hold s h

protected theorem Canonical.execDieResetHold {fn d hold s} (h : Canonical s) : CanonicalOut (execDieResetHold fn d hold s) :=
  .ite h.taken.next (.ite h.taken.next (.next (.ite (.resetDie (h.same rfl rfl rfl rfl)) (h.same rfl rfl rfl rfl))))

protected theorem Canonical.resetModule {s} (h : Canonical s) : Canonical (resetModule s) := resetModule_memoriesWf s h

protected theorem Canonical.execModuleReset {fn s} (h : Canonical s) : CanonicalOut (execModuleReset fn s) :=
  .next (.ite h.taken.resetModule h.taken)

protected theorem Canonical.execClockStop {fn stop s} (h : Canonical s) : CanonicalOut (execClockStop fn stop s) :=
  .next (.ite (h.same rfl rfl rfl rfl) h.taken)

protected theorem Canonical.startFirmware {s} (h : Canonical s) : Canonical (startFirmware s) :=
  h.setCore

protected theorem Canonical.execPowerGood {s} (h : Canonical s) : CanonicalOut (execPowerGood s) :=
  .ite h.taken.next (.ite (.next (h.same rfl rfl rfl rfl)) (.next (.send (.startFirmware (.foldl (.same (h.same rfl rfl rfl rfl) rfl rfl rfl rfl) fun _ _ h => h.resetDie.selfTest)))))

protected theorem Canonical.execFunctionReady {s} (h : Canonical s) : CanonicalOut (execFunctionReady s) :=
  .next (h.taken.foldl fun _ _ h => h.setFunc)

/-! ### Errors, retirement and the network -/

protected theorem Canonical.execEccCorrected {cls ix s} (h : Canonical s) : CanonicalOut (execEccCorrected cls ix s) :=
  .ite h.taken.next (.next (h.same rfl rfl rfl rfl))

protected theorem Canonical.bankLoss {gb line s} (h : Canonical s) : Canonical (bankLoss gb line s) := by
  unfold bankLoss
  extract_lets
  split
  · refine .ite h.countLoss.logFor ?_
    split
    · exact h.countLoss.logFor
    · exact h.countLoss.mgmtLog
  · exact .ite h.countLoss.domainLog h.countLoss.mgmtLog

protected theorem Canonical.execBankLineLoss {gb line s} (h : Canonical s) : CanonicalOut (execBankLineLoss gb line s) :=
  .ite h.taken.next (Canonical.putPlace (p := .bank (bankPlace gb (128 * line))) h.taken).bankLoss.next

protected theorem Canonical.execIstoreWordLoss {c addr s} (h : Canonical s) : CanonicalOut (execIstoreWordLoss c addr s) :=
  .ite h.taken.next h.taken.writeIstore.lossRecord.next

protected theorem Canonical.execHomeLineLoss {addr kind key s} (h : Canonical s) : CanonicalOut (execHomeLineLoss addr kind key s) :=
  .ite h.taken.next (.next (.ite h.taken.homeWrite.lossRecord h.taken.homeWrite.mgmtLog.countLoss))

protected theorem Canonical.loseMatrix {c sup i s} (h : Canonical s) : Canonical (loseMatrix c sup i s) := by
  unfold loseMatrix
  extract_lets
  split
  · exact h.setCtxOf.keepFault
  · exact h

protected theorem Canonical.loseCopy {c sup i s} (h : Canonical s) : Canonical (loseCopy c sup i s) := by
  unfold loseCopy
  extract_lets
  split
  · exact h.setCtxOf
  · exact h

protected theorem Canonical.loseUnit {c sup unit ix s} (h : Canonical s) : Canonical (loseUnit c sup unit ix s) := by
  unfold loseUnit
  extract_lets
  split
  · exact h.setCtxOf
  · exact h.setCtxOf
  · exact h.setCtxOf
  · split
    · exact h.setCtxOf
    · exact h.setCtxOf
    · exact h.loseMatrix
    · exact h.loseCopy
    · exact h.setCtxOf
    · exact h.setCtxOf

protected theorem Canonical.execDeviceStateLoss {c unit ix s} (h : Canonical s) : CanonicalOut (execDeviceStateLoss c unit ix s) :=
  .ite h.taken.next h.taken.loseUnit.lossRecord.next

protected theorem Canonical.logRetirement {kind ix s} (h : Canonical s) : Canonical (logRetirement kind ix s) :=
  h.mgmtLog

protected theorem Canonical.execRetirementMark {kind ix s} (h : Canonical s) : CanonicalOut (execRetirementMark kind ix s) := by
  unfold execRetirementMark
  refine .ite h.taken.next (.ite h.taken.next ?_)
  split
  · exact .ite h.taken.setCore.send.next h.taken.next
  · exact .ite h.taken.setBank.send.next h.taken.next
  · exact .ite h.taken.next h.taken.setDie.send.next
  · exact .ite h.taken.next h.taken.send.next

protected theorem Canonical.retireCore {c s} (h : Canonical s) : Canonical (retireCore c s) :=
  (h.filterIstore fun p => p.1 / 65536 != c).logRetirement.replaceCore

protected theorem Canonical.retireBank {gb s} (h : Canonical s) : Canonical (retireBank gb s) :=
  h.zeroBank.logRetirement.replaceBank

protected theorem Canonical.execResourceRetire {kind ix s} (h : Canonical s) : CanonicalOut (execResourceRetire kind ix s) := by
  unfold execResourceRetire
  extract_lets
  split
  · exact .ite h.taken.next (.ite h.taken.next (.ite h.taken.send.next h.taken.retireCore.next))
  · exact .ite h.taken.next (.ite h.taken.next (.ite h.taken.retireBank.next h.taken.send.next))
  · exact h.taken.next

protected theorem Canonical.loseLine {s pa} (h : Canonical s) : Canonical (loseLine s pa) :=
  h.homeWrite.mgmtLog.countLoss

protected theorem Canonical.execChannelRetire {d ch s} (h : Canonical s) : CanonicalOut (execChannelRetire d ch s) :=
  .ite h.taken.next (.next (.ite (.replaceChannel (.logRetirement (h.taken.foldl fun _ _ h => h.loseLine))) h.taken))

protected theorem Canonical.execLaneSpareSwap {l lane s} (h : Canonical s) : CanonicalOut (execLaneSpareSwap l lane s) :=
  .ite h.taken.next (.ite h.taken.next h.taken.setLink.logRetirement.setReplace.send.next)

protected theorem Canonical.execLaneRetrainDone {l s} (h : Canonical s) : CanonicalOut (execLaneRetrainDone l s) :=
  .ite h.taken.next h.taken.setLink.next

protected theorem Canonical.execLaneLost {l lane s} (h : Canonical s) : CanonicalOut (execLaneLost l lane s) :=
  .ite h.taken.next (.ite h.taken.next h.taken.setLink.logRetirement.next)

protected theorem Canonical.execCxlLinkDown {port s} (h : Canonical s) : CanonicalOut (execCxlLinkDown port s) :=
  .ite h.taken.next (.next (h.same rfl rfl rfl rfl))

protected theorem Canonical.execCxlLinkRetrain {port s} (h : Canonical s) : CanonicalOut (execCxlLinkRetrain port s) :=
  .ite h.taken.next (.next (h.same rfl rfl rfl rfl))

protected theorem Canonical.execThermalWarning {d s} (h : Canonical s) : CanonicalOut (execThermalWarning d s) :=
  .ite h.taken.next (.next (.foldl (.setDie (h.same rfl rfl rfl rfl)) fun _ _ h => h.setFunc))

protected theorem Canonical.execThermalClear {d s} (h : Canonical s) : CanonicalOut (execThermalClear d s) :=
  .ite h.taken.next (.next (h.same rfl rfl rfl rfl))

protected theorem Canonical.execThermalTrip {d s} (h : Canonical s) : CanonicalOut (execThermalTrip d s) :=
  .ite h.taken.next h.taken.mgmtLog.resetModule.next

protected theorem Canonical.execTwoPhaseRoutingWindow {d counts s} (h : Canonical s) : CanonicalOut (execTwoPhaseRoutingWindow d counts s) :=
  .ite h.taken.next h.taken.setDie.next

/-! ### Global accesses -/

protected theorem Canonical.globalAccess {a off n rd wr perm f s} (h : Canonical s) (hf : ∀ a t, Canonical t → CanonicalOut (f a t)) :
    CanonicalOut (globalAccess a off n rd wr perm f s) := by
  unfold globalAccess
  refine .ite h.trapVal.next (.ite h.trapVal.next (.ite h.trapVal.next (.ite h.trapVal.next (.ite h.trapVal.next (.ite h.trapVal.next ?_)))))
  split
  next t found =>
    have ht : Canonical t := h.translate.of_eq found
    exact ht.wait.next
  next _ _ t found =>
    have ht : Canonical t := h.translate.of_eq found
    exact ht.trapAt.next
  next _ t found =>
    have ht : Canonical t := h.translate.of_eq found
    exact .ite ht.trapVal.next (ht.watched (fun _ h => hf _ _ h))

protected theorem Canonical.loadGlobal {d a off n sg s} (h : Canonical s) : CanonicalOut (loadGlobal d a off n sg s) :=
  h.globalAccess (fun _ _ h => h.post.pendReg.finish.next)

protected theorem Canonical.storeGlobal {d a off n s} (h : Canonical s) : CanonicalOut (storeGlobal d a off n s) :=
  h.globalAccess (fun _ _ h => h.post.finish.next)

protected theorem Canonical.atomic {op d a b n ret s} (h : Canonical s) : CanonicalOut (atomic op d a b n ret s) := by
  unfold atomic
  extract_lets perm
  refine h.globalAccess fun pa t ht => ?_
  extract_lets m x acc u
  have posted : Canonical u := ht.post
  exact .next (.finish (.ite posted.pendReg posted))

protected theorem Canonical.execLdxBS {d a i s} (h : Canonical s) : CanonicalOut (execLdxBS d a i s) :=
  h.loadGlobal

protected theorem Canonical.execLdxBZ {d a i s} (h : Canonical s) : CanonicalOut (execLdxBZ d a i s) :=
  h.loadGlobal

protected theorem Canonical.execLdxHS {d a i s} (h : Canonical s) : CanonicalOut (execLdxHS d a i s) :=
  h.loadGlobal

protected theorem Canonical.execLdxHZ {d a i s} (h : Canonical s) : CanonicalOut (execLdxHZ d a i s) :=
  h.loadGlobal

protected theorem Canonical.execLdxWS {d a i s} (h : Canonical s) : CanonicalOut (execLdxWS d a i s) :=
  h.loadGlobal

protected theorem Canonical.execLdxWZ {d a i s} (h : Canonical s) : CanonicalOut (execLdxWZ d a i s) :=
  h.loadGlobal

protected theorem Canonical.execLdxDS {d a i s} (h : Canonical s) : CanonicalOut (execLdxDS d a i s) :=
  h.loadGlobal

protected theorem Canonical.execLdxDZ {d a i s} (h : Canonical s) : CanonicalOut (execLdxDZ d a i s) :=
  h.loadGlobal

protected theorem Canonical.execLdxQ {d a i s} (h : Canonical s) : CanonicalOut (execLdxQ d a i s) :=
  h.loadGlobal

protected theorem Canonical.execStxB {d a i s} (h : Canonical s) : CanonicalOut (execStxB d a i s) :=
  h.storeGlobal

protected theorem Canonical.execStxH {d a i s} (h : Canonical s) : CanonicalOut (execStxH d a i s) :=
  h.storeGlobal

protected theorem Canonical.execStxW {d a i s} (h : Canonical s) : CanonicalOut (execStxW d a i s) :=
  h.storeGlobal

protected theorem Canonical.execStxD {d a i s} (h : Canonical s) : CanonicalOut (execStxD d a i s) :=
  h.storeGlobal

protected theorem Canonical.execStxQ {d a i s} (h : Canonical s) : CanonicalOut (execStxQ d a i s) :=
  h.storeGlobal

protected theorem Canonical.execLdxIndexed {d a b n s} (h : Canonical s) : CanonicalOut (execLdxIndexed d a b n s) :=
  h.loadGlobal

protected theorem Canonical.execStxIndexed {d a b n s} (h : Canonical s) : CanonicalOut (execStxIndexed d a b n s) :=
  h.storeGlobal

protected theorem Canonical.execAadd {d a b n s} (h : Canonical s) : CanonicalOut (execAadd d a b n s) :=
  h.atomic

protected theorem Canonical.execAmin {d a b u n s} (h : Canonical s) : CanonicalOut (execAmin d a b u n s) :=
  h.atomic

protected theorem Canonical.execAmax {d a b u n s} (h : Canonical s) : CanonicalOut (execAmax d a b u n s) :=
  h.atomic

protected theorem Canonical.execAand {d a b n s} (h : Canonical s) : CanonicalOut (execAand d a b n s) :=
  h.atomic

protected theorem Canonical.execAor {d a b n s} (h : Canonical s) : CanonicalOut (execAor d a b n s) :=
  h.atomic

protected theorem Canonical.execAxor {d a b n s} (h : Canonical s) : CanonicalOut (execAxor d a b n s) :=
  h.atomic

protected theorem Canonical.execAswp {d a b n s} (h : Canonical s) : CanonicalOut (execAswp d a b n s) :=
  h.atomic

protected theorem Canonical.execAcas {d a b n s} (h : Canonical s) : CanonicalOut (execAcas d a b n s) :=
  h.atomic

protected theorem Canonical.execRadd {a b n s} (h : Canonical s) : CanonicalOut (execRadd a b n s) :=
  h.atomic

protected theorem Canonical.execFradd {a b s} (h : Canonical s) : CanonicalOut (execFradd a b s) :=
  h.atomic

/-! ### Packed, integer and immediate words -/

protected theorem Canonical.packDone {d wrapInt l s} (h : Canonical s) : Canonical (packDone d wrapInt l s) :=
  h.numDone

protected theorem Canonical.lanewise {d a b w f s} (h : Canonical s) : CanonicalOut (lanewise d a b w f s) :=
  h.rounding (fun _ h => h.packDone.next)

protected theorem Canonical.execPadd {d a b w s} (h : Canonical s) : CanonicalOut (execPadd d a b w s) :=
  h.lanewise

protected theorem Canonical.execPsub {d a b w s} (h : Canonical s) : CanonicalOut (execPsub d a b w s) :=
  h.lanewise

protected theorem Canonical.execPmul {d a b w s} (h : Canonical s) : CanonicalOut (execPmul d a b w s) :=
  h.lanewise

protected theorem Canonical.execPfma {d a b w s} (h : Canonical s) : CanonicalOut (execPfma d a b w s) :=
  h.rounding (fun _ h => h.packDone.next)

protected theorem Canonical.packedPick {d a b max s} (h : Canonical s) : Canonical (packedPick d a b max s) :=
  h.numDone

protected theorem Canonical.execPmin {d a b s} (h : Canonical s) : CanonicalOut (execPmin d a b s) :=
  h.packedPick.next

protected theorem Canonical.execPmax {d a b s} (h : Canonical s) : CanonicalOut (execPmax d a b s) :=
  h.packedPick.next

protected theorem Canonical.execPdot {d a b e k s} (h : Canonical s) : CanonicalOut (execPdot d a b e k s) :=
  .ite (.ite h.trapWord.next h.putNat.finish.next) h.numDone.next

protected theorem Canonical.execPcvt {d a f w p s} (h : Canonical s) : CanonicalOut (execPcvt d a f w p s) := by
  unfold execPcvt
  extract_lets
  split
  · exact h.trapWord.next
  · exact h.rounding (fun _ h => h.numDone.next)

protected theorem Canonical.execPscl {d a b w s} (h : Canonical s) : CanonicalOut (execPscl d a b w s) :=
  .ite h.putNat.finish.next (h.rounding (fun _ h => h.packDone.next))

protected theorem Canonical.execPqnt {d a f k p s} (h : Canonical s) : CanonicalOut (execPqnt d a f k p s) := by
  unfold execPqnt
  extract_lets
  split
  · exact h.trapWord.next
  · exact .ite h.putNat.putNat.finish.next (h.rounding (fun _ h => h.putNum.putNat.putNat.finish.next))

protected theorem Canonical.intDone {d w r s} (h : Canonical s) : Canonical (intDone d w r s) :=
  h.putWord.finish

protected theorem Canonical.hintDone {m s} (h : Canonical s) : Canonical (hintDone m s) :=
  h.spend.setCx.markIssued

protected theorem Canonical.execHx {p s} (h : Canonical s) : CanonicalOut (execHx p s) := by
  unfold execHx
  split
  · exact h.hintDone.next
  · exact h.hintDone.next
  · exact h.trapWord.next

protected theorem Canonical.execHv {t o e m p r f x s} (h : Canonical s) : CanonicalOut (execHv t o e m p r f x s) := by
  unfold execHv
  split
  · exact h.hintDone.next
  · exact h.trapWord.next

protected theorem Canonical.execLdi {d i s} (h : Canonical s) : CanonicalOut (execLdi d i s) :=
  h.putWord.finish.next

protected theorem Canonical.execAddl {d i s} (h : Canonical s) : CanonicalOut (execAddl d i s) :=
  h.putWord.finish.next

protected theorem Canonical.execAdd {d a b n s} (h : Canonical s) : CanonicalOut (execAdd d a b n s) :=
  h.intDone.next

protected theorem Canonical.execSub {d a b n s} (h : Canonical s) : CanonicalOut (execSub d a b n s) :=
  h.intDone.next

protected theorem Canonical.execMul {d a b n s} (h : Canonical s) : CanonicalOut (execMul d a b n s) :=
  h.intDone.next

protected theorem Canonical.execMulh {d a b n s} (h : Canonical s) : CanonicalOut (execMulh d a b n s) :=
  h.intDone.next

protected theorem Canonical.execMulhu {d a b n s} (h : Canonical s) : CanonicalOut (execMulhu d a b n s) :=
  h.intDone.next

protected theorem Canonical.execDiv {d a b n s} (h : Canonical s) : CanonicalOut (execDiv d a b n s) :=
  .ite (.ite h.trapWord.next h.intDone.next) h.intDone.next

protected theorem Canonical.execDivu {d a b n s} (h : Canonical s) : CanonicalOut (execDivu d a b n s) :=
  .ite (.ite h.trapWord.next h.intDone.next) h.intDone.next

protected theorem Canonical.execRem {d a b n s} (h : Canonical s) : CanonicalOut (execRem d a b n s) :=
  .ite (.ite h.trapWord.next h.intDone.next) h.intDone.next

protected theorem Canonical.execRemu {d a b n s} (h : Canonical s) : CanonicalOut (execRemu d a b n s) :=
  .ite (.ite h.trapWord.next h.intDone.next) h.intDone.next

protected theorem Canonical.execAnd {d a b n s} (h : Canonical s) : CanonicalOut (execAnd d a b n s) :=
  h.intDone.next

protected theorem Canonical.execOr {d a b n s} (h : Canonical s) : CanonicalOut (execOr d a b n s) :=
  h.intDone.next

protected theorem Canonical.execXor {d a b n s} (h : Canonical s) : CanonicalOut (execXor d a b n s) :=
  h.intDone.next

protected theorem Canonical.execSll {d a b n s} (h : Canonical s) : CanonicalOut (execSll d a b n s) :=
  h.intDone.next

protected theorem Canonical.execSrl {d a b n s} (h : Canonical s) : CanonicalOut (execSrl d a b n s) :=
  h.intDone.next

protected theorem Canonical.execSra {d a b n s} (h : Canonical s) : CanonicalOut (execSra d a b n s) :=
  h.intDone.next

protected theorem Canonical.execRol {d a b n s} (h : Canonical s) : CanonicalOut (execRol d a b n s) :=
  h.intDone.next

protected theorem Canonical.execRor {d a b n s} (h : Canonical s) : CanonicalOut (execRor d a b n s) :=
  h.intDone.next

protected theorem Canonical.execMin {d a b n s} (h : Canonical s) : CanonicalOut (execMin d a b n s) :=
  h.intDone.next

protected theorem Canonical.execMax {d a b n s} (h : Canonical s) : CanonicalOut (execMax d a b n s) :=
  h.intDone.next

protected theorem Canonical.execMinu {d a b n s} (h : Canonical s) : CanonicalOut (execMinu d a b n s) :=
  h.intDone.next

protected theorem Canonical.execMaxu {d a b n s} (h : Canonical s) : CanonicalOut (execMaxu d a b n s) :=
  h.intDone.next

protected theorem Canonical.execSlt {d a b n s} (h : Canonical s) : CanonicalOut (execSlt d a b n s) :=
  h.intDone.next

protected theorem Canonical.execSltu {d a b n s} (h : Canonical s) : CanonicalOut (execSltu d a b n s) :=
  h.intDone.next

protected theorem Canonical.execClz {d a n s} (h : Canonical s) : CanonicalOut (execClz d a n s) :=
  h.intDone.next

protected theorem Canonical.execCtz {d a n s} (h : Canonical s) : CanonicalOut (execCtz d a n s) :=
  h.intDone.next

protected theorem Canonical.execPopc {d a n s} (h : Canonical s) : CanonicalOut (execPopc d a n s) :=
  h.intDone.next

protected theorem Canonical.execSel {d a b s} (h : Canonical s) : CanonicalOut (execSel d a b s) :=
  h.putWord.finish.next

protected theorem Canonical.execSext {d a n s} (h : Canonical s) : CanonicalOut (execSext d a n s) :=
  h.putWord.finish.next

protected theorem Canonical.execZext {d a n s} (h : Canonical s) : CanonicalOut (execZext d a n s) :=
  h.putWord.finish.next

protected theorem Canonical.execBfx {d a b n s} (h : Canonical s) : CanonicalOut (execBfx d a b n s) :=
  h.putWord.finish.next

protected theorem Canonical.execBfi {d a b s} (h : Canonical s) : CanonicalOut (execBfi d a b s) :=
  h.putNat.finish.next

protected theorem Canonical.execAddi {d a i s} (h : Canonical s) : CanonicalOut (execAddi d a i s) :=
  h.putWord.finish.next

protected theorem Canonical.execAndi {d a i s} (h : Canonical s) : CanonicalOut (execAndi d a i s) :=
  h.putWord.finish.next

protected theorem Canonical.execOri {d a i s} (h : Canonical s) : CanonicalOut (execOri d a i s) :=
  h.putWord.finish.next

protected theorem Canonical.execXori {d a i s} (h : Canonical s) : CanonicalOut (execXori d a i s) :=
  h.putWord.finish.next

protected theorem Canonical.execSlti {d a i s} (h : Canonical s) : CanonicalOut (execSlti d a i s) :=
  h.putNat.finish.next

protected theorem Canonical.execSltiu {d a i s} (h : Canonical s) : CanonicalOut (execSltiu d a i s) :=
  h.putNat.finish.next

protected theorem Canonical.execMuli {d a i s} (h : Canonical s) : CanonicalOut (execMuli d a i s) :=
  h.putWord.finish.next

protected theorem Canonical.execSlli {d a w m s} (h : Canonical s) : CanonicalOut (execSlli d a w m s) :=
  h.intDone.next

protected theorem Canonical.execSrli {d a w m s} (h : Canonical s) : CanonicalOut (execSrli d a w m s) :=
  h.intDone.next

protected theorem Canonical.execSrai {d a w m s} (h : Canonical s) : CanonicalOut (execSrai d a w m s) :=
  h.intDone.next

/-! ### Instructions, events and one step -/

protected theorem Canonical.hostWrite {fn pa b s} (h : Canonical s) : Canonical (hostWrite fn pa b s) :=
  .ite h h.post

protected theorem Canonical.asUser {c s} (h : Canonical s) : Canonical (asUser c s) :=
  h.same rfl rfl rfl rfl

protected theorem Canonical.asBefore {c s t} (ht : Canonical t) : Canonical (asBefore c s t) :=
  ht.same rfl rfl rfl rfl

protected theorem Canonical.portWriteReg {c n v s} (h : Canonical s) : Canonical (portWriteReg c n v s) :=
  h.setCtxOf

protected theorem Canonical.portWriteSpecial {c m v s} (h : Canonical s) : Canonical (portWriteSpecial c m v s) := by
  unfold portWriteSpecial
  split
  next t found =>
    have ht : Canonical t := h.asUser.specialWrite _ found
    exact ht.asBefore
  · exact h

protected theorem Canonical.portWriteEntry {c slot w s} (h : Canonical s) : Canonical (portWriteEntry c slot w s) :=
  h.putEntry

protected theorem Canonical.portWrite {c f s} (h : Canonical s) (hf : ∀ t, Canonical t → Canonical (f t)) : Canonical (portWrite c f s) :=
  .ite (hf _ (.ite h.debugAccess h)) (.ite h.debugAccess h)

protected theorem Canonical.takeInput {i s} (h : Canonical s) : Canonical (takeInput i s) := by
  unfold takeInput
  split
  · exact h.hostWrite
  · exact h.portWrite (fun _ h => h.portWriteReg)
  · exact h.portWrite (fun _ h => h.portWriteSpecial)
  · exact h.portWrite (fun _ h => h.portWriteEntry)

protected theorem Canonical.plan {s} (h : Canonical s) : Canonical (plan s) :=
  .same (.ite h.letInAll h.letInAll.advanceMatrix) rfl rfl rfl rfl

protected theorem Canonical.andThen {f o} (h : CanonicalOut o) (hf : ∀ t, Canonical t → Canonical (f t)) : CanonicalOut (andThen f o) := by
  cases o with
  | next t => exact (hf t (h t rfl)).next
  | _ => exact nofun

protected theorem Canonical.exec {i s} (h : Canonical s) : CanonicalOut (exec i s) := by
  cases i with
  | hx => exact h.execHx
  | hv => exact h.execHv
  | ldi => exact h.execLdi
  | addl => exact h.execAddl
  | srd => exact h.execSrd
  | swr => exact h.execSwr
  | trap => exact h.execTrap
  | ctxsv => exact h.execCtxsv
  | ctxld => exact h.execCtxld
  | lblpush => exact h.execLblpush
  | add => exact h.execAdd
  | sub => exact h.execSub
  | mul => exact h.execMul
  | mulh => exact h.execMulh
  | mulhu => exact h.execMulhu
  | div => exact h.execDiv
  | divu => exact h.execDivu
  | rem => exact h.execRem
  | remu => exact h.execRemu
  | and => exact h.execAnd
  | or => exact h.execOr
  | xor => exact h.execXor
  | sll => exact h.execSll
  | srl => exact h.execSrl
  | sra => exact h.execSra
  | rol => exact h.execRol
  | ror => exact h.execRor
  | clz => exact h.execClz
  | ctz => exact h.execCtz
  | popc => exact h.execPopc
  | min => exact h.execMin
  | max => exact h.execMax
  | minu => exact h.execMinu
  | maxu => exact h.execMaxu
  | slt => exact h.execSlt
  | sltu => exact h.execSltu
  | sel => exact h.execSel
  | sext => exact h.execSext
  | zext => exact h.execZext
  | bfx => exact h.execBfx
  | bfi => exact h.execBfi
  | addi => exact h.execAddi
  | andi => exact h.execAndi
  | ori => exact h.execOri
  | xori => exact h.execXori
  | slli => exact h.execSlli
  | srli => exact h.execSrli
  | srai => exact h.execSrai
  | slti => exact h.execSlti
  | sltiu => exact h.execSltiu
  | muli => exact h.execMuli
  | csetb => exact h.execCsetb
  | cperm => exact h.execCperm
  | coff => exact h.execCoff
  | cgadr => exact h.execCgadr
  | cgbas => exact h.execCgbas
  | cglen => exact h.execCglen
  | cgprm => exact h.execCgprm
  | cclrt => exact h.execCclrt
  | capmv => exact h.execCapmv
  | cseal => exact h.execCseal
  | beq => exact h.execBeq
  | bne => exact h.execBne
  | blt => exact h.execBlt
  | bge => exact h.execBge
  | bltu => exact h.execBltu
  | bgeu => exact h.execBgeu
  | bc => exact h.execBc
  | bnc => exact h.execBnc
  | j => exact h.execJ
  | jal => exact h.execJal
  | jr => exact h.execJr
  | rep => exact h.execRep
  | fadd => exact h.execFadd
  | fsub => exact h.execFsub
  | fmul => exact h.execFmul
  | ffma => exact h.execFfma
  | fmin => exact h.execFmin
  | fmax => exact h.execFmax
  | feq => exact h.execFeq
  | flt => exact h.execFlt
  | fle => exact h.execFle
  | fcvt => exact h.execFcvt
  | fclas => exact h.execFclas
  | fsgnj => exact h.execFsgnj
  | ldBS => exact h.execLdBS
  | ldBZ => exact h.execLdBZ
  | ldHS => exact h.execLdHS
  | ldHZ => exact h.execLdHZ
  | ldWS => exact h.execLdWS
  | ldWZ => exact h.execLdWZ
  | ldDS => exact h.execLdDS
  | ldDZ => exact h.execLdDZ
  | ldQ => exact h.execLdQ
  | stB => exact h.execStB
  | stH => exact h.execStH
  | stW => exact h.execStW
  | stD => exact h.execStD
  | stQ => exact h.execStQ
  | ldIndexed => exact h.execLdIndexed
  | stIndexed => exact h.execStIndexed
  | ldxBS => exact h.execLdxBS
  | ldxBZ => exact h.execLdxBZ
  | ldxHS => exact h.execLdxHS
  | ldxHZ => exact h.execLdxHZ
  | ldxWS => exact h.execLdxWS
  | ldxWZ => exact h.execLdxWZ
  | ldxDS => exact h.execLdxDS
  | ldxDZ => exact h.execLdxDZ
  | ldxQ => exact h.execLdxQ
  | stxB => exact h.execStxB
  | stxH => exact h.execStxH
  | stxW => exact h.execStxW
  | stxD => exact h.execStxD
  | stxQ => exact h.execStxQ
  | ldxIndexed => exact h.execLdxIndexed
  | stxIndexed => exact h.execStxIndexed
  | aadd => exact h.execAadd
  | amin => exact h.execAmin
  | amax => exact h.execAmax
  | aand => exact h.execAand
  | aor => exact h.execAor
  | axor => exact h.execAxor
  | aswp => exact h.execAswp
  | acas => exact h.execAcas
  | radd => exact h.execRadd
  | fradd => exact h.execFradd
  | att => exact h.execAtt
  | det => exact h.execDet
  | hand => exact h.execHand
  | bqry => exact h.execBqry
  | ring => exact h.execRing
  | sqry => exact h.execSqry
  | revk => exact h.execRevk
  | cpy => exact h.execCpy
  | cgth => exact h.execCgth
  | csct => exact h.execCsct
  | cdst => exact h.execCdst
  | cmcst => exact h.execCmcst
  | cwcnt => exact h.execCwcnt
  | cqry => exact h.execCqry
  | cfnc => exact h.execCfnc
  | vadd => exact h.execVadd
  | vsub => exact h.execVsub
  | vmul => exact h.execVmul
  | vfma => exact h.execVfma
  | vmin => exact h.execVmin
  | vmax => exact h.execVmax
  | vabs => exact h.execVabs
  | vneg => exact h.execVneg
  | vcmp => exact h.execVcmp
  | vsel => exact h.execVsel
  | vand => exact h.execVand
  | vor => exact h.execVor
  | vxor => exact h.execVxor
  | vsll => exact h.execVsll
  | vsrl => exact h.execVsrl
  | vsra => exact h.execVsra
  | vcvt => exact h.execVcvt
  | vqnt => exact h.execVqnt
  | vdqnt => exact h.execVdqnt
  | vred => exact h.execVred
  | vscan => exact h.execVscan
  | vperm => exact h.execVperm
  | vbcst => exact h.execVbcst
  | vmov => exact h.execVmov
  | mand => exact h.execMand
  | mor => exact h.execMor
  | mxor => exact h.execMxor
  | mnot => exact h.execMnot
  | mcnt => exact h.execMcnt
  | mset => exact h.execMset
  | msetU => exact h.execMsetU
  | vrcp => exact h.execVrcp
  | vrsq => exact h.execVrsq
  | vexp2 => exact h.execVexp2
  | vlog2 => exact h.execVlog2
  | vtanh => exact h.execVtanh
  | vsigm => exact h.execVsigm
  | vsin => exact h.execVsin
  | vcos => exact h.execVcos
  | tdem => exact h.execTdem
  | tred => exact h.execTred
  | tqry => exact h.execTqry
  | terr => exact h.execTerr
  | gset => exact h.execGset
  | gclr => exact h.execGclr
  | gwait => exact h.execGwait
  | padd => exact h.execPadd
  | psub => exact h.execPsub
  | pmul => exact h.execPmul
  | pfma => exact h.execPfma
  | pmin => exact h.execPmin
  | pmax => exact h.execPmax
  | pdot => exact h.execPdot
  | pcvt => exact h.execPcvt
  | pscl => exact h.execPscl
  | pqnt => exact h.execPqnt
  | mclm => exact h.execMclm
  | mrel => exact h.execMrel
  | mld => exact h.execMld
  | mma => exact h.execMma
  | mdrn => exact h.execMdrn
  | mspl => exact h.execMspl
  | mrst => exact h.execMrst
  | msnd => exact h.execMsnd
  | mzacc => exact h.execMzacc
  | mmov => exact h.execMmov
  | mmovG => exact h.execMmovG
  | mmovT => exact h.execMmovT
  | mqry => exact h.execMqry
  | mwait => exact h.execMwait
  | bar => exact h.execBar
  | lead => exact h.execLead
  | follow => exact h.execFollow
  | send => exact h.execSend
  | sendPort => exact h.execSendPort
  | recv => exact h.execRecv
  | recvT => exact h.execRecvT
  | recvPort => exact h.execRecvPort
  | recvF => exact h.execRecvF
  | precv => exact h.execPrecv
  | probeT => exact h.execProbeT
  | probe => exact h.execProbe
  | fence => exact h.execFence
  | tspawn => exact h.execTspawn
  | tdone => exact h.execTdone
  | tdec => exact h.execTdec
  | baddq => exact h.execBaddq
  | txc => exact h.execTxc
  | shash => exact h.execShash
  | sverf => exact h.execSverf
  | ssign => exact h.execSsign
  | scryp => exact h.execScryp
  | scrypDec => exact h.execScrypDec
  | skey => exact h.execSkey
  | skeyWipe _ a _ => exact h.execSkeyWipe (_a := a)
  | smext => exact h.execSmext
  | sbind => exact h.execSbind
  | tret => exact h.execTret
  | tretK => exact h.execTretK
  | tretS => exact h.execTretS
  | idle => exact h.execIdle
  | brk => exact h.execBrk
  | lblpop => exact h.execLblpop
  | ifence => exact h.execIfence
  | nop => exact h.execNop
  | exit => exact h.execExit
  | join => exact h.execJoin
  | txb => exact h.execTxb
  | txa => exact h.execTxa
  | guardFalseDiscard => exact h.execGuardFalseDiscard
  | trapEntry => exact h.execTrapEntry
  | impreciseTrapTake => exact h.execImpreciseTrapTake
  | supervisorTrap => exact h.execSupervisorTrap
  | contextKill => exact h.execContextKill
  | preemption => exact h.execPreemption
  | contextRestore => exact h.execContextRestore
  | accountCounterLimit => exact h.execAccountCounterLimit
  | tdoneCommit => exact h.execTdoneCommit
  | dependenceDecrement => exact h.execDependenceDecrement
  | tspawnExpansion => exact h.execTspawnExpansion
  | redemand => exact h.execRedemand
  | txCommit => exact h.execTxCommit
  | txTimeout => exact h.execTxTimeout
  | launch => exact h.execLaunch
  | demandSweep => exact h.execDemandSweep
  | corestart => exact h.execCorestart
  | cancel => exact h.execCancel
  | imgreg => exact h.execImgreg
  | imgdrop => exact h.execImgdrop
  | activeMessageEnqueue => exact h.execActiveMessageEnqueue
  | completionRecordWrite => exact h.execCompletionRecordWrite
  | taskSelect => exact h.execTaskSelect
  | instanceStart => exact h.execInstanceStart
  | startMessage => exact h.execStartMessage
  | starvation => exact h.execStarvation
  | priorityAging => exact h.execPriorityAging
  | preemptDecision => exact h.execPreemptDecision
  | faultHandlerStart => exact h.execFaultHandlerStart
  | coreGatingStart => exact h.execCoreGatingStart
  | coreGatingCommit => exact h.execCoreGatingCommit
  | corePowerOff => exact h.execCorePowerOff
  | clusterGatingStart => exact h.execClusterGatingStart
  | clusterGatingCommit => exact h.execClusterGatingCommit
  | clusterPowerOff => exact h.execClusterPowerOff
  | wake => exact h.execWake
  | powerUpDone => exact h.execPowerUpDone
  | semAcquire => exact h.execSemAcquire
  | semRelease => exact h.execSemRelease
  | functionLevelReset => exact h.execFunctionLevelReset
  | invalFunction => exact h.execInvalFunction
  | invalPage => exact h.execInvalPage
  | invalRegion => exact h.execInvalRegion
  | invalComplete => exact h.execInvalComplete
  | numvfsWrite => exact h.execNumvfsWrite
  | istoreHostWrite => exact h.execIstoreHostWrite
  | cpoolWrite => exact h.execCpoolWrite
  | dieResetHold => exact h.execDieResetHold
  | moduleReset => exact h.execModuleReset
  | clockStop => exact h.execClockStop
  | fwupdWrite => exact h.execFwupdWrite
  | nmboxDoorbell => exact h.execNmboxDoorbell
  | mailboxWrite => exact h.execMailboxWrite
  | capgenWrite => exact h.execCapgenWrite
  | bqcfgWrite => exact h.execBqcfgWrite
  | registerWrite => exact h.execRegisterWrite
  | duskPulse => exact h.execDuskPulse
  | duskPeriodExpiry => exact h.execDuskPeriodExpiry
  | powerGood => exact h.execPowerGood
  | thermalWarning => exact h.execThermalWarning
  | thermalClear => exact h.execThermalClear
  | thermalTrip => exact h.execThermalTrip
  | accessForward => exact h.execAccessForward
  | accessSend => exact h.execAccessSend
  | linkCross => exact h.execLinkCross
  | bankPerform => exact h.execBankPerform
  | homeApply => exact h.execHomeApply
  | readReturn => exact h.execReadReturn
  | translationWalk => exact h.execTranslationWalk
  | pageRequestResponse => exact h.execPageRequestResponse
  | pageRequestTimeout => exact h.execPageRequestTimeout
  | handoverRequest => exact h.execHandoverRequest
  | handoverAnswer => exact h.execHandoverAnswer
  | messageArrival => exact h.execMessageArrival
  | taggedMessageArrival => exact h.execTaggedMessageArrival
  | portWordArrival => exact h.execPortWordArrival
  | barrierLeave => exact h.execBarrierLeave
  | chainLineArrival => exact h.execChainLineArrival
  | recvTimeout => exact h.execRecvTimeout
  | probeTimeout => exact h.execProbeTimeout
  | waitForProbe => exact h.execWaitForProbe
  | receiveCycle => exact h.execReceiveCycle
  | forwardedWordIssue => exact h.execForwardedWordIssue
  | vectorCommandTake => exact h.execVectorCommandTake
  | vectorGroup => exact h.execVectorGroup
  | vectorCommandComplete => exact h.execVectorCommandComplete
  | mldFillComplete => exact h.execMldFillComplete
  | accumulatorWriteback => exact h.execAccumulatorWriteback
  | matrixStoreComplete => exact h.execMatrixStoreComplete
  | msndAccept => exact h.execMsndAccept
  | copyStart => exact h.execCopyStart
  | copyComplete => exact h.execCopyComplete
  | bankScrubDone => exact h.execBankScrubDone
  | eccCorrected => exact h.execEccCorrected
  | bankLineLoss => exact h.execBankLineLoss
  | istoreWordLoss => exact h.execIstoreWordLoss
  | homeLineLoss => exact h.execHomeLineLoss
  | deviceStateLoss => exact h.execDeviceStateLoss
  | retirementMark => exact h.execRetirementMark
  | resourceRetire => exact h.execResourceRetire
  | channelRetire => exact h.execChannelRetire
  | laneSpareSwap => exact h.execLaneSpareSwap
  | laneRetrainDone => exact h.execLaneRetrainDone
  | laneLost => exact h.execLaneLost
  | cxlLinkDown => exact h.execCxlLinkDown
  | cxlLinkRetrain => exact h.execCxlLinkRetrain
  | debugHaltRequest => exact h.execDebugHaltRequest
  | debugRelease => exact h.execDebugRelease
  | debugStep => exact h.execDebugStep
  | debugPatchWrite => exact h.execDebugPatchWrite
  | traceRecordWrite => exact h.execTraceRecordWrite
  | dtentWrite => exact h.execDtentWrite
  | rseedWrite => exact h.execRseedWrite
  | trctlWrite => exact h.execTrctlWrite
  | bwtcWrite => exact h.execBwtcWrite
  | bwtrRead => exact h.execBwtrRead
  | nonceDraw => exact h.execNonceDraw
  | dbgopenWrite => exact h.execDbgopenWrite
  | fuseWrite => exact h.execFuseWrite
  | fuseBlowDone => exact h.execFuseBlowDone
  | twoPhaseRoutingWindow => exact h.execTwoPhaseRoutingWindow
  | blockNoticeArrival => exact h.execBlockNoticeArrival
  | functionReady => exact h.execFunctionReady

protected theorem Canonical.runEvent {e s} (h : Canonical s) : CanonicalOut (runEvent e s) := by
  cases e with
  | guardFalseDiscard => exact h.execGuardFalseDiscard
  | trapEntry => exact h.execTrapEntry
  | impreciseTrapTake => exact h.execImpreciseTrapTake
  | supervisorTrap => exact h.execSupervisorTrap
  | contextKill => exact h.execContextKill
  | preemption => exact h.execPreemption
  | contextRestore => exact h.execContextRestore
  | accountCounterLimit => exact h.execAccountCounterLimit
  | tdoneCommit => exact h.execTdoneCommit
  | dependenceDecrement => exact h.execDependenceDecrement
  | tspawnExpansion => exact h.execTspawnExpansion
  | redemand => exact h.execRedemand
  | txCommit => exact h.execTxCommit
  | txTimeout => exact h.execTxTimeout
  | launch => exact h.execLaunch
  | demandSweep => exact h.execDemandSweep
  | corestart => exact h.execCorestart
  | cancel => exact h.execCancel
  | imgreg => exact h.execImgreg
  | imgdrop => exact h.execImgdrop
  | activeMessageEnqueue => exact h.execActiveMessageEnqueue
  | completionRecordWrite => exact h.execCompletionRecordWrite
  | taskSelect => exact h.execTaskSelect
  | instanceStart => exact h.execInstanceStart
  | startMessage => exact h.execStartMessage
  | starvation => exact h.execStarvation
  | priorityAging => exact h.execPriorityAging
  | preemptDecision => exact h.execPreemptDecision
  | faultHandlerStart => exact h.execFaultHandlerStart
  | coreGatingStart => exact h.execCoreGatingStart
  | coreGatingCommit => exact h.execCoreGatingCommit
  | corePowerOff => exact h.execCorePowerOff
  | clusterGatingStart => exact h.execClusterGatingStart
  | clusterGatingCommit => exact h.execClusterGatingCommit
  | clusterPowerOff => exact h.execClusterPowerOff
  | wake => exact h.execWake
  | powerUpDone => exact h.execPowerUpDone
  | semAcquire => exact h.execSemAcquire
  | semRelease => exact h.execSemRelease
  | functionLevelReset => exact h.execFunctionLevelReset
  | invalFunction => exact h.execInvalFunction
  | invalPage => exact h.execInvalPage
  | invalRegion => exact h.execInvalRegion
  | invalComplete => exact h.execInvalComplete
  | numvfsWrite => exact h.execNumvfsWrite
  | istoreHostWrite => exact h.execIstoreHostWrite
  | cpoolWrite => exact h.execCpoolWrite
  | dieResetHold => exact h.execDieResetHold
  | moduleReset => exact h.execModuleReset
  | clockStop => exact h.execClockStop
  | fwupdWrite => exact h.execFwupdWrite
  | nmboxDoorbell => exact h.execNmboxDoorbell
  | mailboxWrite => exact h.execMailboxWrite
  | capgenWrite => exact h.execCapgenWrite
  | bqcfgWrite => exact h.execBqcfgWrite
  | registerWrite => exact h.execRegisterWrite
  | duskPulse => exact h.execDuskPulse
  | duskPeriodExpiry => exact h.execDuskPeriodExpiry
  | powerGood => exact h.execPowerGood
  | thermalWarning => exact h.execThermalWarning
  | thermalClear => exact h.execThermalClear
  | thermalTrip => exact h.execThermalTrip
  | accessForward => exact h.execAccessForward
  | accessSend => exact h.execAccessSend
  | linkCross => exact h.execLinkCross
  | bankPerform => exact h.execBankPerform
  | homeApply => exact h.execHomeApply
  | readReturn => exact h.execReadReturn
  | translationWalk => exact h.execTranslationWalk
  | pageRequestResponse => exact h.execPageRequestResponse
  | pageRequestTimeout => exact h.execPageRequestTimeout
  | handoverRequest => exact h.execHandoverRequest
  | handoverAnswer => exact h.execHandoverAnswer
  | messageArrival => exact h.execMessageArrival
  | taggedMessageArrival => exact h.execTaggedMessageArrival
  | portWordArrival => exact h.execPortWordArrival
  | barrierLeave => exact h.execBarrierLeave
  | chainLineArrival => exact h.execChainLineArrival
  | recvTimeout => exact h.execRecvTimeout
  | probeTimeout => exact h.execProbeTimeout
  | waitForProbe => exact h.execWaitForProbe
  | receiveCycle => exact h.execReceiveCycle
  | forwardedWordIssue => exact h.execForwardedWordIssue
  | vectorCommandTake => exact h.execVectorCommandTake
  | vectorGroup => exact h.execVectorGroup
  | vectorCommandComplete => exact h.execVectorCommandComplete
  | mldFillComplete => exact h.execMldFillComplete
  | accumulatorWriteback => exact h.execAccumulatorWriteback
  | matrixStoreComplete => exact h.execMatrixStoreComplete
  | msndAccept => exact h.execMsndAccept
  | copyStart => exact h.execCopyStart
  | copyComplete => exact h.execCopyComplete
  | bankScrubDone => exact h.execBankScrubDone
  | eccCorrected => exact h.execEccCorrected
  | bankLineLoss => exact h.execBankLineLoss
  | istoreWordLoss => exact h.execIstoreWordLoss
  | homeLineLoss => exact h.execHomeLineLoss
  | deviceStateLoss => exact h.execDeviceStateLoss
  | retirementMark => exact h.execRetirementMark
  | resourceRetire => exact h.execResourceRetire
  | channelRetire => exact h.execChannelRetire
  | laneSpareSwap => exact h.execLaneSpareSwap
  | laneRetrainDone => exact h.execLaneRetrainDone
  | laneLost => exact h.execLaneLost
  | cxlLinkDown => exact h.execCxlLinkDown
  | cxlLinkRetrain => exact h.execCxlLinkRetrain
  | debugHaltRequest => exact h.execDebugHaltRequest
  | debugRelease => exact h.execDebugRelease
  | debugStep => exact h.execDebugStep
  | debugPatchWrite => exact h.execDebugPatchWrite
  | traceRecordWrite => exact h.execTraceRecordWrite
  | dtentWrite => exact h.execDtentWrite
  | rseedWrite => exact h.execRseedWrite
  | trctlWrite => exact h.execTrctlWrite
  | bwtcWrite => exact h.execBwtcWrite
  | bwtrRead => exact h.execBwtrRead
  | nonceDraw => exact h.execNonceDraw
  | dbgopenWrite => exact h.execDbgopenWrite
  | fuseWrite => exact h.execFuseWrite
  | fuseBlowDone => exact h.execFuseBlowDone
  | twoPhaseRoutingWindow => exact h.execTwoPhaseRoutingWindow
  | blockNoticeArrival => exact h.execBlockNoticeArrival
  | functionReady => exact h.execFunctionReady

protected theorem Canonical.sequencer {s} (h : Canonical s) : CanonicalOut (sequencer s) := by
  unfold sequencer
  split
  next t found =>
    have ht : Canonical t := h.prepare.of_eq found
    exact ht.plan.elapse.next
  next _ t found =>
    have ht : Canonical t := h.prepare.of_eq found
    exact Canonical.andThen ht.exec (fun _ h => h.afterIssue.plan.elapse)

protected theorem Canonical.step {s} (h : Canonical s) : CanonicalOut (step s) := by
  unfold step
  split
  · exact .next (.elapse (.takeInput (h.same rfl rfl rfl rfl)))
  · exact .andThen (.runEvent (h.same rfl rfl rfl rfl)) (fun _ h => h.elapse)
  · exact h.sequencer

/-- Settles O60: whatever a step does, it is a function of the model that keeps the memories canonical. -/
theorem stepKeepsMemoriesCanonical : Obligations.StepKeepsMemoriesCanonical := fun _ t h e => Canonical.step h t e

end Sys2Proof.Machine
end
